-- ==== Sys2Proof/Word.lean ====
section
/-! DEFINITION. The word types, module time and the sparse table type, with their plainest arithmetic. -/
namespace Sys2Proof

/-- A register or descriptor word (R330, R440). -/
abbrev Word := BitVec 32
/-- A byte of a frame, a buffer or host memory. -/
abbrev Byte := BitVec 8

/-- Sparse data by key. Keys rise strictly and no entry holds the default value, so equal tables are equal lists. -/
abbrev Tab (α : Type) := List (Nat × α)

/-- Module time: 48 bits of seconds and 32 bits of nanoseconds (R14). -/
structure Time80 where
  sec : Nat := 0
  ns : Nat := 0
deriving DecidableEq, Repr, Inhabited

/-- Nanoseconds since 0 s 0 ns. -/
def Time80.toNs (t : Time80) : Nat := t.sec * 1000000000 + t.ns

/-- The instant a number of nanoseconds after 0 s 0 ns. -/
def Time80.ofNs (n : Nat) : Time80 := ⟨n / 1000000000, n % 1000000000⟩

/-- The requester number of the manager (R422: requesters 0-15 are slices, 16 is the manager). -/
def mgr : Nat := 16

end Sys2Proof
end

