-- ==== Sys2Proof/Syntax.lean ====
section
/-! DEFINITION. The commands of the block, one constructor per row of spec/opcode_table.json, with the types of their
operands: frames, descriptors, images, hellos and management frames as they reach the block from outside. -/
namespace Sys2Proof

/-! ## Images (14_images.md R321, R322)

A Dziva image as the module holds it. Facts about bytes the model does not hold (a CRC, a signature) are Booleans (log 11). -/

/-- A piece of a lookup key: header bits or metadata bits. The form of the planner's key templates is not given (log 12). -/
inductive KeyPart where
  /-- `width` bits at `off` bits into the header that HSEL names (R193) -/
  | hdr (hsel off width : Nat)
  /-- `width` bits of the frame metadata from bit `lo` (R136, R198) -/
  | md (lo width : Nat)
deriving DecidableEq, Repr, Inhabited

/-- An exact-match lookup of a key template (R144). -/
structure ExmLookup where
  table : Nat := 0
  source : Bool := false
  key : List KeyPart := []
deriving DecidableEq, Repr, Inhabited

/-- A trie lookup of a key template (R169). -/
structure LpmLookup where
  root : Nat := 0
  addr : List KeyPart := []
deriving DecidableEq, Repr, Inhabited

/-- The lookups of one port profile: at most two of each kind (R144, R169). -/
structure KeyTemplate where
  exm : List ExmLookup := []
  lpm : List LpmLookup := []
deriving DecidableEq, Repr, Inhabited

/-- A header template (R195). -/
structure Template where
  hdrId : Nat := 0
  bytes : List Byte := []
deriving DecidableEq, Repr, Inhabited

/-- An entry of the program table: start word and length 1-16; length 0 is an empty entry (R192). -/
structure Prog where
  start : Nat := 0
  len : Nat := 0
deriving DecidableEq, Repr, Inhabited

/-- The HDR_IDs bound to the hash unit (R202). -/
structure HashBind where
  eth : Nat := 0
  ip4 : Nat := 0
  ip6 : Nat := 0
  tcp : Nat := 0
  udp : Nat := 0
  mpls : Nat := 0
  vxlan : Nat := 0
  vlan : Nat := 0
deriving DecidableEq, Repr, Inhabited

/-- An exact-match table profile (R140, EXM_TBL_CFG) with its miss action (R189). -/
structure ExmProf where
  en : Bool := false
  shared : Bool := false
  learn : Bool := false
  journal : Bool := false
  ageTick : Nat := 0
  keyBytes : Nat := 0
  seed : Word := 0
  missKind : Nat := 0
  missOper : Nat := 0
deriving DecidableEq, Repr, Inhabited

/-- A trie root's settings (R165) with its miss action (R189). -/
structure RootCfg where
  en : Bool := false
  ip6 : Bool := false
  shared : Bool := false
  slice : Nat := 0
  missKind : Nat := 0
  missOper : Nat := 0
deriving DecidableEq, Repr, Inhabited

/-- An exact-match entry (R142) as the image lists it or a replica holds it; LAST_HIT is one value per tile. -/
structure ExmEntry where
  valid : Bool := false
  key : BitVec 128 := 0
  result : Word := 0
  static : Bool := false
  ageExempt : Bool := false
  slice : Nat := 0
  table : Nat := 0
  /-- an overflow entry's bucket number (R142) -/
  bucket : Nat := 0
  lastHit : List Nat := []
deriving DecidableEq, Repr, Inhabited

/-- An installed trie prefix with the slice it is charged to (R170). -/
structure Pfx where
  root : Nat := 0
  len : Nat := 0
  addr : BitVec 128 := 0
  nh : Nat := 0
  slice : Nat := 0
deriving DecidableEq, Repr, Inhabited

/-- A slab row (R175). -/
structure TcmRow where
  value : BitVec 160 := 0
  mask : BitVec 160 := 0
  prio : Nat := 0
  act : Nat := 0
  valid : Bool := false
  parity : Bool := false
deriving DecidableEq, Repr, Inhabited

/-- A rule table of a pipeline (R176, R181): its fallbacks are `none` where the image gives none. -/
structure RuleTable where
  en : Bool := false
  shared : Bool := false
  /-- 0 single, 1 pair, 2 quad -/
  width : Nat := 0
  slabs : List Nat := []
  missAct : Nat := 0
  key : List KeyPart := []
  fallback : List (Nat × Option (Nat × Nat)) := []
deriving DecidableEq, Repr, Inhabited

/-- A path or steer group's header (R201). -/
structure GroupHdr where
  steer : Bool := false
  prof : Nat := 0
  valid : Bool := false
deriving DecidableEq, Repr, Inhabited

/-- A multicast member record (R205). -/
structure Member where
  nh : Nat := 0
  srcPrune : Bool := false
deriving DecidableEq, Repr, Inhabited

/-- A multicast group: the member array it points to and DEST_TILES (R205). -/
structure McGroup where
  members : List Member := []
  destTiles : List Nat := []
deriving DecidableEq, Repr, Inhabited

/-- A mirror session (R208). -/
structure MirSess where
  nh : Nat := 0
  len : Nat := 0
deriving DecidableEq, Repr, Inhabited

/-- A policer's settings (R289). -/
structure Policer where
  mode : Nat := 0
  coupled : Bool := false
  aware : Bool := false
  lenProf : Nat := 0
  rate1 : Nat := 0
  rate2 : Nat := 0
  burst1 : Nat := 0
  burst2 : Nat := 0
  maxSdu : Nat := 0
  sgate : Option Nat := none
deriving DecidableEq, Repr, Inhabited

/-- An 802.1CB stream's settings (R298). -/
structure FrerCfg where
  kind : Nat := 0
  multicast : Bool := false
  binding : Nat := 0
  matchAlg : Bool := false
  history : Nat := 0
  strip : Bool := false
  resetMs : Nat := 0
deriving DecidableEq, Repr, Inhabited

/-- A scheduler node's settings and parent (R278, R281). `parent` is one more than the parent's number, 0 for none. -/
structure NodeCfg where
  parent : Nat := 0
  prio : Nat := 0
  weight : Nat := 0
  lenProf : Nat := 0
  cir : Nat := 0
  cbs : Nat := 0
  pir : Nat := 0
  pbs : Nat := 0
  maxRes : Nat := 0
deriving DecidableEq, Repr, Inhabited

/-- A gate list entry: STATES and INTERVAL (R293); for a stream gate bit 0 of `states` is OPEN (R296). -/
structure GateEntry where
  states : Nat := 0
  ipv : Option Nat := none
  interval : Nat := 0
deriving DecidableEq, Repr, Inhabited

/-- A gate list with its count, base time and cycle time (R293). -/
structure GateList where
  entries : Tab GateEntry := []
  count : Nat := 0
  base : Time80 := {}
  cycle : Nat := 0
deriving DecidableEq, Repr, Inhabited

/-- A planned adjacency (R304). -/
structure PlanAdj where
  partnerId : Nat := 0
  partnerSerial : Nat := 0
  partnerPort : Nat := 0
  role : Nat := 0
  linkFailId : Nat := 0
deriving DecidableEq, Repr, Inhabited

/-- Section PARSE (R121, R122, R119): graph states, transitions and the three profile registers. -/
structure ParseSec where
  graph : Tab (BitVec 128) := []
  trans : Tab (BitVec 80) := []
  prof : Tab Word := []
  portProf : Tab Word := []
  hostProf : Tab Word := []
deriving DecidableEq, Repr, Inhabited

/-- Section ACTION (R192, R195, R202). -/
structure ActionSec where
  lib : Tab (BitVec 64) := []
  progs : Tab Prog := []
  templates : Tab Template := []
  profProg : Tab Nat := []
  hashFld : Tab Word := []
  hashSeed : Tab Word := []
  bind : HashBind := {}
deriving DecidableEq, Repr, Inhabited

/-- Section EXM_PROF: table profiles, key templates and root settings (R140, R144, R165). -/
structure ExmSec where
  tables : Tab ExmProf := []
  roots : Tab RootCfg := []
  templates : Tab KeyTemplate := []
deriving DecidableEq, Repr, Inhabited

/-- Section TABLES: the initial contents (R322). -/
structure TablesSec where
  exm : List ExmEntry := []
  prefixes : List Pfx := []
  nextHops : Tab (BitVec 128) := []
  groups : Tab GroupHdr := []
  buckets : Tab (Nat × Nat) := []
  mcast : Tab McGroup := []
  mirrors : Tab MirSess := []
  policers : Tab Policer := []
  streams : Tab FrerCfg := []
deriving DecidableEq, Repr, Inhabited

/-- Section SLABS: layout, rows, and for each tile its START groups and thresholds (R176, R181, R185). -/
structure SlabSec where
  tables : Tab RuleTable := []
  rows : Tab TcmRow := []
  startGroups : Tab (Option Nat) := []
  thresholds : Tab (Option (Nat × Nat × Nat)) := []
deriving DecidableEq, Repr, Inhabited

/-- Section QUEUES: the tree, node settings, length profiles, replication weights, tier map (R278, R281), and the classes that are
parity-striped, which the spec leaves to the plan (log 20). -/
structure QueueSec where
  parityClasses : List Nat := []
  ports : List Nat := []
  nodes : Tab NodeCfg := []
  lenProfs : Tab Int := []
  rqWeights : Tab Nat := []
  tierMap : Tab Nat := []
deriving DecidableEq, Repr, Inhabited

/-- Section GATES: port lists, stream-gate lists and their bindings to (port, class) (R293, R296, R297). -/
structure GateSec where
  ports : Tab GateList := []
  sgates : Tab GateList := []
  sgBind : Tab (Option (Nat × Nat)) := []
deriving DecidableEq, Repr, Inhabited

/-- Section CALENDAR: slot words keyed by (tile × 9 + calendar) × 15,625 + slot; quiet and dormant windows (R234, R417). -/
structure CalSec where
  slots : Tab Word := []
  quiet : List (Nat × Time80 × Time80) := []
  dormant : List (Time80 × Time80) := []
deriving DecidableEq, Repr, Inhabited

/-- Section CORRIDOR (R304, R310, R306, R314, R315). -/
structure CorridorSec where
  adj : Tab (Option PlanAdj) := []
  groups : List Nat := []
  overlay : Tab (Option Nat) := []
  etype : Option Nat := none
  keySlot : Nat := 0
  helloUs : Option Nat := none
  mgmtRing : Option Nat := none
deriving DecidableEq, Repr, Inhabited

/-- Section PORTS (R91, R95, R100, R101, R107, R446). Owners are one more than the slice number, 0 for none. -/
structure PortsSec where
  modes : Tab (Nat × Nat) := []
  polarity : Tab Nat := []
  laneOrder : Tab Nat := []
  fecThresh : Tab Nat := []
  macsec : Tab Nat := []
  owner : Tab Nat := []
  holds : Tab (Option Nat) := []
  budget : Tab Nat := []
  leafBase : Tab (Option Nat) := []
deriving DecidableEq, Repr, Inhabited

/-- A section-table entry (R321); `scrcOk`: its SCRC matches the section's bytes. -/
structure SectEntry where
  type : Nat := 0
  required : Bool := false
  offset : Nat := 0
  size : Nat := 0
  scrcOk : Bool := false
deriving DecidableEq, Repr, Inhabited

/-- An image: header (R321), sections (R322) and what the steward finds of its bytes (R323). -/
structure Image where
  magic : Word := 0
  version : Nat := 0
  sections : List SectEntry := []
  seq : BitVec 64 := 0
  length : Nat := 0
  crc : Word := 0
  crcOk : Bool := false
  sliceCnt : Nat := 0
  fabricId : Nat := 255
  bootDigest : Word := 0
  planId : BitVec 64 := 0
  plannerVer : Word := 0
  shedOrder : List Nat := []
  /-- the ECDSA signature verifies under the installed image key -/
  sigOk : Bool := false
  parse : ParseSec := {}
  action : ActionSec := {}
  exm : ExmSec := {}
  tables : TablesSec := {}
  slabs : SlabSec := {}
  queues : QueueSec := {}
  gates : GateSec := {}
  cal : CalSec := {}
  corridor : CorridorSec := {}
  ports : PortsSec := {}
  pools : List Nat := []
deriving DecidableEq, Repr, Inhabited

/-- Steward firmware as staged (R80, R83): its sequence number and whether its signature verifies. -/
structure FwImage where
  seq : Word := 0
  sigOk : Bool := false
  length : Nat := 0
deriving DecidableEq, Repr, Inhabited

/-- A microcode patch block (R357): header, vector table, code, and whether decryption and signature succeed (R82). -/
structure PatchBlock where
  authOk : Bool := false
  silRev : Nat := 0
  level : Nat := 0
  codeLen : Nat := 0
  vectors : Tab (BitVec 16) := []
  code : Tab Word := []
  length : Nat := 0
deriving DecidableEq, Repr, Inhabited

/-! ## Operands -/

/-- What an access to DRAM finds (R269). -/
inductive EccFinding where
  | clean
  | corrected
  | uncorrectable
  /-- command/address parity error; `again`: the access issued again completes cleanly -/
  | caParity (again : Bool)
deriving DecidableEq, Repr, Inhabited

/-- A command that its ring's home engine executes: requester, ring, the descriptor's 16 words (R330), and what the host
answered: the bytes its HADDR read returned (`none` where the access failed) and whether its host writes succeeded (log 17). -/
structure Cmd where
  req : Nat
  ring : Nat
  desc : List Word
  data : Option (List Byte) := some []
  wrOk : Bool := true
  /-- words of the replica it reads that are found uncorrectable now: memory, 0-15 of the trie (R174) or 16 of the exact match
  (R142), and address, there position × 4 + way -/
  ue : List (Nat × Nat) := []
  /-- what its access to DRAM finds (R269) -/
  dram : EccFinding := .clean
  /-- cell indices in whose rows a migration's reads meet an error (R270) -/
  rowErrs : List (Nat × EccFinding) := []
  /-- a sag or a reset cuts its NVM write off after that many of the write's actions (R79, R83, R328) -/
  cut : Option Nat := none
deriving DecidableEq, Repr, Inhabited

/-- The sending end of a link from which an express frame arrives: its tile, and whether every cell holds its CRC (R211). -/
structure LinkEnd where
  tile : Nat
  crcOk : Bool
deriving DecidableEq, Repr, Inhabited

/-- A spill write that completes: its tile, and `x`, a command/address parity error of the write or `clean` (R269). -/
structure SpillWrite where
  tile : Nat
  x : EccFinding
deriving DecidableEq, Repr, Inhabited

/-- An automatic migration that ends: its channel, and the cell indices in whose rows the copying reads met an error (R270). -/
structure RowsCopied where
  ch : Nat
  rowErrs : List (Nat × EccFinding)
deriving DecidableEq, Repr, Inhabited

/-- A frame as it reaches the MAC: its bytes, FCS included, and what PCS, FEC and MACsec find of it (R96, R100). -/
structure RxFrame where
  bytes : List Byte
  /-- the FCS octets match, and no codeword of the frame was uncorrectable (R95) -/
  fcsGood : Bool := true
  /-- a code error within the frame (R98 RX_CODE_ERR) -/
  codeErr : Bool := false
  /-- the SecTAG is malformed (R98 MS_RX_BAD_TAG) -/
  badTag : Bool := false
  /-- the SecTAG's channel, association and packet number, where the frame carries a SecTAG -/
  secTag : Option (BitVec 64 × Nat × Nat) := none
  icvGood : Bool := true
deriving DecidableEq, Repr, Inhabited

/-- What the memories a frame's step 4 reads are found to hold (R138, R142, R174, R184). -/
structure Findings where
  graphErr : Bool := false
  /-- words of the tile's exact-match store found uncorrectable: lookup, and position × 4 + way -/
  exmUe : List (Nat × Nat) := []
  /-- lookups whose LAST_HIT write arrives late, and lookups that fall in the restore window of an aging delete (R153) -/
  exmLate : List Nat := []
  exmGap : List Nat := []
  /-- trie words found uncorrectable: lookup, memory, address -/
  lpmUe : List (Nat × Nat × Nat) := []
  slabErr : List (Nat × Nat) := []
deriving DecidableEq, Repr, Inhabited

/-- One poll of a cage: pin samples, the I2C outcome, and what CMIS memory reads (R104, R105, R109). -/
structure CageSample where
  present : Bool := false
  intLow : Bool := false
  nack : Bool := false
  moduleReady : Bool := false
  identCmis : Bool := true
  cmisRev : Nat := 40
  power : Nat := 0
  apps : List Nat := []
  flags : List Byte := []
deriving DecidableEq, Repr, Inhabited

/-- A hello's payload (R306). -/
structure Hello where
  version : Nat := 1
  payloadLen : Nat := 46
  fabricId : Nat := 255
  leaving : Bool := false
  quarantining : Bool := false
  serial : Nat := 0
  imageSeq : Nat := 0
  port : Nat := 0
  role : Nat := 0
  holdMult : Nat := 0
  interval : Nat := 0
  seenSerial : Nat := 0
  seenPort : Nat := 0
  seenId : Nat := 0
deriving DecidableEq, Repr, Inhabited

/-- A management frame (R313); `tagOk`: its TAG is the AES-CMAC under the fabric key. -/
structure Mgmt where
  type : Nat := 0
  orig : Nat := 0
  target : Nat := 0
  origSerial : Nat := 0
  time : Time80 := {}
  body : List Byte := []
  tagOk : Bool := false
deriving DecidableEq, Repr, Inhabited

/-- A scope of the governor (R417). -/
inductive PwrScope where
  | pipe (g : Nat)
  | tile (t : Nat)
  | module
deriving DecidableEq, Repr, Inhabited

/-- An area of the non-volatile memory. -/
inductive NvmArea where
  | options (copyB : Bool)
  | firmware (slotB : Bool)
  | patch (copyB : Bool)
  | image (slotB : Bool)
  | imageKey
  | save (slot1 : Bool)
  | dramRecord (ch : Nat)
deriving DecidableEq, Repr, Inhabited

/-- What an area holds once written. The options are raw bytes; of the other areas the model holds what it knows of their bytes
(log 11), and a save slot or a record is written blank. -/
inductive NvmContent where
  | bytes (l : List Byte)
  | firmware (x : Option FwImage)
  | patch (x : Option PatchBlock)
  | image (x : Option Image)
  | key (x : Option (Option Nat))
  | blank
deriving DecidableEq, Repr, Inhabited

/-- A service-UART command (R81). -/
inductive UartCmd where
  | status
  | recovery
  | regRead (off : Nat)
  | regWrite (off : Nat) (val : Word)
  | nvmRead (area : NvmArea)
  | nvmWrite (area : NvmArea) (content : NvmContent)
deriving DecidableEq, Repr, Inhabited

/-- A host access to a BAR: PASID where it carries one, BAR number, offset, byte enables and data (R365, R438, R440). -/
structure Access where
  pasid : Option Nat := none
  bar : Nat := 0
  off : Nat := 0
  be : Nat := 15
  val : Word := 0
deriving DecidableEq, Repr, Inhabited

/-- The commands: one constructor per row of spec/opcode_table.json, in its order. -/
inductive Instr where
  | mainsLost
  | mainsReturn
  | converterStop
  | converterFault
  | supplyGood
  | plateColdHoldEnd
  | sagThresholdCrossing
  | sagShedTick
  | saveStart
  | saveWritten
  | busBelow250v
  | busAtReturnThreshold
  | modResetNAssert
  | modResetNRelease
  | perstNAssert
  | functionLevelReset
  | watchdogExpiry
  | optionsCommitted
  | firmwareRunning
  | patchesDone
  /-- channels that failed training (R84) and (channel, rank) pairs that failed the march (R276) -/
  | dramReady (failed : List Nat) (march : List (Nat × Nat))
  /-- (pipeline, slab) pairs that failed the cold self-test (R186) -/
  | imageInTiles (failed : List (Nat × Nat))
  /-- tiles whose release failed (R86) -/
  | tilesReady (failed : List Nat)
  | calendarRunning
  /-- the unit ID (R400) of the island's unit -/
  | islandReleaseTimeout (unit : Nat)
  | tileRejoinDone (t : Nat)
  /-- the domain code of R73 -/
  | clockLoss (code : Nat)
  | clockRequalified
  | safePolicyTimeout
  | collectorResetTimeout
  /-- the plate reading, in 0.125 degrees C -/
  | thermShed (plate : Int)
  | thermUnshed (plate : Int)
  | pcsAlignmentHeld (port : Nat)
  /-- `los`: loss of signal, else loss of alignment -/
  | portDownDetect (port : Nat) (los : Bool)
  | portHoldExpiry (port : Nat)
  /-- codewords, corrected codewords, uncorrectable codewords and corrected symbols of the window -/
  | fecWindowEnd (port cw corr uncorr symbols : Nat)
  | cagePoll (cage : Nat) (x : CageSample)
  | cageReadyTimeout (cage : Nat)
  /-- `stuck`: SDA still low after the nine pulses -/
  | i2cSdaStuck (bus : Nat) (stuck : Bool)
  | timSet
  | timOffset
  | timAdjWrite (val : Word)
  | timNowCapture
  | slewEnd
  /-- the schedule: 0 the plait calendar, 1 + port a gate list, 513 + g a stream gate's list -/
  | scheduleRealign (sched : Nat)
  | ppsOutEdge
  | todLine
  | ppsInEdge
  | freqInPhase (ps : Word)
  | todRxByte (bytes : List Byte)
  | frameArrival (fid port : Nat) (f : RxFrame)
  /-- `present`: bytes of the frame in the landing buffer when step 4 begins -/
  | headerCellsPresent (fid present : Nat) (x : Findings)
  | frameTail (fid : Nat)
  | expressLaunch (fid : Nat)
  | expressArrival (src : LinkEnd) (dst : Nat)
  | cellSpread (fid : Nat)
  | cellArrival (src dst : Nat) (crcOk : Bool)
  | spillWriteDone (w : SpillWrite)
  | noticeReceive (src dst : Nat) (crcOk : Bool)
  | pullReceive (src dst : Nat) (crcOk : Bool)
  | returnSend (tile dst : Nat)
  | returnArrival (src dst : Nat) (crcOk : Bool)
  | reseqTimeout (tile src leaf ssn pos : Nat)
  | reassemblyComplete (tile src leaf ssn pos : Nat)
  | frameTxStart (port : Nat)
  | frameTxEnd (port : Nat)
  | evictReqReceive (src dst : Nat) (crcOk : Bool)
  | evictReceive (src dst : Nat) (crcOk : Bool)
  | evictNackReceive (src dst : Nat) (crcOk : Bool)
  | pushoutTimeout (fid : Nat)
  | evictionFilterExpiry (tile : Nat)
  | portIdleSend (tile : Nat)
  | portIdleReceive (src dst : Nat) (crcOk : Bool)
  | linkDeclaredFailed (rx tx : Nat)
  | fenceReceive (tile f : Nat)
  | bankSwap
  | imgCommitSwap
  | gateEntryChange (port : Nat)
  | gateSwitch (port : Nat)
  | streamGateEntryChange (g : Nat)
  | streamGateSwitch (g : Nat)
  | frerReset (stream : Nat)
  | depthSample (tile : Nat)
  | raceWindowClose (tile table slice : Nat) (key : BitVec 128)
  | filterHoldExpiry (tile table slice : Nat) (key : BitVec 128)
  /-- `mem`: a trie memory 0-15, or 16 for the exact-match store -/
  | tableWordRepaired (tile mem addr : Nat)
  /-- the four readings of a tile, in 0.125 degrees C -/
  | junctionSample (tile : Nat) (temps : List Int)
  | throttleFall (tile : Nat)
  | slabGroupAwake (tile group : Nat)
  | slabSelfTestEnd (tile : Nat) (failed : List (Nat × Nat))
  | junctionThermTrip (tile : Nat)
  | plateThermTrip
  | thermHoldRelease
  /-- (island, margin in 0.1 %) of a tile: islands 0-7 pipelines, 8-9 engines, 10 plait endpoint -/
  | paceMonitorSample (tile : Nat) (margins : List (Nat × Int))
  | avsLoop (tile : Nat)
  | paceLow (tile island : Nat)
  | paceMargin (tile : Nat)
  /-- `busy`: the migrator or an engine of the tile has a request queued for the rank -/
  | refreshDue (ch rank : Nat) (busy : Bool)
  | refreshDebtPayment (ch : Nat)
  | dramReadDone (tile idx : Nat) (x : EccFinding)
  | retirementRecordWritten (ch : Nat)
  | migrationLastRow (r : RowsCopied)
  | remapCommit (ch : Nat)
  | rngReseed
  | migrationAbandon (ch : Nat)
  | helloTimer (port : Nat)
  | helloReceive (port : Nat) (h : Hello)
  | holdTimeExpiry (port : Nat)
  | managementFrameReceive (port : Nat) (m : Mgmt)
  | failAdvRepeat
  | repairStable (port : Nat)
  | revertTime
  | leaveLeadExpiry
  /-- a frame on the management port; `m` where it is a management frame -/
  | mgmtPortFrameRx (bytes : List Byte) (m : Option Mgmt)
  | faultReport (unit code info : Nat) (addr : Nat)
  | engineFenceTimeout (e : Nat)
  /-- `next`: ns to the scope's next known event -/
  | governorEvaluate (scope : PwrScope) (next : Nat)
  | governorWake (scope : PwrScope)
  /-- the unit IDs (R400) of islands that failed the handshake -/
  | islandWakeDone (scope : PwrScope) (failed : List Nat)
  | dormantEntry (val : Word)
  | dormantWake (val : Word)
  | dormantWindowEnd
  | governorDisable
  | dumpPeriod (set : Nat)
  /-- `skid`: instructions that ended after the one running when the count expired; 3 or more is too late -/
  | engineSample (e skid : Nat)
  | timerExpiry (req timer : Nat)
  | ringDoorbell (req ring idx : Nat)
  /-- entries fetched from RING_IDX onwards as the host held them, and the microwords the engine runs on the first -/
  | descriptorFetchDone (req ring : Nat) (entries : List (List Word)) (micro : Nat)
  | phaseRecheck (req ring : Nat) (entry : List Word)
  | ringEnable (req ring : Nat)
  | ringDisable (req ring : Nat)
  | msixHoldoffEnd (req ring : Nat)
  /-- the ring whose read failed; `ringMem`: a read of ring memory (R374), else of a command's HADDR -/
  | hostReadTimeout (req ring : Nat) (ringMem : Bool)
  | packetTxTake (c : Cmd)
  | sliceResetDone (slice : Nat)
  | secLockClaim (id : Nat)
  | secMessageEnd
  | urgentRequest (level : Nat)
  /-- the cause bit 0 GLITCH, 1 TEMP, 2 SHIELD, 3 AUTH_RUN -/
  | secAlarm (cause : Nat)
  /-- the cause bits written 1 and those whose condition persists -/
  | secCauseClear (mask persists : Nat)
  | uartFwHeader (slotB : Bool) (length : Nat)
  /-- a block; `fw`: what the whole area holds, as the ROM verifies it after the last block -/
  | uartFwBlock (crcOk : Bool) (fw : FwImage)
  | swResetCold (key : Nat)
  | swResetWarm (key : Nat)
  | swResetTile (key tile : Nat)
  | swResetSlice (key slice : Nat)
  | swResetPort (key port : Nat)
  | swResetEngine (key e : Nat)
  | retryImage
  | tileGo (mask : Nat)
  | tcmBankSelWrite (tile : Nat) (val : Word)
  | fltPop
  | enterSafe (key : Nat)
  | fltUnitClear
  | rcFieldRead (off : Nat)
  | registerWrite (a : Access)
  | tblSrch (c : Cmd)
  | tblIns (c : Cmd)
  | tblDel (c : Cmd)
  | tblNext (c : Cmd)
  | tblFlushp (c : Cmd)
  /-- `raced`: the LAST_HIT of these (position × 4 + way) entries changed between the read and the check (R153) -/
  | tblAge (c : Cmd) (raced : List Nat)
  | tblCkpt (c : Cmd)
  | lpmIns (c : Cmd)
  | lpmDel (c : Cmd)
  | lpmSrch (c : Cmd)
  | lpmLkup (c : Cmd)
  | lpmNext (c : Cmd)
  | tcmWr (c : Cmd)
  | tcmVal (c : Cmd)
  | tcmAct (c : Cmd)
  | tcmRd (c : Cmd)
  | tcmBase (c : Cmd)
  | actNhWr (c : Cmd)
  | actNhRd (c : Cmd)
  | actGrpSet (c : Cmd)
  | actBkt (c : Cmd)
  | actBktRd (c : Cmd)
  | actMemAdd (c : Cmd)
  | actMemDel (c : Cmd)
  | actMirSet (c : Cmd)
  | schNode (c : Cmd)
  | schShape (c : Cmd)
  | schLeaf (c : Cmd)
  | schRd (c : Cmd)
  | schFrer (c : Cmd)
  | schFrerRd (c : Cmd)
  | polSet (c : Cmd)
  | polRd (c : Cmd)
  | gateWr (c : Cmd)
  | gateSgWr (c : Cmd)
  | gateCommit (c : Cmd)
  | gateSgCommit (c : Cmd)
  | gateRd (c : Cmd)
  | calTimer (c : Cmd)
  | calRd (c : Cmd)
  | cntFrz (c : Cmd)
  | cntRd (c : Cmd)
  | cntDump (c : Cmd)
  | cntPer (c : Cmd)
  | memRd (c : Cmd)
  | memWr (c : Cmd)
  | memAlloc (c : Cmd)
  | memFree (c : Cmd)
  | memMig (c : Cmd)
  | memMapClr (c : Cmd)
  | memSaveRd (c : Cmd)
  | portMode (c : Cmd)
  | portSaAdd (c : Cmd)
  | portSaDel (c : Cmd)
  | portSaTxAn (c : Cmd)
  /-- `optic`: the bytes the optic returned; `none` where it answered NACK four times (R110) -/
  | portCmisRd (c : Cmd) (optic : Option (List Byte))
  | portCmisWr (c : Cmd) (optic : Bool)
  | ringCrt (c : Cmd)
  | ringDst (c : Cmd)
  | ringBind (c : Cmd)
  | ringUnbind (c : Cmd)
  | slcRst (c : Cmd)
  | slcInfo (c : Cmd)
  | imgStage (c : Cmd) (img : Option Image)
  /-- `late`: module time passed T while the shadows were loaded (R325 check 6) -/
  | imgCommit (c : Cmd) (late : Bool)
  | imgCancel (c : Cmd)
  | imgDiscard (c : Cmd)
  | imgInfo (c : Cmd)
  /-- the serial the certificate binds (`none`: every serial) where the vendor signature verifies -/
  | imgKey (c : Cmd) (cert : Option (Option Nat))
  | secKeyLd (c : Cmd)
  | secKeyClr (c : Cmd)
  | secCmac (c : Cmd)
  | secCrypt (c : Cmd)
  | fabAdmit (c : Cmd)
  | fabEvict (c : Cmd)
  | fabRd (c : Cmd)
  | sysNop (c : Cmd)
  | sysFence (c : Cmd)
  | sysReset (c : Cmd)
  /-- `cut` counts 73 actions: the erase, the bytes 1 to 71 and byte 0 (R79) -/
  | sysOptWr (c : Cmd)
  | sysOptRd (c : Cmd)
  /-- what the area holds once written and read back; a write that is cut off leaves it without its first word (R83) -/
  | sysFwStage (c : Cmd) (fw : FwImage) (patch : PatchBlock)
  | pcsAlignmentAcquired (port : Nat)
  | shaperLeavesRed (level node : Nat)
  | gateLeadOpening (port cls : Nat)
  | mcLimiterRefill (tile : Nat)
  | dormantWindowStart
  | quietWindowStart (tile : Nat)
  | oscWarm
  | freqInOkChange (ok : Bool)
  | ppsOutFall
  | serviceUartCommand (u : UartCmd)
  | unmappedRead (a : Access)
  | bar4Write (a : Access)
  | pcieLinkChange (up : Bool) (speed width : Nat)
deriving DecidableEq, Repr

end Sys2Proof
end

