-- ==== Sys2Proof/Decode.lean ====
section
/-! DEFINITION. Decoding over the rows of the table that give bits. No row of spec/opcode_table.json gives any: the commands
reach the block as events, register accesses and descriptors, so no word spells one. -/
namespace Sys2Proof

/-- The command that a word spells by the table's bits: none of the rows gives bits. -/
def decodeTableWord (_nbits _w : Nat) : Option Instr := none

end Sys2Proof
end

