-- ==== Sys2Proof/Config.lean ====
section
/-! DEFINITION. What an implementation fixes and the free values: constants with no body, so no proof can see a value. -/
namespace Sys2Proof.Config

/-- Free values drawn by the step that reads and advances State.freeCtr: generator seeds and random draws (R268), and
values a rule leaves unstated (assumption log 9). -/
opaque freeValue : Nat → Nat

/-- The conventions of the seeded CRC-32C of R141 and R204: the seed enters the CRC register by this map (log 10). -/
opaque seedInit : BitVec 32 → BitVec 32
/-- The final inversion of the seeded CRC-32C (log 10). -/
opaque seedFinal : BitVec 32
/-- The 64 B tuple of R202 built from the selected field values; the layout is not given (log 10). -/
opaque tupleBytes : List Nat → List (BitVec 8)

/-- The AES block encryption of a key (128 or 256 bits as bytes) on a 16 B block (R387; log 11). -/
opaque aesEnc : List (BitVec 8) → List (BitVec 8) → List (BitVec 8)
/-- The AES block decryption (R387; log 11). -/
opaque aesDec : List (BitVec 8) → List (BitVec 8) → List (BitVec 8)
/-- The device key of R390, as bytes (log 11). -/
opaque deviceKey : List (BitVec 8)

/-- BOOT_DIGEST of R321: the low 32 bits of SHA-384 over the listed contents (log 11). -/
opaque bootDigest : List Nat → BitVec 32

/-- A port's own MAC address (R199, R306), which the spec names and does not give (log 12). -/
opaque portMac : Nat → BitVec 48

/-- The control-store ROM word at an address, fixed by the ROM revision (R355; log 14). -/
opaque romWord : Nat → BitVec 32
/-- Whether a space code is defined by the ROM revision (R353; log 14). -/
opaque microSpaceDefined : Nat → Bool

/-- Bytes of the save slot's 256 B status area, whose inner layout is not given (R62; log 16). -/
opaque saveStatusByte : Nat → List Nat → BitVec 8

/-- Bytes of a save slot that no rule gives: absent fault records, the area past the body, a slot that was cut off (log 16). The
arguments are the slot's sequence number and the offset. -/
opaque saveFill : Nat → Nat → BitVec 8

/-- Text of the service UART's status and recovery output, which no rule gives (R81; log 9). -/
opaque uartText : Nat → String

end Sys2Proof.Config
end

