-- ==== Sys2Proof/Machine/Bits.lean ====
section
/-! DEFINITION. Bit fields (R8), byte orders, serial-number arithmetic (R445), CRC-32C and signed fields. -/
namespace Sys2Proof.Machine

/-- Field [hi:lo] of a word. -/
def fld (w : Word) (hi lo : Nat) : Nat := (w.toNat >>> lo) % 2 ^ (hi + 1 - lo)

/-- Bit b of a word. -/
def bit (w : Word) (b : Nat) : Bool := w.toNat.testBit b

/-- A word with field [hi:lo] replaced by v. -/
def setFld (w : Word) (hi lo v : Nat) : Word :=
  BitVec.ofNat 32 (w.toNat - (fld w hi lo <<< lo) + ((v % 2 ^ (hi + 1 - lo)) <<< lo))

/-- A word with bit b replaced. -/
def setBit (w : Word) (b : Nat) (v : Bool) : Word := setFld w b b v.toNat

/-- A word from a number, modulo 2^32. -/
def word (n : Nat) : Word := BitVec.ofNat 32 n

/-- A word of fields (hi, lo, value). -/
def pack (l : List (Nat × Nat × Nat)) : Word := l.foldl (fun w f => setFld w f.1 f.2.1 f.2.2) 0

/-- The mask of bits [hi:lo]. -/
def maskOf (hi lo : Nat) : Nat := (2 ^ (hi + 1 - lo) - 1) <<< lo

/-- Two's complement value of the low n bits of a number. -/
def sext (n v : Nat) : Int :=
  let x := v % 2 ^ n
  if x < 2 ^ (n - 1) then (x : Int) else (x : Int) - (2 ^ n : Nat)

/-- An integer as n bits of two's complement. -/
def twos (n : Nat) (v : Int) : Nat := (v % (2 ^ n : Nat)).toNat

/-- n little-endian bytes of a number (R8). -/
def leBytes : Nat → Nat → List Byte
  | 0, _ => []
  | n + 1, v => BitVec.ofNat 8 v :: leBytes n (v / 256)

/-- The number that little-endian bytes spell. -/
def leNat : List Byte → Nat
  | [] => 0
  | b :: bs => b.toNat + 256 * leNat bs

/-- The number that network-order bytes spell. -/
def beNat (l : List Byte) : Nat := l.foldl (fun a b => a * 256 + b.toNat) 0

/-- n network-order bytes of a number. -/
def beBytes (n v : Nat) : List Byte := (leBytes n v).reverse

/-- The number that n network-order bytes of a list spell from a position on. -/
def beAt (bs : List Byte) (i n : Nat) : Nat := beNat ((bs.drop i).take n)

/-- Little-endian words of bytes; a short tail is padded with zeros. -/
def wordsOf : Nat → List Byte → List Word
  | 0, _ => []
  | n + 1, l => word (leNat (l.take 4)) :: wordsOf n (l.drop 4)

/-- Little-endian bytes of words. -/
def bytesOf (l : List Word) : List Byte := l.flatMap fun w => leBytes 4 w.toNat

/-- Bytes with the run at an offset replaced. -/
def patchBytes (l : List Byte) (off : Nat) (new : List Byte) : List Byte :=
  l.take off ++ new ++ l.drop (off + new.length)

/-- Exclusive or of two byte strings, to the length of the shorter. -/
def xorBytes (a b : List Byte) : List Byte := List.zipWith (· ^^^ ·) a b

/-- x is newer than y in serial-number arithmetic modulo 2^n (R445). -/
def newer (n x y : Nat) : Bool :=
  let d := (x + 2 ^ n - y % 2 ^ n) % 2 ^ n
  0 < d && d < 2 ^ (n - 1)

/-- One bit of the reflected CRC-32C. -/
def crcStep (c : BitVec 32) : BitVec 32 := if c.getLsbD 0 then (c >>> 1) ^^^ 0x82F63B78#32 else c >>> 1

/-- n bits of the reflected CRC-32C. -/
def crcSteps : Nat → BitVec 32 → BitVec 32
  | 0, c => c
  | n + 1, c => crcSteps n (crcStep c)

/-- CRC-32C of bytes continued from a register value (R353 CRC). -/
def crcFrom (c : BitVec 32) (l : List Byte) : BitVec 32 :=
  l.foldl (fun c b => crcSteps 8 (c ^^^ b.zeroExtend 32)) c

/-- One bit of the reflected CRC-32 of IEEE 802.3. -/
def fcsStep (c : BitVec 32) : BitVec 32 := if c.getLsbD 0 then (c >>> 1) ^^^ 0xEDB88320#32 else c >>> 1

/-- n bits of the reflected CRC-32. -/
def fcsSteps : Nat → BitVec 32 → BitVec 32
  | 0, c => c
  | n + 1, c => fcsSteps n (fcsStep c)

/-- The four FCS octets of a frame (IEEE 802.3). -/
def fcsOf (l : List Byte) : List Byte :=
  leBytes 4 (~~~(l.foldl (fun c b => fcsSteps 8 (c ^^^ b.zeroExtend 32)) 0xFFFFFFFF#32)).toNat

/-- CRC-32C of bytes, in the published form of the code (PRESUMED; log 10). -/
def crc32c (l : List Byte) : BitVec 32 := ~~~(crcFrom 0xFFFFFFFF#32 l)

/-- The seeded CRC-32C of R141 and R204: seed and final inversion are free (log 10). -/
def crcSeeded (seed : Word) (l : List Byte) : BitVec 32 := crcFrom (Config.seedInit seed) l ^^^ Config.seedFinal

/-- A value held between two limits; values outside act as the nearer limit. -/
def clamp (lo hi v : Nat) : Nat := max lo (min hi v)

/-- Saturating addition below 2^n. -/
def satAdd (n a b : Nat) : Nat := min (a + b) (2 ^ n - 1)

/-- Ceiling division. -/
def ceilDiv (a b : Nat) : Nat := (a + b - 1) / b

end Sys2Proof.Machine
end

