-- ==== Sys2Proof/Machine/Crypto.lean ====
section
/-! DEFINITION. The AES operations of the security engine (R387) over the opaque block cipher (log 11). -/
namespace Sys2Proof.Machine

/-- n blocks of 16 B. -/
def aesBlocks : Nat → List Byte → List (List Byte)
  | 0, _ => []
  | n + 1, l => l.take 16 :: aesBlocks n (l.drop 16)

def cbcEnc (k : List Byte) : List Byte → List (List Byte) → List Byte
  | _, [] => []
  | v, b :: bs => let c := Config.aesEnc k (xorBytes b v); c ++ cbcEnc k c bs

def cbcDec (k : List Byte) : List Byte → List (List Byte) → List Byte
  | _, [] => []
  | v, b :: bs => xorBytes (Config.aesDec k b) v ++ cbcDec k b bs

/-- CTR: the IV is the first counter block, taken as a number in network order that wraps at 2^128 (PRESUMED; log 11). -/
def ctrMode (k : List Byte) : Nat → List (List Byte) → List Byte
  | _, [] => []
  | n, b :: bs => xorBytes b (Config.aesEnc k (beBytes 16 n)) ++ ctrMode k ((n + 1) % 2 ^ 128) bs

def cfbEnc (k : List Byte) : List Byte → List (List Byte) → List Byte
  | _, [] => []
  | v, b :: bs => let c := xorBytes b (Config.aesEnc k v); c ++ cfbEnc k c bs

def cfbDec (k : List Byte) : List Byte → List (List Byte) → List Byte
  | _, [] => []
  | v, b :: bs => xorBytes b (Config.aesEnc k v) ++ cfbDec k b bs

/-- A mode of SEC.CRYPT: 0 CBC, 1 CTR, 2 CFB-128. -/
def aesCrypt (mode : Nat) (dec : Bool) (k iv l : List Byte) : List Byte :=
  let bs := aesBlocks (l.length / 16) l
  match mode, dec with
  | 0, false => cbcEnc k iv bs
  | 0, true => cbcDec k iv bs
  | 1, _ => ctrMode k (beNat iv) bs
  | _, false => cfbEnc k iv bs
  | _, true => cfbDec k iv bs

/-- Doubling in GF(2^128) on a block (SP 800-38B). -/
def gfDouble (b : List Byte) : List Byte :=
  let n := beNat b * 2
  beBytes 16 (Nat.xor (n % 2 ^ 128) (if 2 ^ 128 ≤ n then 0x87 else 0))

/-- The last block of a CMAC with its subkey. -/
def cmacLast (k1 b : List Byte) : List Byte :=
  if b.length = 16 then xorBytes b k1 else xorBytes (b ++ 0x80 :: List.replicate (15 - b.length) 0) (gfDouble k1)

/-- AES-CMAC with a 128-bit tag. -/
def aesCmac (k l : List Byte) : List Byte :=
  let k1 := gfDouble (Config.aesEnc k (List.replicate 16 0))
  let n := max 1 (ceilDiv l.length 16)
  let v := (aesBlocks (n - 1) l).foldl (fun v b => Config.aesEnc k (xorBytes b v)) (List.replicate 16 0)
  Config.aesEnc k (xorBytes (cmacLast k1 (l.drop (16 * (n - 1)))) v)

/-- One step of the unwrap, on the integrity value and the semiblocks. -/
def unwrapStep (k : List Byte) (n : Nat) (x : List Byte × List (List Byte)) (t : Nat) : List Byte × List (List Byte) :=
  let i := (t - 1) % n
  let b := Config.aesDec k (xorBytes x.1 (beBytes 8 t) ++ x.2.getD i [])
  (b.take 8, x.2.set i (b.drop 8))

/-- Key unwrap of RFC 3394 with the default IV; `none` where its check fails. -/
def aesUnwrap (k c : List Byte) : Option (List Byte) :=
  let n := c.length / 8 - 1
  let r := (List.range n).map fun i => (c.drop (8 * (i + 1))).take 8
  let x := ((List.range (6 * n)).map fun j => 6 * n - j).foldl (unwrapStep k n) (c.take 8, r)
  if x.1 = List.replicate 8 0xA6 then some x.2.flatten else none

end Sys2Proof.Machine
end

