-- ==== Sys2Proof/Machine/State.lean ====
section
/-! DEFINITION. The state of the block: plain data, one record per unit of the spec, and the state after reset. -/
namespace Sys2Proof.Machine

/-- The block has no behaviour that stops it on a fault: every fault of R404 is a record and an action of the collector.
No command raises a fault, so the type has no constructor (safe: nothing is claimed of it). -/
inductive Fault where
deriving DecidableEq, Repr

/-- Reasons for a refusal. -/
inductive Refusal where
  /-- An arm of exec that has no meaning yet raises it, with the row's mnemonic; safe, as nothing can be proved of the row. -/
  | notModelled (mnemonic : String)
deriving DecidableEq, Repr

/-! ## Power and reset -/

/-- A reset request that waits: its cause bit in PLT_RST_CAUSE (R66) and whether its scope is cold. -/
structure ResetReq where
  cause : Nat := 0
  cold : Bool := false
deriving DecidableEq, Repr, Inhabited

/-- What follows the leave lead of R318. -/
inductive Lead where
  | reset (cold : Bool)
  | dormant
deriving DecidableEq, Repr, Inhabited

/-- The power side (02_module_power.md) and the reset controller's holds (R39, R61, R66, R416). -/
structure Power where
  powered : Bool := true
  convRunning : Bool := true
  /-- step of the sag sequence, 0 when none runs (R59) -/
  sagStep : Nat := 0
  sagTime : Time80 := {}
  mainsReturned : Bool := false
  sagShed : List Nat := []
  thermShed : List Nat := []
  /-- lane groups that host software enabled while they were shed (R41) -/
  shedEnabled : List Nat := []
  appliedBand : Nat := 0
  earlyHold : Bool := false
  pinHold : Bool := false
  thermHold : Bool := false
  /-- resets that arrived during the sag sequence (R60) -/
  waiting : List ResetReq := []
  lead : Option Lead := none
  /-- free-running count at the end of the latest start-up step (R88) -/
  stepAt : Nat := 0
  /-- a firmware upload on the service UART: slot B, length, bytes taken (R83) -/
  uart : Option (Bool × Nat × Nat) := none
deriving DecidableEq, Repr, Inhabited

/-! ## NVM -/

/-- A fault record of eight words (R401). -/
structure FaultRec where
  unit : Nat := 0
  code : Nat := 0
  cls : Nat := 0
  fenced : Bool := false
  escalated : Bool := false
  tile : Nat := 0
  platform : Bool := true
  seq : Nat := 0
  time : Time80 := {}
  info : Nat := 0
  addr : Nat := 0
deriving DecidableEq, Repr, Inhabited

/-- A learn-journal entry (R163). -/
structure JEntry where
  seq : Nat := 0
  time : Time80 := {}
  op : Nat := 0
  table : Nat := 0
  slice : Nat := 0
  static : Bool := false
  ageExempt : Bool := false
  result : Word := 0
  key : BitVec 128 := 0
deriving DecidableEq, Repr, Inhabited

/-- A save slot (R62). One that is not empty and not committed is a save that was cut off. -/
structure SaveSlot where
  empty : Bool := true
  committed : Bool := false
  crcOk : Bool := false
  seq : Word := 0
  time : Time80 := {}
  imageSeq : BitVec 64 := 0
  trunc : Bool := false
  mainsReturned : Bool := false
  faults : List FaultRec := []
  status : List Nat := []
  counters : Tab (BitVec 64) := []
  journal : List JEntry := []
deriving DecidableEq, Repr, Inhabited

/-- A DRAM channel's retirement record (R275): physical rank of each logical rank (15 none) and retired ranks. -/
structure DramRec where
  remap : List Nat := [0, 1, 2, 3, 4, 5, 6, 7]
  retired : List Nat := []
  /-- MEM.MAP_CLR clears the record at the next cold reset -/
  clearNext : Bool := false
deriving DecidableEq, Repr, Inhabited

/-- The non-volatile memory. Option copies are 72 raw bytes (R76). -/
structure Nvm where
  optA : List Byte := List.replicate 72 0xFF
  optB : List Byte := List.replicate 72 0xFF
  fwA : Option FwImage := none
  fwB : Option FwImage := none
  patA : Option PatchBlock := none
  patB : Option PatchBlock := none
  patHighest : Nat := 0
  imgKey : Option (Option Nat) := none
  slotA : Option Image := none
  slotB : Option Image := none
  save0 : SaveSlot := {}
  save1 : SaveSlot := {}
  dram : Tab DramRec := []
deriving DecidableEq, Repr, Inhabited

/-- The options in use and what the last load picked (R77, R79): 0 copy A, 1 copy B, `none` the safe default. -/
structure Options where
  bytes : List Byte := [0x01, 0, 0x14, 0, 0, 0, 255, 2, 0, 0]
  picked : Option Nat := none
deriving DecidableEq, Repr, Inhabited

/-! ## Time -/

/-- The time base (R111 to R116) beyond its registers. -/
structure TimeBase where
  now : Time80 := {}
  frc : Nat := 0
  /-- fraction of a nanosecond of module time, in units of 2^-40 × 10^-4 ns -/
  acc : Int := 0
  /-- slew still to run, in units of 10^-4 ns -/
  slewLeft : Int := 0
  realign : List Nat := []
  /-- what the calendar's phase adds to module time while it waits to realign (R114) -/
  calShift : Nat := 0
  /-- the instant to which time last stepped, which a named time that it passed takes for its own (R114) -/
  stepTo : Nat := 0
  /-- nanoseconds since FREQ_OUT rose, 50 or more while it is low (R115) -/
  freqAge : Nat := 50
  ppsHigh : Bool := false
  /-- time has stepped since the latest PPS_OUT edge -/
  ppsStep : Bool := false
  /-- free-running count at the latest PPS_OUT edge -/
  lastPps : Option Nat := none
  /-- second that the latest PPS_OUT edge marked -/
  ppsSec : Nat := 0
  todStepped : Bool := false
  todBacklog : List Byte := []
deriving DecidableEq, Repr, Inhabited

/-- A CAL.TIMER of a requester (R346). -/
structure Timer where
  on : Bool := false
  at_ : Time80 := {}
  tag : Word := 0
deriving DecidableEq, Repr, Inhabited

/-! ## Images -/

/-- A calendar bank (R234): slot words keyed by (tile × 9 + calendar) × 15,625 + slot, and the tier of each class. -/
structure CalBank where
  slots : Tab Word := []
  tiers : Tab Nat := []
deriving DecidableEq, Repr, Inhabited

/-- The image side (R85, R323, R325): running image, shadow of a pending commit, its instant. -/
structure ImgState where
  run : Option Image := none
  shadow : Option Image := none
  commitAt : Time80 := {}
  /-- the calendar swapped at BANK_SWAP before IMG_COMMIT_SWAP takes the rest -/
  calSwapped : Bool := false
  /-- the calendar bank that is not in use (R234) -/
  other : CalBank := {}
deriving DecidableEq, Repr, Inhabited

/-! ## Ports and cages -/

/-- A MACsec secure association (R99, R101, R102). -/
structure Sa where
  xpn : Bool := false
  pn : Nat := 0
  key : List Byte := []
  salt : List Byte := []
  ssci : Word := 0
  noticed : Bool := false
deriving DecidableEq, Repr, Inhabited

/-- A MACsec secure channel: its SCI, and a receive channel's replay window (R99). -/
structure SecChan where
  sci : BitVec 64 := 0
  window : Nat := 0
deriving DecidableEq, Repr, Inhabited

/-- What a frame carries to its destination besides its bytes: metadata for a host port (R383), the offset of its outermost IP or
MPLS header for a next hop's template (R199). -/
structure Carry where
  md : BitVec 256 := 0
  ipOff : Option Nat := none
  /-- free-running count at ingress, for residence (R118) -/
  frcIn : Nat := 0
  /-- free-running count at step 5, of which ENQ_TIME holds the low 32 bits (R217, R301) -/
  frcEnq : Nat := 0
  /-- where a PTP header starts, in bytes before the frame's FCS, and the UDP under it: 4 or 6 for its IP version, 0 for none -/
  ptp : Option (Nat × Nat) := none
deriving DecidableEq, Repr, Inhabited

/-- A cell in flight or held: its header, its extension when first (R217, R218), and its data. `fid` names its frame in the
model. -/
structure Cell where
  fid : Nat := 0
  src : Nat := 0
  leaf : Nat := 0
  ssn : Nat := 0
  pos : Nat := 0
  pattern : Nat := 8
  first : Bool := false
  last : Bool := false
  parity : Bool := false
  pstripe : Bool := false
  holder : Bool := false
  cls : Nat := 0
  enq : Nat := 0
  data : List Byte := []
  ts : Time80 := {}
  port : Nat := 0
  frameLen : Nat := 0
  colour : Nat := 0
  oneStep : Bool := false
  tc : Bool := false
  mc : Bool := false
  mcGroup : Nat := 0
  /-- exclusive or of BYTES over the stripe, in a parity cell (R218) -/
  bytesX : Nat := 0
  /-- the CRC dealt with it, which the store keeps (R217, R263) -/
  crc : Word := 0
  carry : Carry := {}
deriving DecidableEq, Repr, Inhabited

/-- A NOTICE, and what the destination keeps of it (R219, R282). `inPort`, `txReq` and `ts` belong to the frame and travel
with its first cell. -/
structure Notice where
  fid : Nat := 0
  src : Nat := 0
  leaf : Nat := 0
  ssn : Nat := 0
  pos : Nat := 0
  cells : Nat := 0
  pattern : Nat := 8
  enq : Nat := 0
  pulled : Bool := false
  pstripe : Bool := false
  /-- its leaf was passed over for want of a buffer (R251) -/
  waited : Bool := false
deriving DecidableEq, Repr, Inhabited

/-- What a class slot of a port holds (R285): a frame being pulled or ready, a parked express frame, or a multicast copy. -/
structure Slot where
  fid : Nat := 0
  src : Nat := 0
  leaf : Nat := 0
  handle : Nat := 0
  len : Nat := 0
  enq : Nat := 0
  ts : Time80 := {}
  ready : Bool := false
  express : Bool := false
  copy : Bool := false
  nh : Nat := 0
  oneStep : Bool := false
  tc : Bool := false
  data : List Byte := []
  mcg : Nat := 0
  carry : Carry := {}
  /-- an express frame that lies in a reassembly buffer (R221) -/
  parked : Bool := false
  /-- a multicast copy that waited through its port's hold (R258) -/
  held : Bool := false
  /-- transmit AN of the association it started under (R101) -/
  txAn : Nat := 0
  /-- GATE_WAITS has counted it -/
  waited : Bool := false
  /-- module time and free-running count at its first egress bit -/
  outTs : Time80 := {}
  outFrc : Nat := 0
deriving DecidableEq, Repr, Inhabited

/-- A port (Ethernet 0-511, host 512-527). -/
structure Port where
  up : Bool := false
  signal : Bool := false
  aligned : Bool := false
  /-- alignment has held for 10 ms (R93) -/
  alignHeld : Bool := false
  fenced : Bool := false
  /-- held by reset, mode change or safe state until the cause ends (R94) -/
  heldDown : Bool := false
  remoteFault : Bool := false
  /-- a BUF_PORT_HOLD runs (R257) -/
  hold : Bool := false
  /-- the hold ended with the port down (R258) -/
  holdDone : Bool := false
  /-- free-running count at the latest PORT_FEC_DEGRADED notice -/
  fecNotice : Option Nat := none
  slots : Tab (Option Slot) := []
  /-- parked express frames that wait for their turn (R221) -/
  parked : List Slot := []
  tx : Option Slot := none
  /-- an express frame has reserved the transmitter (R20) -/
  reserved : Bool := false
  /-- replication queues: (class, copy) in order (R206) -/
  rq : List (Nat × Slot) := []
  rqDeficit : Tab Int := []
  txAn : Nat := 0
deriving DecidableEq, Repr, Inhabited

/-- A lane group: mode and FEC of R89. -/
structure LaneGroup where
  mode : Nat := 15
  fec : Nat := 0
deriving DecidableEq, Repr, Inhabited

/-- A cage (R104 to R108); `state` is PRT_LG_MODE.CAGE. -/
structure Cage where
  present : Bool := false
  lastSample : Bool := false
  rstLow : Bool := true
  lpmode : Bool := true
  state : Nat := 0
  power : Nat := 0
  apps : List Nat := []
  identCmis : Bool := false
  cmisRev : Nat := 0
deriving DecidableEq, Repr, Inhabited

/-- A cage I2C bus (R110). -/
structure I2c where
  sdaLow : Bool := false
  stopped : Bool := false
deriving DecidableEq, Repr, Inhabited

/-! ## Forwarding tables -/

/-- A learn-filter entry (R156 to R158). -/
structure Learn where
  tile : Nat := 0
  table : Nat := 0
  slice : Nat := 0
  key : BitVec 128 := 0
  owner : Nat := 0
  posted : Bool := false
  kind : Nat := 0
  firstTs : Time80 := {}
  portA : Nat := 0
  tsA : Time80 := {}
  portB : Nat := 0x3FF
  tsB : Time80 := {}
  ports : List Nat := []
  seen : Nat := 1
  stored : Option Word := none
deriving DecidableEq, Repr, Inhabited

/-- Exact match and learning (06_exact_match.md). Entries are keyed by position × 4 + way (R149); replicas differ only in
LAST_HIT, which each entry keeps per tile (log 7). -/
structure Exm where
  entries : Tab ExmEntry := []
  /-- bucket headers: OVF_CNT in bits [12:0] (R141) -/
  headers : Tab (BitVec 16) := []
  /-- LAST_HIT writes on their way to a tile's replica: tile, entry, tick (R153) -/
  late : List (Nat × Nat × Nat) := []
  gen : Tab Nat := []
  learn : List Learn := []
  journal : List JEntry := []
  jSeq : Nat := 0
  jTrunc : Bool := false
deriving DecidableEq, Repr, Inhabited

/-- Storage of a trie memory: consecutive addresses (R172). -/
structure Blk where
  mem : Nat := 0
  base : Nat := 0
  size : Nat := 0
deriving DecidableEq, Repr, Inhabited

/-- The trie memories, alike in every tile (R165 to R168): default results per root, direct slots keyed by root × 65,536 + index,
nodes keyed by memory × 2^24 + address, result words, storage in use, and storage given back with the instant of the flip. -/
structure Trie where
  dflt : Tab (Option Nat) := []
  direct : Tab (BitVec 64) := []
  nodes : Tab (BitVec 832) := []
  results : Tab (BitVec 32) := []
  used : List Blk := []
  freed : List (Blk × Nat) := []
deriving DecidableEq, Repr, Inhabited

/-- Rule slabs of all pipelines (07_trie_slabs.md), rows keyed by (pipeline × 8 + slab) × 2,048 + row. -/
structure Tcm where
  rows : Tab TcmRow := []
  fenced : List Nat := []
  /-- groups still waking, tile × 4 + group (R183) -/
  waking : List Nat := []
  /-- MODE and GROUPS in force before a self-test (R185) -/
  saved : Tab (Option Word) := []
deriving DecidableEq, Repr, Inhabited

/-- Tables of the action stage (08_actions.md). -/
structure Act where
  nextHops : Tab (BitVec 128) := []
  groups : Tab GroupHdr := []
  buckets : Tab (Nat × Nat) := []
  mcast : Tab McGroup := []
  mirrors : Tab MirSess := []
  sprinkle : Tab Nat := []
deriving DecidableEq, Repr, Inhabited

/-! ## Frames in the source tile -/

/-- Where a frame stands in its source tile (R18, R247). -/
inductive Phase where
  | arrived
  /-- waiting for push-out: attempts made, the victim leaf tried last and its class (R247) -/
  | pushout (attempts leaf cls : Nat)
  /-- taken into the store behind a frame of its leaf that waits for push-out (R20; log 108) -/
  | admitted
  | express
  /-- an express frame whose words have left (R222) -/
  | launched
  | stored
  /-- discarded before its tail: only counted when the tail comes -/
  | dropped
deriving DecidableEq, Repr, Inhabited

/-- Cells still to deal for one destination of a stored frame (R23, R214). -/
structure Deal where
  dst : Nat := 0
  leaf : Nat := 0
  cells : List Cell := []
deriving DecidableEq, Repr, Inhabited

/-- A frame in its source tile. -/
structure Frame where
  fid : Nat := 0
  port : Nat := 0
  tile : Nat := 0
  pipe : Nat := 0
  /-- as received, FCS included -/
  bytes : List Byte := []
  fcsGood : Bool := true
  icvGood : Bool := true
  /-- received under a secure association (R136 MACSEC) -/
  secured : Bool := false
  strict : Bool := false
  injected : Bool := false
  ts : Time80 := {}
  landing : Nat := 0
  tailSeen : Bool := false
  phase : Phase := .arrived
  /-- PARSE_END, for the tail check of R128 -/
  parseEnd : Nat := 0
  /-- bytes present when step 4 began -/
  present : Nat := 0
  /-- a code error lies in it (R98) -/
  codeErr : Bool := false
  enq : Nat := 0
  dst : Nat := 0
  leaf : Nat := 0
  cls : Nat := 0
  egress : Nat := 1023
  colour : Nat := 0
  oneStep : Bool := false
  tc : Bool := false
  /-- the multicast group, for a multicast frame -/
  mcg : Option Nat := none
  /-- without FCS, as edited -/
  edited : List Byte := []
  deals : List Deal := []
  carry : Carry := {}
deriving DecidableEq, Repr, Inhabited

/-! ## Plait, store, pools -/

/-- What travels on a directed link (R217, R219). -/
inductive Msg where
  | spread (c : Cell)
  | ret (c : Cell)
  | null (c : Cell) (poison : Bool)
  | express (sl : Slot) (port : Nat) (words : Nat)
  | notice (n : Notice)
  | pull (src leaf ssn posFirst posLast pattern : Nat)
  | evict (n : Notice)
  | evictReq (leaf cls : Nat)
  | evictNack (leaf : Nat)
  | portIdle (bits : Nat)
deriving DecidableEq, Repr, Inhabited

/-- A message or cell in flight from tile `src` to tile `dst`, with its CRC; the link from a tile to itself is its own store. -/
structure Wire where
  src : Nat := 0
  dst : Nat := 0
  msg : Msg := .portIdle 0
  crc : Word := 0
deriving DecidableEq, Repr, Inhabited

/-- What a link has carried of a slot kind in its latest slot (R211): words and cell headers, and words of a cell that continue in
the next slot of the kind. `slot` counts slots from module time 0. -/
structure LinkUse where
  slot : Nat := 0
  words : Nat := 0
  heads : Nat := 0
  carried : Nat := 0
deriving DecidableEq, Repr, Inhabited

/-- Where a held cell lies (R239, R266): placed in DRAM it waits in SRAM, in the write buffer, then in its channel's queue. -/
inductive Place where
  | sram
  | waiting (idx : Nat)
  | buffered (idx : Nat)
  /-- spill write issued, not complete -/
  | spilling (idx : Nat)
  | dram (idx : Nat)
  /-- a read for a PULL is issued, not complete (R264) -/
  | reading (idx : Nat)
  /-- read out of DRAM for a PULL (R239) -/
  | read (idx : Nat)
deriving DecidableEq, Repr, Inhabited

/-- The cell index in DRAM that a place takes. -/
def Place.idx : Place → Option Nat
  | .sram => none
  | .waiting i => some i
  | .buffered i => some i
  | .spilling i => some i
  | .dram i => some i
  | .reading i => some i
  | .read i => some i

/-- A cell held by an intermediate; `pulled`: a RETURN is owed to the destination; `poison`: read as poison, or its write was lost
(R269). -/
structure Held where
  tile : Nat := 0
  cell : Cell := {}
  place : Place := .sram
  slice : Nat := 0
  pulled : Bool := false
  poison : Bool := false
deriving DecidableEq, Repr, Inhabited

/-- A pulled position that the intermediate answers with a NULL. -/
structure NullDue where
  tile : Nat := 0
  dst : Nat := 0
  cell : Cell := {}
deriving DecidableEq, Repr, Inhabited

/-- A frame being pulled and reassembled at its destination (R223, R224). -/
structure Asm where
  tile : Nat := 0
  note : Notice := {}
  port : Nat := 0
  cls : Nat := 0
  handle : Nat := 0
  /-- positions pulled and not yet answered: (ssn, pos) -/
  owed : List (Nat × Nat) := []
  /-- positions not yet pulled: (ssn, pos) -/
  todo : List (Nat × Nat) := []
  got : List Cell := []
  missing : List (Nat × Nat) := []
  /-- drop on completion: the port went down after the PULL (R258), or a stripe was lost (R226) -/
  drop : Bool := false
  lost : Bool := false
  frameLen : Option Nat := none
  corrected : Bool := false
deriving DecidableEq, Repr, Inhabited

/-- Stripe state of a (source, leaf) (R214). -/
structure Stripe where
  ssn : Nat := 0
  pos : Nat := 0
deriving DecidableEq, Repr, Inhabited

/-- An entry of an eviction filter (R229). -/
structure EvFilter where
  tile : Nat := 0
  note : Notice := {}
deriving DecidableEq, Repr, Inhabited

/-- A reassembly buffer (R253). -/
structure Buf where
  alloc : Bool := false
  count : Nat := 0
  tag : Nat := 0
deriving DecidableEq, Repr, Inhabited

/-- The fabric: links, stripes, stores, reassembly (09_plait.md, 10_store.md). -/
structure Fabric where
  wires : List Wire := []
  stripes : Tab Stripe := []
  held : List Held := []
  nulls : List NullDue := []
  notices : List Notice := []
  asms : List Asm := []
  filters : List EvFilter := []
  /-- latest PORT_IDLE bits, keyed by receiver × 8 + sender -/
  idle : Tab Nat := []
  /-- CRC failure instants of a link, keyed by receiver × 8 + sender (R227) -/
  crcFails : Tab (List Nat) := []
  bufs : Tab Buf := []
  /-- refusal instants by client tag (R255) -/
  refusals : Tab (List Nat) := []
  /-- next free DRAM index per tile -/
  dramNext : Tab Nat := []
  /-- reads of the pull readers, in the order asked for: tile and cell index (R264, R265) -/
  reads : List (Nat × Nat) := []
  /-- what the MC_RATE limiter of a tile has given out and not refilled, of its 65,536 B: bits, and the free-running count at
  which they stood (R292) -/
  mcSpent : Tab (Nat × Nat) := []
  /-- links by slot kind, keyed by (source × 8 + destination) × 4 + kind -/
  links : Tab LinkUse := []
  /-- one more than the slot in which a link delivered its latest control message, keyed by source × 8 + destination (R211) -/
  ctlSlot : Tab Nat := []
  /-- frames to a tile that is out that are counted DROP_FENCED_DEST: frame and leaf (R259) -/
  flushed : List (Nat × Nat) := []
deriving DecidableEq, Repr, Inhabited

/-! ## DRAM, scheduling -/

/-- A DRAM channel (11_dram.md). -/
structure Channel where
  /-- the remap table in force: physical rank of each logical rank, 15 none -/
  remap : List Nat := [0, 1, 2, 3, 4, 5, 6, 7]
  /-- physical ranks retired or retiring (RANK_OUT) -/
  out : List Nat := []
  trainFail : Bool := false
  migState : Nat := 0
  migLrank : Nat := 0
  migPos : Nat := 0
  gen : Nat := 0
  debt : Tab Nat := []
  selfRefresh : Bool := false
  seed : Nat := 0
  ceSecond : Tab (Nat × Nat) := []
  ceNotice : Tab Nat := []
  /-- free-running count at which migPos stood, for an automatic migration (R272) -/
  migAt : Nat := 0
  /-- cell indices whose copy on the spare carries a poison mark (R270 step 4a) -/
  marks : List Nat := []
  /-- a remap waits for its drain (R270 step 5a) -/
  draining : Bool := false
  /-- the physical rank from which the cells of a logical rank without storage are read out (R270 step 3b) -/
  lost : Tab Nat := []
deriving DecidableEq, Repr, Inhabited

/-- A scheduler node's running state (R281, R287): settings, counts c and p in units of 2^-16 B, and the last non-negative value
of each. -/
structure Node where
  cfg : NodeCfg := {}
  c : Int := 0
  p : Int := 0
  cTop : Int := 0
  pTop : Int := 0
  at_ : Nat := 0
  deficit : Int := 0
deriving DecidableEq, Repr, Inhabited

/-- DEPTH and DELAY of a leaf (R301) and its express frame in flight (R20). -/
structure Leaf where
  depth : Nat := 0
  delay : Nat := 0
  express : Bool := false
deriving DecidableEq, Repr, Inhabited

/-- A policer replica's bucket counts in units of 2^-16 B (R289). -/
structure PolCount where
  b1 : Nat := 0
  b2 : Nat := 0
  at_ : Nat := 0
deriving DecidableEq, Repr, Inhabited

/-- A gate control: active and shadow list and a pending commit (R293, R294, R296). -/
structure Gate where
  active : GateList := {}
  shadow : GateList := {}
  listBit : Nat := 0
  entry : Nat := 0
  pending : Option GateList := none
  switchAt : Time80 := {}
  bind : Option (Nat × Nat) := none
  /-- the class held open for a frame that a time step would cut off, to the frame's end (R295) -/
  keep : Option Nat := none
deriving DecidableEq, Repr, Inhabited

/-- An 802.1CB stream's state (R299, R300). -/
structure Frer where
  cfg : FrerCfg := {}
  seq : Nat := 0
  takeAny : Bool := true
  hist : List Nat := []
deriving DecidableEq, Repr, Inhabited

/-- Queues, policers, gates, streams (12_scheduling.md). Nodes are keyed by level × 2^20 + number. -/
structure Sched where
  nodes : Tab Node := []
  leaves : Tab Leaf := []
  policers : Tab Policer := []
  polCounts : Tab PolCount := []
  gates : Tab Gate := []
  sgates : Tab Gate := []
  streams : Tab Frer := []
  sampleAt : Tab Nat := []
  /-- the child on which a band's pointer stands, keyed by parent × 8 + band (R283) -/
  ptrs : Tab Nat := []
deriving DecidableEq, Repr, Inhabited

/-! ## Corridor -/

/-- An adjacency (R308, R309): 1 DOWN, 2 INIT, 3 UP, 4 QUARANTINE. -/
structure Adj where
  state : Nat := 1
  admitted : Option Nat := none
  last : Option Hello := none
deriving DecidableEq, Repr, Inhabited

/-- The corridor fabric beyond its registers (13_corridor.md). -/
structure Corridor where
  adj : Tab Adj := []
  newest : Tab (Option Time80) := []
  seen : List (Nat × Time80) := []
  /-- management frames taken on a port in a second: (second, count) -/
  rate : Tab (Nat × Nat) := []
  /-- failure IDs this module originated and that are in force -/
  originated : List Nat := []
  revertId : Nat := 0
  revertAt : Option Time80 := none
  leaving : Bool := false
deriving DecidableEq, Repr, Inhabited

/-! ## Engines and rings -/

/-- A command engine (R352, R361). -/
structure Engine where
  running : Bool := false
  fenced : Bool := false
  inReset : Bool := true
  standin : Bool := false
  fault : Nat := 0
  upc : Nat := 0
  stopUpc : Nat := 0
  stopDepth : Nat := 0
  x : Tab Word := []
  eb : Tab Word := []
  stack : List Nat := []
  /-- microwords since the last instruction boundary (R354) -/
  count : Nat := 0
  /-- a fence request waits for a boundary (R360), or a reset request -/
  fenceReq : Bool := false
  resetReq : Bool := false
  /-- requester and ring of the command whose microcode runs, and the entry writes it has issued (R345) -/
  cmd : Option (Nat × Nat) := none
  writes : Nat := 0
  /-- w2 and w3 as that command's latest STEP wrote them back (R345) -/
  stepped : Option (Word × Word) := none
  /-- objects held by HOLD: kind and object (R341, R353) -/
  holds : List (Nat × Word) := []
  /-- the ring that had the latest turn: its key (R350) -/
  turn : Option Nat := none
  /-- the instruction that ended last: requester, ring, opcode, tag (R431) -/
  last : Option (Nat × Nat × Nat × Word) := none
deriving DecidableEq, Repr, Inhabited

/-- The patch RAM, vector table and lock (R355 to R357). -/
structure Patch where
  level : Nat := 0
  locked : Bool := false
  /-- the copy loaded at the last start is B (R83) -/
  copyB : Bool := false
  vectors : Tab (BitVec 16) := []
  code : Tab Word := []
deriving DecidableEq, Repr, Inhabited

/-- An iterative command in progress (R343): its descriptor, next cursor, steps run and totals. -/
structure Iter where
  desc : List Word := []
  cursor : BitVec 64 := 0
  steps : Nat := 0
  tot1 : Nat := 0
  tot2 : Nat := 0
deriving DecidableEq, Repr, Inhabited

/-- A TX descriptor that HIF has taken: the frame made of it, and its completion once it is settled (R382). -/
structure TxTaken where
  fid : Nat := 0
  desc : List Word := []
  done : Option (Nat × List (Nat × Word)) := none
deriving DecidableEq, Repr, Inhabited

/-- A ring (R369 to R380). Indices are the 17-bit values of R370. -/
structure Ring where
  ex : Bool := false
  kind : Nat := 0
  log2 : Nat := 6
  /-- LOG2 as written to RING_CFG of ring 0 -/
  cfgLog : Nat := 6
  base : Nat := 0
  engine : Nat := 0
  evtRing : Nat := 0
  classMask : Nat := 0
  vector : Nat := 0x7FF
  holdoff : Nat := 0
  irqEn : Bool := false
  en : Bool := false
  dflt : Bool := false
  mgmt : Bool := false
  resetting : Bool := false
  evtOverflow : Bool := false
  phaseErr : Bool := false
  dbErr : Bool := false
  /-- tile and length of the buffer that a packet TX ring waits for (R251) -/
  bufWait : Option (Nat × Nat) := none
  /-- producer and consumer index -/
  prod : Nat := 0
  cons : Nat := 0
  /-- entries fetched and kept: (position index, words), oldest first (R373) -/
  fetched : List (Nat × List Word) := []
  /-- position index of fetched entries and the order in which they were fetched (R338) -/
  stamps : List (Nat × Nat) := []
  /-- the command that has begun and waits: passed to its unit, or for what it covers (R335, R339, R378) -/
  busy : Option (List Word) := none
  /-- served by the stand-in until no fetched command waits, though the home engine runs again (R361) -/
  lent : Bool := false
  /-- doorbells not yet worked off: index and order of arrival, oldest first (R339) -/
  bells : List (Nat × Nat) := []
  /-- TX descriptors taken and not completed, in ring order -/
  taken : List TxTaken := []
  recheck : Bool := false
  iter : Option Iter := none
  lost : Nat := 0
  firstLoss : Time80 := {}
  /-- free-running count of the latest MSI-X message, and entries waiting for the end of HOLDOFF -/
  lastIrq : Option Nat := none
  irqDue : Bool := false
deriving DecidableEq, Repr, Inhabited

/-- The host interface beyond its registers (17_host.md). -/
structure Hif where
  rings : Tab Ring := []
  /-- MSI-X table dwords whose value is not the reset value, and pending bits -/
  msixTab : Tab (Option Word) := []
  msixPend : List Nat := []
  timers : Tab Timer := []
  sliceFenced : List Nat := []
  sliceResetting : List Nat := []
  /-- commands that wait for the end of a slice's reset: (slice, command) -/
  slcWait : List (Nat × Cmd) := []
  /-- doorbells received, and descriptor fetches -/
  bellCount : Nat := 0
  fetchCount : Nat := 0
  /-- frames made of TX descriptors -/
  txSeq : Nat := 0
  /-- buffers handed over with TX descriptors: (frame, handle) -/
  txBufs : List (Nat × Nat) := []
deriving DecidableEq, Repr, Inhabited

/-! ## Security, faults, telemetry, power states -/

/-- A key slot (R389). -/
structure KeySlot where
  valid : Bool := false
  key : List Byte := []
deriving DecidableEq, Repr, Inhabited

/-- A message in the AES core (R387, R395). -/
structure SecMsg where
  holder : Nat := 0
  level : Nat := 0
deriving DecidableEq, Repr, Inhabited

/-- The security engine (18_security.md) beyond its registers. -/
structure Sec where
  slots : Tab KeySlot := []
  holder : Nat := 0
  queue : List Nat := []
  running : Option SecMsg := none
  contexts : List SecMsg := []
  urgent : List Nat := []
  halted : Bool := false
deriving DecidableEq, Repr, Inhabited

/-- A unit's status (R403). -/
structure UnitSt where
  held : Bool := false
  fenced : Bool := false
  rep : Bool := false
  cls : Nat := 0
  repeats : Nat := 0
  code : Nat := 0
deriving DecidableEq, Repr, Inhabited

/-- The fault collector beyond its registers (R401 to R403). -/
structure Collector where
  fifo : List FaultRec := []
  seq : Nat := 0
  units : Tab UnitSt := []
  collectorReset : Bool := false
  /-- domains whose clock is not good (R73) -/
  clkBad : List Nat := []
deriving DecidableEq, Repr, Inhabited

/-- Pace and junction readings of a tile (R412, R415). -/
structure Sensors where
  /-- latest margin of each island, 0-7 pipelines, 8-9 engines, 10 plait endpoint -/
  margins : Tab (Option Int) := []
  /-- periods in a row at or above target + 30 (R413) -/
  high : Nat := 0
  vcore : Nat := 800
  junction : Int := 200
deriving DecidableEq, Repr, Inhabited

/-- Power states (R417): pipelines in PROOF, tiles in CHILL, the module's state, open windows. -/
structure PwrState where
  proof : List Nat := []
  chill : List Nat := []
  /-- 0 ACTIVE, 1 entering DORMANT, 2 DORMANT, 3 waking -/
  module : Nat := 0
  quiet : List Nat := []
  dormantWin : Bool := false
  /-- scopes on their way out of a gated state: pipelines 0-63, 64 + tile -/
  waking : List Nat := []
deriving DecidableEq, Repr, Inhabited

/-- Telemetry (20_telemetry.md). Keys are set × 32 + requester. -/
structure Tel where
  counters : Tab (BitVec 64) := []
  snaps : Tab (Tab (BitVec 64)) := []
  subs : Tab (Option Nat) := []
  dumpSeq : Tab Nat := []
  skipped : Tab Bool := []
  /-- next index of a periodic dump in progress -/
  nextIdx : Tab (Option Nat) := []
deriving DecidableEq, Repr, Inhabited

/-! ## What the block sends to the outside -/

/-- One thing sent to the outside, newest first in `State.out` (log 8). -/
inductive Out where
  /-- a completion written in place: requester, ring, index, the 16 words as they stand after it (R331) -/
  | completion (req ring idx : Nat) (words : List Word)
  /-- the cursor of the next step written into w2-w3 (R343) -/
  | cursor (req ring idx : Nat) (cursor : BitVec 64)
  /-- an entry of a notice ring (R379, R161, R426, R430, R434) -/
  | entry (req ring idx : Nat) (words : List Word)
  | msix (vector : Nat)
  /-- bytes written to host memory at an address -/
  | hostWrite (req addr : Nat) (bytes : List Byte)
  /-- data of a register read -/
  | readData (w : Word)
  | frame (port : Nat) (bytes : List Byte)
  /-- an egress frame ended with an inverted FCS (R21) -/
  | abort (port : Nat)
  /-- a hello frame, without its FCS (R306) -/
  | hello (port : Nat) (bytes : List Byte)
  /-- the payload of a management frame, TAG included (R313) -/
  | mgmt (port : Nat) (payload : List Byte)
  | mgmtFrame (bytes : List Byte)
  /-- characters sent on TOD_TXD (R116) -/
  | tod (line : List Byte)
  | ppsOut (high : Bool)
  | cagePins (cage : Nat) (rstLow lpmode : Bool)
  | cageApp (cage mode : Nat)
  /-- the control byte of an I2C bus's switch: one bit for the cage that is accessed next (R53) -/
  | i2cSelect (bus mask : Nat)
  /-- LowPwrRequestSW of an optic is cleared (R105) -/
  | lowPwrClear (cage : Nat)
  /-- data-path initialisation of an optic starts (R105) -/
  | dataPathInit (cage : Nat)
  /-- a memory read that ends Unsupported Request (R88) -/
  | unsupported
  | cmisWrite (cage page off : Nat) (bytes : List Byte)
  | i2cPulses (bus : Nat)
  | uart (line : String)
  | uartByte (b : Byte)
  | refresh (ch rank : Nat)
  /-- row-disturb refreshes of rows of a bank (R268) -/
  | neighbour (ch rank bank : Nat) (rows : List Nat)
deriving DecidableEq, Repr, Inhabited

/-! ## The whole -/

/-- The machine. Registers without a home in a record below are words keyed by BAR0 offset; an absent key reads the
register's reset value. -/
structure State where
  pending : List Instr := []
  freeCtr : Nat := 0
  serial : Nat := 0
  /-- PLT_IDENT (R4) -/
  ident : Word := 0
  regs : Tab (Option Word) := []
  pwr : Power := {}
  nvm : Nvm := {}
  opt : Options := {}
  tim : TimeBase := {}
  img : ImgState := {}
  groups : Tab LaneGroup := []
  ports : Tab Port := []
  cages : Tab Cage := []
  i2c : Tab I2c := []
  sas : Tab (Option Sa) := []
  /-- secure channels, keyed as their AN 0 -/
  chans : Tab (Option SecChan) := []
  exm : Exm := {}
  lpm : List Pfx := []
  trie : Trie := {}
  /-- table words of a tile whose error cannot be corrected: tile, memory (0-15 of the trie, 16 exact match), address (R404) -/
  tblBad : List (Nat × Nat × Nat) := []
  tcm : Tcm := {}
  act : Act := {}
  frames : List Frame := []
  fab : Fabric := {}
  mem : List Host.Cell := []
  dram : Tab Channel := []
  sch : Sched := {}
  cfb : Corridor := {}
  engines : Tab Engine := []
  patch : Patch := {}
  hif : Hif := {}
  sec : Sec := {}
  flt : Collector := {}
  sens : Tab Sensors := []
  ps : PwrState := {}
  tel : Tel := {}
  out : List Out := []
deriving DecidableEq, Repr, Inhabited

/-- The machine right after a power-on reset (log 1): POR set, STAGE 0x00, every register at its reset value, the NVM erased. -/
def State.reset : State := {}

end Sys2Proof.Machine
end

