-- ==== Sys2Proof/Machine/Codec.lean ====
section
/-! DEFINITION. What the link sideband carries: cell headers, first-cell extensions, control messages, and their CRC-32C
(R211, R217 to R219). -/
namespace Sys2Proof.Machine

/-- TYPE of a cell header. -/
def typSpread : Nat := 0
def typReturn : Nat := 1
def typNull : Nat := 2
def typExpress : Nat := 3

/-- BYTES of a header: the data bytes less one, or their exclusive or in a parity cell. -/
def cellBytes (c : Cell) : Nat := if c.parity then c.bytesX else c.data.length - 1

/-- Header bits [95:0] under a TYPE, `top` for bit 63 (R217). -/
def cellHead (typ : Nat) (top : Bool) (c : Cell) : Nat :=
  typ + c.parity.toNat * 2 ^ 2 + c.src * 2 ^ 3 + c.leaf * 2 ^ 6 + c.ssn * 2 ^ 26 + c.pos * 2 ^ 42 + c.pattern * 2 ^ 45 +
  c.first.toNat * 2 ^ 49 + c.last.toNat * 2 ^ 50 + cellBytes c * 2 ^ 51 + c.pstripe.toNat * 2 ^ 59 + c.cls * 2 ^ 60 + top.toNat * 2 ^ 63 +
  c.enq * 2 ^ 64

/-- The extension of a cell with FIRST set (R218). -/
def cellExt (c : Cell) : Nat :=
  c.ts.ns + c.ts.sec * 2 ^ 32 + c.port * 2 ^ 80 + c.frameLen * 2 ^ 90 + c.colour * 2 ^ 104 + c.oneStep.toNat * 2 ^ 106 + c.tc.toNat * 2 ^ 107 +
  c.mc.toNat * 2 ^ 108 + c.mcGroup * 2 ^ 109

/-- The CRC over a header, its extension and its data; least significant byte first (PRESUMED; log 10). -/
def headCrc (typ : Nat) (top : Bool) (c : Cell) : Word :=
  crc32c (leBytes 12 (cellHead typ top c) ++ (if c.first then leBytes 16 (cellExt c) else []) ++ c.data)

/-- The CRC that a cell is dealt with. A RETURN carries the same, so its TYPE counts as SPREAD there (R263; log 103). -/
def cellCrc (c : Cell) : Word := headCrc typSpread c.holder c

/-- The CRC dealt with a cell is set. -/
def sealed (c : Cell) : Cell := { c with crc := cellCrc c }

/-- The whole header of a cell on a link. -/
def cellBits (typ : Nat) (top : Bool) (c : Cell) : BitVec 128 := BitVec.ofNat 128 (cellHead typ top c + c.crc.toNat * 2 ^ 96)

/-- Words of 16 B that a cell costs on a link (R211); a placeholder and a NULL cost none (R217, R240). -/
def cellWords (c : Cell) : Nat := if c.holder then 0 else if c.parity then 16 else (c.data.length + 15) / 16

/-- A frame's identity in NOTICE and EVICT: bits [55:4]. -/
def noteBits (n : Notice) : Nat :=
  n.src * 2 ^ 4 + n.leaf * 2 ^ 7 + n.ssn * 2 ^ 27 + n.pos * 2 ^ 43 + n.cells * 2 ^ 46 + n.pattern * 2 ^ 52

/-- The data of a frame in cells of 256 B. -/
def cutCells : Nat → List Byte → List (List Byte)
  | 0, _ => []
  | n + 1, bs => bs.take 256 :: cutCells n (bs.drop 256)

/-- The cells of an express frame as its link carries them: header cells of TYPE 3. -/
def expressCells (sl : Slot) (p : Nat) : List Cell :=
  let n := (sl.data.length + 4 + 255) / 256
  (cutCells n sl.data).zipIdx.map fun x =>
    { fid := sl.fid, src := sl.src, leaf := sl.leaf, cls := sl.leaf % 8, enq := sl.enq, data := x.1, first := decide (x.2 = 0),
      last := decide (x.2 + 1 = n), ts := sl.ts, port := p, frameLen := sl.len, oneStep := sl.oneStep, tc := sl.tc }

/-- The bits of a control message (R219), or of the header of a cell. -/
def msgBits : Msg → BitVec 128
  | .spread c => cellBits typSpread c.holder c
  | .ret c => cellBits typReturn false c
  | .null c poison => BitVec.ofNat 128 (cellHead typNull poison { c with data := [], first := false })
  | .express sl p _ => cellBits typExpress false ((expressCells sl p).headD {})
  | .notice n => BitVec.ofNat 128 (1 + noteBits n + n.enq * 2 ^ 56)
  | .pull src leaf ssn lo hi pat =>
    BitVec.ofNat 128 (2 + src * 2 ^ 4 + leaf * 2 ^ 7 + ssn * 2 ^ 27 + lo * 2 ^ 43 + hi * 2 ^ 46 + pat * 2 ^ 49)
  | .evict n => BitVec.ofNat 128 (3 + noteBits n)
  | .evictReq leaf cls => BitVec.ofNat 128 (4 + leaf * 2 ^ 7 + cls * 2 ^ 27)
  | .evictNack leaf => BitVec.ofNat 128 (5 + leaf * 2 ^ 7)
  | .portIdle bits => BitVec.ofNat 128 (6 + bits * 2 ^ 4)

/-- The CRC that a receiver computes. -/
def msgCrc : Msg → Word
  | .spread c => cellCrc c
  | .ret c => cellCrc c
  | .express sl p _ => crc32c ((expressCells sl p).flatMap fun c => leBytes 12 (cellHead typExpress false c) ++ c.data)
  | m => crc32c (leBytes 16 (msgBits m).toNat)

/-- The CRC that a sender puts with a message; a cell carries the one it was dealt with. -/
def sentCrc : Msg → Word
  | .spread c => c.crc
  | .ret c => c.crc
  | m => msgCrc m

/-- A message on the link from a tile to a tile. -/
def wireOf (src dst : Nat) (m : Msg) : Wire := { src := src, dst := dst, msg := m, crc := sentCrc m }

end Sys2Proof.Machine
end

