-- ==== Sys2Proof/Machine/Tab.lean ====
section
/-! DEFINITION. Sparse tables in canonical form, and byte memory as a list of cells in the same form. -/
namespace Sys2Proof.Machine

/-- The value at a key; an absent key holds the default. -/
def tget {α : Type} [Inhabited α] : Tab α → Nat → α
  | [], _ => default
  | (k, v) :: r, key => if key = k then v else if key < k then default else tget r key

/-- The table with a key's value replaced; the default value removes the entry. -/
def tput {α : Type} [Inhabited α] [DecidableEq α] : Tab α → Nat → α → Tab α
  | [], key, v => if v = default then [] else [(key, v)]
  | (k, w) :: r, key, v =>
    if key = k then (if v = default then r else (key, v) :: r)
    else if key < k then (if v = default then (k, w) :: r else (key, v) :: (k, w) :: r)
    else (k, w) :: tput r key v

/-- The table with a function applied at a key. -/
def tupd {α : Type} [Inhabited α] [DecidableEq α] (t : Tab α) (key : Nat) (f : α → α) : Tab α := tput t key (f (tget t key))

/-- The table with a function applied to every entry it lists. -/
def tmap {α : Type} [Inhabited α] [DecidableEq α] (f : Nat → α → α) (t : Tab α) : Tab α :=
  (t.map fun x => (x.1, f x.1 x.2)).filter fun x => decide (x.2 ≠ default)

/-- The entries of a table that a condition keeps. -/
def tkeep {α : Type} (f : Nat → α → Bool) (t : Tab α) : Tab α := t.filter fun x => f x.1 x.2

/-- A table given by a function on the keys below a bound. -/
def tgen {α : Type} [Inhabited α] [DecidableEq α] (n : Nat) (f : Nat → α) : Tab α :=
  ((List.range n).map fun k => (k, f k)).filter fun x => decide (x.2 ≠ default)

/-- Every key of a list of pairs is above a bound. -/
def keysAbove {α : Type} (b : Nat) : List (Nat × α) → Bool
  | [] => true
  | (k, _) :: r => b < k && keysAbove b r

/-- Canonical form: keys rise strictly and no entry holds the default. -/
def Tab.wf {α : Type} [Inhabited α] [DecidableEq α] : Tab α → Bool
  | [] => true
  | (k, v) :: r => decide (v ≠ default) && keysAbove k r && Tab.wf r

/-! ## Byte memory

What an unlisted address reads as is 0 (DESIGN CHOICE, log 13). -/

/-- The byte at an address. -/
def memByte : List Host.Cell → Nat → Byte
  | [], _ => 0
  | (k, v) :: r, a => if a = k then v else if a < k then 0 else memByte r a

/-- The memory with one byte written. -/
def memSet : List Host.Cell → Nat → Byte → List Host.Cell
  | [], a, v => if v = 0 then [] else [(a, v)]
  | (k, w) :: r, a, v =>
    if a = k then (if v = 0 then r else (a, v) :: r)
    else if a < k then (if v = 0 then (k, w) :: r else (a, v) :: (k, w) :: r)
    else (k, w) :: memSet r a v

/-- n bytes from an address. -/
def memRead (m : List Host.Cell) (a : Nat) : Nat → List Byte
  | 0 => []
  | n + 1 => memByte m a :: memRead m (a + 1) n

/-- Bytes written from an address upwards. -/
def memWrite (m : List Host.Cell) (a : Nat) : List Byte → List Host.Cell
  | [] => m
  | b :: bs => memWrite (memSet m a b) (a + 1) bs

/-- Canonical form of the memory: addresses rise strictly and no listed byte is 0. -/
def Memory.wf : List Host.Cell → Bool
  | [] => true
  | (k, v) :: r => decide (v ≠ 0) && keysAbove k r && Memory.wf r

end Sys2Proof.Machine
end

