-- ==== Sys2Proof/Machine/RegMap.lean ====
section
/-! DEFINITION. The register map of BAR0 (R435 to R439): one row per register with its place, field types and reset value,
transcribed from the register tables of the chapters, and the decoding of an offset. -/
namespace Sys2Proof.Machine

/-- Reset scopes of a register line (R70). A register of scope `warm` starts again at cold and warm resets; `tile` also at a
reset of its tile; `cold` keeps its value through a warm reset. -/
inductive Scope where
  | never
  | powerOn
  | cold
  | warm
  | tile
deriving DecidableEq, Repr

/-- The registers of BAR0, each with an index where the map repeats it. A LO and HI pair of status words is one register
with index 0 and 1; SCH_PORT_CFG of host ports is schHostCfg. -/
inductive Reg where
  | pltIdent
  | pltRstCause
  | pltRstInfo
  | pltSwRst
  | pltOptStat
  | pltOptSeq
  | pltBootStat
  | pltBootCtl
  | pltClkStat
  | pltImgStat
  | pltImgSeqLo
  | pltImgSeqHi
  | pltPace
  | pltPaceTarget
  | pltJunction
  | pltThermCfg
  | pltPwrCtl
  | pltPwrStat
  | pltGov
  | pwrStat
  | pwrTherm
  | pwrSaveStat
  | pwrSaveSeq
  | timStat
  | timStepLimit
  | timAdj
  | timSetSecLo
  | timSetSecHi
  | timSetNs
  | timCmd
  | timNowSecLo
  | timNowSecHi
  | timNowNs
  | hifStat
  | hifBind
  | hifDecode
  | secLock
  | secStat
  | secValid
  | secTag
  | fltStat
  | fltCtl
  | fltRec
  | fltUnitSel
  | fltUnit
  | telDumpCfg
  | telDumpPer
  | cfbEtype
  | cfbTimers
  | cfbAuth
  | cfbRevert
  | cfbStat
  | prtLgMode
  | prtCageBudget
  | parProf
  | parPortProf
  | parHostProf
  | parStat
  | exmTblCfg
  | exmTblSeed
  | exmLearn
  | exmLearnStat
  | exmSliceUse
  | exmJrnlStat
  | lpmRootCfg
  | lpmSliceUse
  | tcmTable
  | tcmFallback
  | tcmThrottle
  | tcmBankSel
  | tcmStat
  | tcmFence
  | actProfProg
  | actHashFld
  | actHashSeed
  | actMcQlim
  | latCalStat
  | latCommitSec
  | latCommitNs
  | latReseq
  | latLinkErr
  | bufSliceLimit
  | bufSpill
  | bufPoolCfg
  | bufPoolFree
  | bufHostLim
  | bufSliceOcc
  | bufGuardPeak
  | bufPortHold
  | bufFreeStat
  | drmChStat
  | drmRemap
  | drmMigCtl
  | drmRdCfg
  | drmCeLimit
  | drmErrStat
  | schCfg
  | schLenProf
  | schPortCfg
  | schHostCfg
  | schGateStat
  | schSample
  | schRqWeightLo
  | schRqWeightHi
  | cmeStat
  | cmeUpc
  | cmePatch
  | cmeHook
  | telEngSample
  | cfbAdj
deriving DecidableEq, Repr

/-- One row of the map: the offset of index i is base + (i mod per) × step + (i div per) × step2 in its block. -/
structure RegRow where
  tile : Bool := false
  slot : Nat := 0
  base : Nat := 0
  per : Nat := 1
  step : Nat := 4
  many : Nat := 1
  step2 : Nat := 0x10000
  /-- masks of the fields by type (R9) -/
  rw : Nat := 0
  rw1c : Nat := 0
  rw1s : Nat := 0
  rc : Nat := 0
  reset : Nat := 0
  sliceVisible : Bool := false
  scope : Scope := .cold
deriving DecidableEq, Repr

/-- The row of a register (R436, R437 and the field tables). -/
def regRow : Reg → RegRow
  | .pltIdent => { sliceVisible := true, scope := .never }
  | .pltRstCause => { base := 0x10, rw1c := 0x7ff, reset := 0x1, scope := .powerOn }
  | .pltRstInfo => { base := 0x14, scope := .powerOn }
  | .pltSwRst => { base := 0x18, scope := .warm }
  | .pltOptStat => { base := 0x20, scope := .warm }
  | .pltOptSeq => { base := 0x24, scope := .warm }
  | .pltBootStat => { base := 0x28, scope := .warm }
  | .pltBootCtl => { base := 0x2c, rw1s := 0xff, scope := .warm }
  | .pltClkStat => { base := 0x30, rw1c := 0x80000000 }
  | .pltImgStat => { base := 0x40, scope := .warm }
  | .pltImgSeqLo => { base := 0x44, scope := .warm }
  | .pltImgSeqHi => { base := 0x48, scope := .warm }
  | .pltPace => { base := 0x80, per := 8, reset := 0x3200000 }
  | .pltPaceTarget => { base := 0xa0, rw := 0x8000ffff, reset := 0x8000003c }
  | .pltJunction => { base := 0xc0, per := 8 }
  | .pltThermCfg => { base := 0xe0, rw := 0xff, reset := 0x70 }
  | .pltPwrCtl => { base := 0x100 }
  | .pltPwrStat => { base := 0x104 }
  | .pltGov => { base := 0x108, rw := 0xc000ffff, reset := 0xc00001f4 }
  | .pwrStat => { slot := 1, rw1c := 0x34 }
  | .pwrTherm => { slot := 1, base := 0x8 }
  | .pwrSaveStat => { slot := 1, base := 0x10, rw1c := 0x8 }
  | .pwrSaveSeq => { slot := 1, base := 0x14 }
  | .timStat => { slot := 2, rw1c := 0xc, sliceVisible := true }
  | .timStepLimit => { slot := 2, base := 0x4, rw := 0x3fffffff, reset := 0x3e8 }
  | .timAdj => { slot := 2, base := 0x8, rw := 0xffffffff }
  | .timSetSecLo => { slot := 2, base := 0x10, rw := 0xffffffff }
  | .timSetSecHi => { slot := 2, base := 0x14, rw := 0xffff }
  | .timSetNs => { slot := 2, base := 0x18, rw := 0xffffffff }
  | .timCmd => { slot := 2, base := 0x1c }
  | .timNowSecLo => { slot := 2, base := 0x20, sliceVisible := true }
  | .timNowSecHi => { slot := 2, base := 0x24, sliceVisible := true }
  | .timNowNs => { slot := 2, base := 0x28, sliceVisible := true }
  | .hifStat => { slot := 3, rw1c := 0xc0000000 }
  | .hifBind => { slot := 3, base := 0x100, per := 16 }
  | .hifDecode => { slot := 3, base := 0x200, rw1c := 0xc0000000 }
  | .secLock => { slot := 4, scope := .warm }
  | .secStat => { slot := 4, base := 0x4, rw1c := 0xf, scope := .warm }
  | .secValid => { slot := 4, base := 0x10, per := 2, sliceVisible := true, scope := .warm }
  | .secTag => { slot := 4, base := 0x100, per := 64, scope := .warm }
  | .fltStat => { slot := 5, rw1c := 0x20000000, rc := 0xffff }
  | .fltCtl => { slot := 5, base := 0x4 }
  | .fltRec => { slot := 5, base := 0x10, per := 8 }
  | .fltUnitSel => { slot := 5, base := 0x40, rw := 0xffff, scope := .warm }
  | .fltUnit => { slot := 5, base := 0x44, rw1c := 0x80000000, scope := .warm }
  | .telDumpCfg => { slot := 6, rw := 0x1f, reset := 0x8 }
  | .telDumpPer => { slot := 6, base := 0x100, per := 21 }
  | .cfbEtype => { slot := 7 }
  | .cfbTimers => { slot := 7, base := 0x4, rw := 0xfffff07f, reset := 0x643001 }
  | .cfbAuth => { slot := 7, base := 0x8, rw := 0xffff, reset := 0x3e8 }
  | .cfbRevert => { slot := 7, base := 0xc, rw := 0xffffffff, reset := 0x3e8000a }
  | .cfbStat => { slot := 7, base := 0x10, rw1c := 0x60000000 }
  | .prtLgMode => { tile := true, per := 8, step := 0x100, reset := 0xf, sliceVisible := true, scope := .tile }
  | .prtCageBudget => { tile := true, base := 0x800, rw := 0xffff, scope := .tile }
  | .parProf => { tile := true, slot := 1, per := 64, rw := 0xffffffff, scope := .tile }
  | .parPortProf => { tile := true, slot := 1, base := 0x100, per := 64, rw := 0x3f, scope := .tile }
  | .parHostProf => { tile := true, slot := 1, base := 0x200, per := 2, rw := 0x3f, scope := .tile }
  | .parStat => { tile := true, slot := 1, base := 0x210, rw1c := 0xff01, scope := .tile }
  | .exmTblCfg => { tile := true, slot := 2, per := 16, step := 0x10, sliceVisible := true, scope := .tile }
  | .exmTblSeed => { tile := true, slot := 2, base := 0x4, per := 16, step := 0x10, scope := .tile }
  | .exmLearn => { tile := true, slot := 2, base := 0x100, rw := 0xffffffff, reset := 0x6407d0, scope := .tile }
  | .exmLearnStat => { tile := true, slot := 2, base := 0x104, rw1c := 0x1ffff, scope := .tile }
  | .exmSliceUse => { tile := true, slot := 2, base := 0x200, per := 16, sliceVisible := true, scope := .tile }
  | .exmJrnlStat => { tile := true, slot := 2, base := 0xf00, scope := .warm }
  | .lpmRootCfg => { tile := true, slot := 3, per := 32, sliceVisible := true, scope := .tile }
  | .lpmSliceUse => { tile := true, slot := 3, base := 0x100, per := 16, sliceVisible := true, scope := .tile }
  | .tcmTable => { tile := true, slot := 4, per := 4, many := 8, step2 := 0x100, sliceVisible := true, scope := .tile }
  | .tcmFallback => { tile := true, slot := 4, base := 0x10, per := 16, many := 8, step2 := 0x100, sliceVisible := true, scope := .tile }
  | .tcmThrottle => { tile := true, slot := 4, base := 0x800, rw := 0xffffff, reset := 0x676460, scope := .tile }
  | .tcmBankSel => { tile := true, slot := 4, base := 0x804, rw := 0xf3, reset := 0x11, scope := .tile }
  | .tcmStat => { tile := true, slot := 4, base := 0x808, rw1c := 0xa0000000, scope := .tile }
  | .tcmFence => { tile := true, slot := 4, base := 0x810, per := 2, scope := .tile }
  | .actProfProg => { tile := true, slot := 5, per := 64, scope := .tile }
  | .actHashFld => { tile := true, slot := 5, base := 0x100, per := 16, step := 0x8, sliceVisible := true, scope := .tile }
  | .actHashSeed => { tile := true, slot := 5, base := 0x104, per := 16, step := 0x8, scope := .tile }
  | .actMcQlim => { tile := true, slot := 5, base := 0x200, rw := 0xffff, reset := 0x100, scope := .tile }
  | .latCalStat => { tile := true, slot := 6, reset := 0x800, scope := .tile }
  | .latCommitSec => { tile := true, slot := 6, base := 0x8, scope := .tile }
  | .latCommitNs => { tile := true, slot := 6, base := 0xc, scope := .tile }
  | .latReseq => { tile := true, slot := 6, base := 0x10, rw := 0x3f07ff, reset := 0x80400, scope := .tile }
  | .latLinkErr => { tile := true, slot := 6, base := 0x14, rw1c := 0xff, scope := .tile }
  | .bufSliceLimit => { tile := true, slot := 7, sliceVisible := true, scope := .tile }
  | .bufSpill => { tile := true, slot := 7, base := 0x10, rw := 0xfff, reset := 0x20, scope := .tile }
  | .bufPoolCfg => { tile := true, slot := 7, base := 0x20, per := 4, step := 0x8, rw := 0xffff0000, scope := .tile }
  | .bufPoolFree => { tile := true, slot := 7, base := 0x24, per := 4, step := 0x8, rc := 0xffff0000, scope := .tile }
  | .bufHostLim => { tile := true, slot := 7, base := 0x40, per := 4, rw := 0xffff, scope := .tile }
  | .bufSliceOcc => { tile := true, slot := 7, base := 0x100, per := 16, sliceVisible := true, scope := .tile }
  | .bufGuardPeak => { tile := true, slot := 7, base := 0x140, per := 16, rc := 0x1ffff, scope := .tile }
  | .bufPortHold => { tile := true, slot := 7, base := 0x200, per := 64, rw := 0x3ff, reset := 0x32, scope := .tile }
  | .bufFreeStat => { tile := true, slot := 7, base := 0x300, rw1c := 0xc0000000, scope := .tile }
  | .drmChStat => { tile := true, slot := 8, per := 8, step := 0x40 }
  | .drmRemap => { tile := true, slot := 8, base := 0x4, per := 8, step := 0x40 }
  | .drmMigCtl => { tile := true, slot := 8, base := 0x800, rw := 0xffff0003, reset := 0x3e80001, scope := .warm }
  | .drmRdCfg => { tile := true, slot := 8, base := 0x804, rw := 0xf1f, reset := 0x802, scope := .warm }
  | .drmCeLimit => { tile := true, slot := 8, base := 0x808, rw := 0xffff, reset := 0x3e8, scope := .warm }
  | .drmErrStat => { tile := true, slot := 8, base := 0x80c, rw1c := 0xe0000000 }
  | .schCfg => { tile := true, slot := 9, rw := 0xffffffff, reset := 0x64002100, scope := .tile }
  | .schLenProf => { tile := true, slot := 9, base := 0x10, per := 16, sliceVisible := true, scope := .tile }
  | .schPortCfg => { tile := true, slot := 9, base := 0x100, per := 64, rw := 0xff, reset := 0x19, scope := .tile }
  | .schHostCfg => { tile := true, slot := 9, base := 0x300, per := 2, rw := 0xff, reset := 0x19, scope := .tile }
  | .schGateStat => { tile := true, slot := 9, base := 0x200, per := 64, reset := 0xff, sliceVisible := true, scope := .tile }
  | .schSample => { tile := true, slot := 9, base := 0x400, rw := 0xc00fffff, reset := 0x400003e8, scope := .tile }
  | .schRqWeightLo => { tile := true, slot := 9, base := 0x800, per := 66, step := 0x8, rw := 0xffffffff, scope := .tile }
  | .schRqWeightHi => { tile := true, slot := 9, base := 0x804, per := 66, step := 0x8, rw := 0xffffffff, scope := .tile }
  | .cmeStat => { tile := true, slot := 10, per := 2, step := 0x40, scope := .tile }
  | .cmeUpc => { tile := true, slot := 10, base := 0x4, per := 2, step := 0x40, scope := .tile }
  | .cmePatch => { tile := true, slot := 10, base := 0x100, scope := .warm }
  | .cmeHook => { tile := true, slot := 10, base := 0x104, per := 2, scope := .warm }
  | .telEngSample => { tile := true, slot := 11, per := 2, step := 0x8, rw := 0xf0ffffff, reset := 0xf4240, scope := .tile }
  | .cfbAdj => { tile := true, slot := 12, base := 0x100, per := 64, reset := 0xff00, scope := .tile }

/-- Every register of the map. -/
def allRegs : List Reg := [
  .pltIdent, .pltRstCause, .pltRstInfo, .pltSwRst, .pltOptStat, .pltOptSeq, .pltBootStat, .pltBootCtl,
  .pltClkStat, .pltImgStat, .pltImgSeqLo, .pltImgSeqHi, .pltPace, .pltPaceTarget, .pltJunction, .pltThermCfg,
  .pltPwrCtl, .pltPwrStat, .pltGov, .pwrStat, .pwrTherm, .pwrSaveStat, .pwrSaveSeq, .timStat,
  .timStepLimit, .timAdj, .timSetSecLo, .timSetSecHi, .timSetNs, .timCmd, .timNowSecLo, .timNowSecHi,
  .timNowNs, .hifStat, .hifBind, .hifDecode, .secLock, .secStat, .secValid, .secTag,
  .fltStat, .fltCtl, .fltRec, .fltUnitSel, .fltUnit, .telDumpCfg, .telDumpPer, .cfbEtype,
  .cfbTimers, .cfbAuth, .cfbRevert, .cfbStat, .prtLgMode, .prtCageBudget, .parProf, .parPortProf,
  .parHostProf, .parStat, .exmTblCfg, .exmTblSeed, .exmLearn, .exmLearnStat, .exmSliceUse, .exmJrnlStat,
  .lpmRootCfg, .lpmSliceUse, .tcmTable, .tcmFallback, .tcmThrottle, .tcmBankSel, .tcmStat, .tcmFence,
  .actProfProg, .actHashFld, .actHashSeed, .actMcQlim, .latCalStat, .latCommitSec, .latCommitNs, .latReseq,
  .latLinkErr, .bufSliceLimit, .bufSpill, .bufPoolCfg, .bufPoolFree, .bufHostLim, .bufSliceOcc, .bufGuardPeak,
  .bufPortHold, .bufFreeStat, .drmChStat, .drmRemap, .drmMigCtl, .drmRdCfg, .drmCeLimit, .drmErrStat,
  .schCfg, .schLenProf, .schPortCfg, .schHostCfg, .schGateStat, .schSample, .schRqWeightLo, .schRqWeightHi,
  .cmeStat, .cmeUpc, .cmePatch, .cmeHook, .telEngSample, .cfbAdj]

/-- Reset value of a register at an index. Measured values start as log 3 says; pool defaults are those of BUF_POOL_CFG and
BUF_HOST_LIM; a remap table starts as the identity (DRM_REMAP is computed from the channel). -/
def regReset (r : Reg) (i : Nat) : Word :=
  match r with
  | .bufPoolCfg => pack [(31, 16, [256, 64, 16, 8].getD i 0)]
  | .bufHostLim => word ([512, 256, 64, 32].getD i 0)
  | .pwrStat => pack [(21, 12, 800), (1, 1, 1), (0, 0, 1)]
  | .pwrTherm => word 200
  | r => word (regRow r).reset

/-- Number of indices of a register. -/
def regCount (r : Reg) : Nat := (regRow r).per * (regRow r).many

/-- BAR0 offset of a register of tile t (ignored for platform registers) at an index (R435). -/
def regOff (r : Reg) (t i : Nat) : Nat :=
  let w := regRow r
  let o := w.slot * 0x10000 + w.base + (i % w.per) * w.step + (i / w.per) * w.step2
  if w.tile then 0x1000000 + t * 0x100000 + o else o

/-- The index that an offset in the block names, if it names this register. -/
def regIndex (w : RegRow) (reg : Nat) : Option Nat :=
  if reg < w.base then none
  else
    let d := reg - w.base
    let j := d / w.step2
    let e := d % w.step2
    if e % w.step = 0 && e / w.step < w.per && j < w.many then some (j * w.per + e / w.step) else none

/-- The register of a block at an offset in it. -/
def regAt (tile : Bool) (slot reg : Nat) : List Reg → Option (Reg × Nat)
  | [] => none
  | r :: rs =>
    if (regRow r).tile = tile && (regRow r).slot = slot then
      match regIndex (regRow r) reg with
      | some i => some (r, i)
      | none => regAt tile slot reg rs
    else regAt tile slot reg rs

/-- The register, tile and index that a BAR0 offset names; `none` is unassigned space (R438). The mirrors of R439 answer as
the platform register; the register part of an offset is aligned to 4 B (R440). -/
def decodeBar0 (off : Nat) : Option (Reg × Nat × Nat) :=
  let off := off - off % 4
  if 0x1800000 ≤ off then none
  else if 0x1000000 ≤ off then
    let t := off / 0x100000 % 8
    let slot := off / 0x10000 % 16
    let reg := off % 0x10000
    if slot = 12 && reg ≤ 0x10 then (regAt false 7 reg allRegs).map fun p => (p.1, 0, p.2)
    else (regAt true slot reg allRegs).map fun p => if p.1 = .exmJrnlStat then (p.1, 0, p.2) else (p.1, t, p.2)
  else
    (regAt false (off / 0x10000) (off % 0x10000) allRegs).map fun p => (p.1, 0, p.2)

/-- Whether a tile block's register is held on the platform die (R439). -/
def regMirror : Reg → Bool
  | .cfbEtype | .cfbTimers | .cfbAuth | .cfbRevert | .cfbStat | .exmJrnlStat => true
  | _ => false

/-- A register whose home is the register file. -/
def rget (s : State) (r : Reg) (t i : Nat) : Word :=
  match tget s.regs (regOff r t i) with
  | some w => w
  | none => regReset r i

/-- The register file with a register written; the reset value leaves no entry. -/
def rput (r : Reg) (t i : Nat) (w : Word) (s : State) : State :=
  { s with regs := tput s.regs (regOff r t i) (if w = regReset r i then none else some w) }

/-- A field of a register. -/
def rfld (s : State) (r : Reg) (t i hi lo : Nat) : Nat := fld (rget s r t i) hi lo

/-- The state with a register's field replaced. -/
def rset (r : Reg) (t i hi lo v : Nat) (s : State) : State := rput r t i (setFld (rget s r t i) hi lo v) s

/-- A bit of a platform register. -/
def pbit (s : State) (r : Reg) (b : Nat) : Bool := bit (rget s r 0 0) b

/-- The state with a bit of a platform register replaced. -/
def pset (r : Reg) (b : Nat) (v : Bool) (s : State) : State := rset r 0 0 b b v.toNat s

/-- Whether an entry of the register file survives a reset that ends registers of the scopes named. -/
def regKept (gone : Scope → Bool) (tile : Option Nat) (off : Nat) : Bool :=
  match decodeBar0 off with
  | none => false
  | some (r, t, _) =>
    match tile with
    | none => !gone (regRow r).scope
    | some u => !((regRow r).tile && !regMirror r && t = u && gone (regRow r).scope)

end Sys2Proof.Machine
end

