-- ==== Sys2Proof/Machine/Ops.lean ====
section
/-! DEFINITION. The named operations that every family shares: counters, module time, options, ports and tiles as the spec
names them, rings and notices, completions, buffers and packet memory. -/
namespace Sys2Proof.Machine

/-- The answer of a meaning. -/
abbrev Res := Host.Outcome State Fault Refusal

/-- A state change made only under a condition. -/
def iff_ (c : Bool) (f : State → State) (s : State) : State := if c then f s else s

/-- A state change made for each member of a list, in order. -/
def forEach {α : Type} : List α → (α → State → State) → State → State
  | [], _, s => s
  | a :: l, f, s => forEach l f (f a s)

/-- One thing sent to the outside. -/
def emit (o : Out) (s : State) : State := { s with out := o :: s.out }

/-- The PCIe link is up. -/
def linkUp (s : State) : Bool := pbit s .hifStat 0

/-- One thing written to host memory; without a link it is lost. -/
def emitHost (o : Out) (s : State) : State := iff_ (linkUp s) (emit o) s

/-- A free value: the next draw of the opaque source (log 9). -/
def drawn (s : State) : Nat := Config.freeValue s.freeCtr

/-- The state after one draw. -/
def advanceFree (s : State) : State := { s with freeCtr := s.freeCtr + 1 }

/-! ## Counters (R422) -/

/-- Adds to a counter of a set; counters wrap at 2^64. -/
def count (set idx n : Nat) (s : State) : State :=
  { s with tel := { s.tel with counters := tupd s.tel.counters (set * 4294967296 + idx) fun c => c + BitVec.ofNat 64 n } }

/-- The live value of a counter. -/
def counter (s : State) (set idx : Nat) : BitVec 64 := tget s.tel.counters (set * 4294967296 + idx)

def portCnt (p i n : Nat) : State → State := count 0x00 (p * 64 + i) n
def ownerCnt (o i n : Nat) : State → State := count 0x01 (o * 16 + i) n
def faultCnt (i : Nat) : State → State := count 0x02 i 1
/-- The per-tile counters: R236 at 0, R260 at 16, R303 at 32. -/
def tileCnt (t i n : Nat) : State → State := count 0x03 (t * 64 + i) n
/-- The per-pipeline counters: R139 at 0, R210 at 16, R187 at 32. -/
def pipeCnt (g i n : Nat) : State → State := count 0x04 (g * 64 + i) n
/-- A per-tile counter of R187, which the PIPE set shows under every pipeline of the tile (R422). -/
def lpmCnt (t i : Nat) : State → State := forEach (List.range 8) fun p => pipeCnt (t * 8 + p) (32 + i) 1
def exmCnt (t n i : Nat) : State → State := count 0x05 ((t * 16 + n) * 8 + i) 1
def drmCnt (c r i n : Nat) : State → State := count 0x06 ((c * 16 + r) * 8 + i) n
def fabCnt (p i : Nat) : State → State := count 0x07 (p * 16 + i) 1
def ringCnt (q r i n : Nat) : State → State := count 0x08 ((q * 256 + r) * 8 + i) n
def mcCnt (t p i : Nat) : State → State := count 0x09 ((t * 1024 + p) * 8 + i) 1
def leafCnt (l i n : Nat) : State → State := count 0x10 (l * 2 + i) n
def leafDrop (l i : Nat) : State → State := count 0x11 (l * 8 + i) 1
def polCnt (t p i : Nat) : State → State := count 0x12 ((t * 262144 + p) * 8 + i) 1
def streamCnt (st i : Nat) : State → State := count 0x13 (st * 8 + i) 1
def actCnt (t a i n : Nat) : State → State := count 0x14 ((t * 262144 + a) * 2 + i) n
/-- The per-group counters of R204 and R205, which no counter set of R422 shows: 0x100 path groups, 0x101 multicast groups. -/
def groupCnt (mc : Bool) (g i : Nat) : State → State := count (if mc then 0x101 else 0x100) (g * 2 + i) 1

/-! ## Options, slices, image -/

/-- A byte of the options in use (R76). -/
def optByte (s : State) (k : Nat) : Nat := (s.opt.bytes.getD k 0).toNat

/-- Enabled slices: 1, 2, 4, 8 or 16. -/
def nSlices (s : State) : Nat := 2 ^ min 4 (optByte s 1)

/-- Slice i is enabled. -/
def sliceOn (s : State) (i : Nat) : Bool := i < nSlices s

/-- The running image; an empty one while none runs. -/
def img (s : State) : Image := s.img.run.getD {}

/-- STAGE of PLT_BOOT_STAT. -/
def stage (s : State) : Nat := rfld s .pltBootStat 0 0 7 0

def setStage (n : Nat) : State → State := rset .pltBootStat 0 0 7 0 n

/-- The plait calendar runs: step 8 of start-up has ended (R35, R87). STAGE becomes 9 with the first frame forwarded. -/
def calRuns (s : State) : Bool := 8 ≤ stage s && stage s ≤ 9

/-- The first frame is forwarded: step 9 of start-up ends. -/
def firstForwarded (s : State) : State := iff_ (stage s = 8) (setStage 9) s

/-- The safe state is in force (R410). -/
def inSafe (s : State) : Bool := pbit s .fltStat 31

/-- A unit ID of R400. -/
def unitId (kind idx : Nat) : Nat := kind * 4096 + idx

def unitSt (s : State) (u : Nat) : UnitSt := tget s.flt.units u

def isFenced (s : State) (u : Nat) : Bool := (unitSt s u).fenced

def setUnit (u : Nat) (f : UnitSt → UnitSt) (s : State) : State :=
  { s with flt := { s.flt with units := tupd s.flt.units u f } }

/-- Tile t is released and not in tile reset. -/
def tileReady (s : State) (t : Nat) : Bool := t < 8 && pbit s .pltBootStat (16 + t)

def tileFenced (s : State) (t : Nat) : Bool := isFenced s (unitId 6 t)

/-- Tile t runs: released, not in reset and not fenced. -/
def tileRunning (s : State) (t : Nat) : Bool := tileReady s t && !tileFenced s t

def runningTiles (s : State) : List Nat := (List.range 8).filter (tileRunning s)

def tileGoBit (s : State) (t : Nat) : Bool := pbit s .pltBootCtl t

/-- A time in nanoseconds. -/
def nowNs (s : State) : Nat := s.tim.now.toNs

/-- The first calendar boundary at or after an instant (R212). -/
def calBoundary (n : Nat) : Nat := (n + 15999) / 16000 * 16000

/-- When a pending named time takes effect: one that a step carried time past, at the calendar boundary after the step (R114). -/
def effective (s : State) (t : Time80) : Nat := if t.toNs < s.tim.stepTo then calBoundary s.tim.stepTo else t.toNs

/-- REALIGN_PENDING follows the schedules still to realign. -/
def setRealign (l : List Nat) (s : State) : State :=
  pset .timStat 1 (!l.isEmpty) { s with tim := { s.tim with realign := l } }

/-- Words of a TIME80 (R332). -/
def timeWords (t : Time80) : List Word := [word t.ns, word t.sec, word (t.sec / 4294967296 % 65536)]

/-! ## Ports (R11, R89) -/

/-- Local numbers of the ports of a mode in their group. -/
def modePorts : Nat → List Nat
  | 0 | 4 => [0]
  | 1 | 5 => [0, 4]
  | 2 | 6 => [0, 2, 4, 6]
  | 3 | 7 | 8 | 9 => [0, 1, 2, 3, 4, 5, 6, 7]
  | _ => []

/-- Port rate of a mode in Gbit/s. -/
def modeRate : Nat → Nat
  | 0 => 800
  | 1 | 4 => 400
  | 2 | 5 => 200
  | 3 | 6 => 100
  | 7 => 50
  | 8 => 25
  | 9 => 10
  | _ => 0

/-- A mode of R89 with a FEC that it allows; mode 15 takes any FEC. -/
def modeOk (mode fec : Nat) : Bool :=
  if mode ≤ 7 then fec = 0
  else if mode = 8 then 1 ≤ fec && fec ≤ 3
  else if mode = 9 then 2 ≤ fec && fec ≤ 3
  else mode = 15

def group (s : State) (g : Nat) : LaneGroup := tget s.groups g

def port (s : State) (p : Nat) : Port := tget s.ports p

def setPort (p : Nat) (f : Port → Port) (s : State) : State := { s with ports := tupd s.ports p f }

/-- The tile that owns a port (R11, R17). -/
def portTile (p : Nat) : Nat := if p < 512 then p / 64 else (p - 512) % 8

/-- A port of the current modes, or the host port of an enabled slice. -/
def portExists (s : State) (p : Nat) : Bool :=
  if p < 512 then (modePorts (group s (p / 8)).mode).contains (p % 8) else p < 528 && sliceOn s (p - 512)

/-- A port can take frames: an Ethernet port that is up, or the host port of an enabled slice in a running tile. -/
def portUp (s : State) (p : Nat) : Bool :=
  if p < 512 then (port s p).up else portExists s p && tileRunning s (portTile p) && calRuns s && s.ps.module ≤ 1

/-- A lane group is shed by the plate or the sag sequence (R41, R59). -/
def groupShed (s : State) (g : Nat) : Bool := s.pwr.thermShed.contains g || s.pwr.sagShed.contains g

def cage (s : State) (c : Nat) : Cage := tget s.cages c

def setCage (c : Nat) (f : Cage → Cage) (s : State) : State := { s with cages := tupd s.cages c f }

/-- The module holds a port down with its transmitters squelched (R72, R94): a reset, a fence or the safe state, its group shed or
without a clock, its cage not admitted, its tile not released. -/
def portHeld (s : State) (p : Nat) : Bool :=
  (port s p).heldDown || (port s p).fenced || groupShed s (p / 8) || isFenced s (unitId 2 (p / 8)) || s.flt.clkBad.contains (p / 8) ||
  (cage s (p / 8)).state ≠ 2 || !tileRunning s (portTile p) || !tileGoBit s (portTile p) || !calRuns s || inSafe s ||
  !(s.ps.module = 0 || s.pwr.lead.isSome)

/-- Port rate in Gbit/s; a host port's is HOST_RATE of SCH_PORT_CFG. -/
def portRate (s : State) (p : Nat) : Nat :=
  if p < 512 then modeRate (group s (p / 8)).mode
  else clamp 1 100 (rfld s .schHostCfg (portTile p) ((p - 512) / 8) 7 0)

/-- The slice that owns a port: by the image, or by number for a host port. -/
def portOwner (s : State) (p : Nat) : Option Nat :=
  if p < 512 then
    match tget (img s).ports.owner p with
    | 0 => none
    | n + 1 => some n
  else if sliceOn s (p - 512) then some (p - 512) else none

/-- The requester charged for a port: its slice, or the manager. -/
def portReq (s : State) (p : Nat) : Nat := (portOwner s p).getD mgr

/-- The planned adjacency of a fabric-role port (R304). -/
def planAdj (s : State) (p : Nat) : Option PlanAdj := tget (img s).corridor.adj p

def isFabric (s : State) (p : Nat) : Bool := (planAdj s p).isSome

/-- Ports of a lane group's current mode. -/
def groupPorts (s : State) (g : Nat) : List Nat := (modePorts (group s g).mode).map (g * 8 + ·)

/-- MACsec validation mode of a port (R100): 0 OFF, 1 EARLY, 2 STRICT. -/
def macsecMode (s : State) (p : Nat) : Nat := tget (img s).ports.macsec p

/-! ## Leaves and the tree (R12, R278) -/

/-- A leaf's destination tile. -/
def leafTile (l : Nat) : Nat := l / 131072

/-- A leaf's class (R279). -/
def leafClass (l : Nat) : Nat := l % 8

/-- The slice that owns a leaf (R241). -/
def leafSlice (s : State) (l : Nat) : Nat := l % 131072 / (131072 / nSlices s)

/-- Key of a node: level and number. -/
def nodeKey (level n : Nat) : Nat := level * 1048576 + n

def node (s : State) (level n : Nat) : Node := tget s.sch.nodes (nodeKey level n)

def setNode (level n : Nat) (f : Node → Node) (s : State) : State :=
  { s with sch := { s.sch with nodes := tupd s.sch.nodes (nodeKey level n) f } }

/-- Parent of a node, if it has one. -/
def parent (s : State) (level n : Nat) : Option Nat :=
  match (node s level n).cfg.parent with
  | 0 => none
  | p + 1 => some p

/-- The subgroup, group and port above a leaf. -/
def leafPath (s : State) (l : Nat) : Option (Nat × Nat × Nat) := do
  let sg ← parent s 3 l
  let g ← parent s 2 sg
  let p ← parent s 1 g
  pure (sg, g, p)

/-- The port that a leaf is scheduled on; `none` when it hangs from none (R280). -/
def leafPort (s : State) (l : Nat) : Option Nat := (leafPath s l).map fun x => x.2.2

/-- A replication leaf: in the top octet of its slice's range (R280). -/
def isReplLeaf (s : State) (l : Nat) : Bool :=
  let r := 131072 / nSlices s
  r - 8 ≤ l % 131072 % r

/-- The queue hierarchy holds the port's level-0 node. -/
def hasPortNode (s : State) (p : Nat) : Bool := s.img.run.isSome && (img s).queues.ports.contains p

def leafSt (s : State) (l : Nat) : Leaf := tget s.sch.leaves l

def setLeaf (l : Nat) (f : Leaf → Leaf) (s : State) : State :=
  { s with sch := { s.sch with leaves := tupd s.sch.leaves l f } }

/-- Takes the cells of a frame from a leaf's DEPTH (R301). -/
def depthSub (l n : Nat) : State → State := setLeaf l fun x => { x with depth := x.depth - n }

/-! ## Rings (R369 to R380) -/

/-- Key of a requester's ring. -/
def ringKey (req r : Nat) : Nat := req * 256 + r

def ringSt (s : State) (req r : Nat) : Ring := tget s.hif.rings (ringKey req r)

def setRing (req r : Nat) (f : Ring → Ring) (s : State) : State :=
  { s with hif := { s.hif with rings := tupd s.hif.rings (ringKey req r) f } }

/-- A ring exists: ring 0 of a requester always, others once created (R369, R375). -/
def ringExists (s : State) (req r : Nat) : Bool :=
  (req = mgr || sliceOn s req) && (r = 0 || (ringSt s req r).ex)

/-- The linear value of an index (R370). -/
def lin (k i : Nat) : Nat := i / 65536 * 2 ^ k + i % 65536

/-- The occupancy between a producer and a consumer index (R370). -/
def occupancy (k p c : Nat) : Nat := (lin k p + 2 ^ (k + 1) - lin k c) % 2 ^ (k + 1)

/-- The index after an index: the wrap bit toggles past the last position (R370). -/
def idxNext (k i : Nat) : Nat :=
  if i % 65536 + 1 < 2 ^ k then i + 1 else if i / 65536 = 0 then 65536 else 0

/-- Entries handed over and not completed. -/
def handed (g : Ring) : Nat := occupancy g.log2 g.prod g.cons

/-- Handed-over entries that have been fetched. -/
def covered (g : Ring) : List (Nat × List Word) := g.fetched.take (handed g)

/-- The descriptor at a submission ring's consumer index, fetched and handed over. -/
def headEntry (g : Ring) : Option (List Word) :=
  match g.fetched with
  | (i, d) :: _ => if i = g.cons && g.prod ≠ g.cons then some d else none
  | [] => none

/-- The consumer index moves on: the entry's fetched words, its doorbell and what its command kept are gone; a ring that the
stand-in serves goes back to its home engine once no fetched command waits (R361, R370). -/
def ringAdvance (g : Ring) : Ring :=
  let g := { g with
    iter := none, busy := none,
    fetched := match g.fetched with
      | (i, e) :: l => if i = g.cons then l else (i, e) :: l
      | [] => [],
    stamps := g.stamps.filter fun x => x.1 ≠ g.cons,
    bells := match g.bells with
      | (i, n) :: l => if i = idxNext g.log2 g.cons then l else (i, n) :: l
      | [] => [],
    cons := idxNext g.log2 g.cons }
  { g with lent := g.lent && !(covered g).isEmpty }

/-- A notice ring is full for the module (R374). -/
def ringFull (g : Ring) : Bool := !g.en || 2 ^ g.log2 ≤ occupancy g.log2 g.prod g.cons

/-- Free entries of a notice ring. -/
def ringRoom (g : Ring) : Nat := if g.en then 2 ^ g.log2 - occupancy g.log2 g.prod g.cons else 0

/-- Vectors of a requester: first and count (R368). -/
def vectorRange (s : State) (req : Nat) : Nat × Nat :=
  if req = mgr then (0, 128) else let n := 1920 / nSlices s; (128 + req * n, n)

/-- Sends an MSI-X message, or sets its pending bit while the vector is masked (PCIe MSI-X rules; log 18). -/
def sendVector (v : Nat) (s : State) : State :=
  let ctl := match tget s.hif.msixTab (v * 4 + 3) with
    | some w => w
    | none => 1
  if bit ctl 0 then
    { s with hif := { s.hif with msixPend := if s.hif.msixPend.contains v then s.hif.msixPend else v :: s.hif.msixPend } }
  else emitHost (.msix v) s

/-- The interrupt of a ring that has written an entry (R368): at once, or at the end of its holdoff. -/
def ringIrq (req r : Nat) (s : State) : State :=
  let g := ringSt s req r
  if g.irqEn && g.vector ≠ 0x7FF then
    match g.lastIrq with
    | some x =>
      if s.tim.frc < x + g.holdoff * 1000 then setRing req r (fun g => { g with irqDue := true }) s
      else sendVector ((vectorRange s req).1 + g.vector) (setRing req r (fun g => { g with lastIrq := some s.tim.frc }) s)
    | none => sendVector ((vectorRange s req).1 + g.vector) (setRing req r (fun g => { g with lastIrq := some s.tim.frc }) s)
  else s

/-- Writes one entry of a notice ring that has room: PHASE is the inverse of the producer's wrap bit (R372). -/
def pushEntry (req r : Nat) (words : List Word) (s : State) : State :=
  let g := ringSt s req r
  let w0 := setBit (words.getD 0 0) 31 (g.prod / 65536 = 0)
  ringIrq req r <| ringCnt req r 0 1 <|
    setRing req r (fun g => { g with prod := idxNext g.log2 g.prod }) <|
      emitHost (.entry req r g.prod (w0 :: (words.drop 1 ++ List.replicate 16 0).take 15)) s

/-- The words of a notice (R379). -/
def noticeWords (typ src : Nat) (tag : Word) (t : Time80) (body : List Word) : List Word :=
  pack [(23, 16, typ), (15, 0, src)] :: tag :: (timeWords t ++ body)

/-- Posts a notice to an event ring; one that finds it full is lost (R380). -/
def postTo (req r typ src : Nat) (tag : Word) (t : Time80) (body : List Word) (s : State) : State :=
  let g := ringSt s req r
  if ringFull g then
    ringCnt req r 4 1 <| setRing req r (fun g =>
      { g with evtOverflow := true, lost := satAdd 32 g.lost 1, firstLoss := if g.lost = 0 then t else g.firstLoss }) s
  else pushEntry req r (noticeWords typ src tag t body) s

/-- The owner's first ring that a condition picks. -/
def findRing (s : State) (req : Nat) (f : Ring → Bool) : Option Nat :=
  (List.range 256).find? fun r => ringExists s req r && f (ringSt s req r)

/-- The DEFAULT event ring of a requester (R379). -/
def defaultRing (s : State) (req : Nat) : Option Nat := findRing s req fun g => g.kind = 7 && g.dflt

/-- The lowest-numbered enabled ring of a kind (R369). -/
def kindRing (s : State) (req kind : Nat) : Option Nat := findRing s req fun g => g.kind = kind && g.en

/-- Posts a notice at an instant to a requester's DEFAULT event ring; with none it is lost and counted (R380). -/
def postAt (req typ src : Nat) (tag : Word) (t : Time80) (body : List Word) (s : State) : State :=
  match defaultRing s req with
  | some r => postTo req r typ src tag t body s
  | none => ringCnt req 0 6 1 s

/-- Posts a notice now to a requester's DEFAULT event ring. -/
def post (req typ src : Nat) (body : List Word) (s : State) : State := postAt req typ src 0 s.tim.now body s

/-- The manager's event ring has room. -/
def mgrRoom (s : State) : Bool := (defaultRing s mgr).any fun r => !ringFull (ringSt s mgr r)

/-- Posts the TOD backlog in notices of up to 32 B while the manager's event ring has room (R116). -/
def postTod : Nat → State → State
  | 0, s => s
  | n + 1, s =>
    let bs := s.tim.todBacklog.take 32
    if bs.isEmpty || !mgrRoom s then s
    else postTod n (post mgr 0x2A bs.length (wordsOf 8 bs) { s with tim := { s.tim with todBacklog := s.tim.todBacklog.drop 32 } })

/-- The event ring of a command ring: its EVT_RING if that is an event ring of the owner, else DEFAULT (R376). -/
def evtRingOf (s : State) (req r : Nat) : Option Nat :=
  let e := (ringSt s req r).evtRing
  if ringExists s req e && (ringSt s req e).kind = 7 then some e else defaultRing s req

/-- A ring error: the flag is set by the caller; RING_ERROR is posted to the ring's event ring (R371, R373). -/
def ringError (req r : Nat) (s : State) : State :=
  let g := ringSt s req r
  let body := [pack [(6, 6, g.phaseErr.toNat), (5, 5, g.dbErr.toNat)]]
  match evtRingOf s req r with
  | some e => postTo req e 0x04 r 0 s.tim.now body s
  | none => ringCnt req 0 6 1 s

/-- Stops a ring as RING_CTL.EN cleared (R378). -/
def ringStop (req r : Nat) : State → State := setRing req r fun g => { g with en := false }

/-! ## Completions (R330, R331, R338) -/

/-- A descriptor with words replaced. -/
def withWords (desc : List Word) (ret : List (Nat × Word)) : List Word :=
  ret.foldl (fun d x => d.set x.1 x.2) ((desc ++ List.replicate 16 0).take 16)

/-- The completion of the command at the ring's consumer index: the words it returns, then w0 with PHASE 0 and STATUS; the
index advances, ENTRIES counts, CMD_DONE follows under NTF. -/
def completeWith (req r : Nat) (desc : List Word) (status : Nat) (ret : List (Nat × Word)) (s : State) : State :=
  let g := ringSt s req r
  let d := withWords desc ret
  let w0 := setFld (setBit (d.getD 0 0) 31 false) 15 8 status
  let s := emitHost (.completion req r g.cons (d.set 0 w0)) s
  let s := setRing req r ringAdvance s
  let s := ringIrq req r (ringCnt req r 0 1 s)
  if g.kind = 0 && bit w0 18 then
    match evtRingOf s req r with
    | some e => postTo req e 0x01 r (d.getD 1 0) s.tim.now [word status] s
    | none => ringCnt req 0 6 1 s
  else s

/-! ## Buffers (R249 to R256) -/

/-- Buffer sizes of the pools. -/
def poolSize : Nat → Nat
  | 0 => 256
  | 1 => 1024
  | 2 => 4096
  | _ => 10240

def poolCount (s : State) (t k : Nat) : Nat := rfld s .bufPoolCfg t k 15 0

/-- A handle (R13). -/
def handleOf (k t i : Nat) : Nat := k * 1073741824 + t * 134217728 + i

def handleTile (h : Nat) : Nat := h / 134217728 % 8
def handlePool (h : Nat) : Nat := h / 1073741824 % 4

def buf (s : State) (h : Nat) : Buf := tget s.fab.bufs h

def setBuf (h : Nat) (f : Buf → Buf) (s : State) : State :=
  { s with fab := { s.fab with bufs := tupd s.fab.bufs h f } }

/-- A handle names a buffer of its pool. -/
def handleOk (s : State) (h : Nat) : Bool := h % 134217728 < poolCount s (handleTile h) (handlePool h)

/-- Buffers of a tile's pool in state ALLOC. -/
def poolUsed (s : State) (t k : Nat) : Nat :=
  (s.fab.bufs.filter fun x => x.2.alloc && handleTile x.1 = t && handlePool x.1 = k).length

def poolFree (s : State) (t k : Nat) : Nat := poolCount s t k - poolUsed s t k

/-- Users of the pools (R250). -/
inductive PoolUser where
  | pull
  | parked
  | host (slice : Nat)
  | punt (slice : Nat)
  | manager
deriving DecidableEq, Repr

/-- Host-user buffers of one slice in the pool: those of its rings and of its host port (R250, R253). -/
def hostUsed (s : State) (t k slice : Nat) : Nat :=
  (s.fab.bufs.filter fun x =>
    x.2.alloc && handleTile x.1 = t && handlePool x.1 = k && (x.2.tag / 256 = 3 * 16 + slice || x.2.tag = 512 + slice)).length

/-- A pool counts as exhausted for a user (R251). -/
def exhausted (s : State) (t k : Nat) : PoolUser → Bool
  | .pull => poolFree s t k ≤ min (rfld s .bufPoolCfg t k 31 16) (poolCount s t k)
  | .parked => poolFree s t k = 0
  | .manager => poolFree s t k = 0
  | .host sl => poolFree s t k = 0 || rfld s .bufHostLim t k 15 0 ≤ hostUsed s t k sl
  | .punt sl =>
    poolFree s t k ≤ min (rfld s .bufPoolCfg t k 31 16) (poolCount s t k) || rfld s .bufHostLim t k 15 0 ≤ hostUsed s t k sl

/-- The pool a user gets for a length, with the fall-throughs met (R251). -/
def choosePool (s : State) (t len : Nat) (u : PoolUser) : Option (Nat × Nat) :=
  let fit := (List.range 4).filter fun k => len ≤ poolSize k
  match fit.find? fun k => !exhausted s t k u with
  | some k => some (k, (fit.takeWhile (· ≠ k)).length)
  | none => none

/-- The lowest free index of a pool. -/
def freeIndex (s : State) (t k : Nat) : Nat :=
  ((List.range (poolCount s t k)).find? fun i => !(buf s (handleOf k t i)).alloc).getD 0

/-- Takes a buffer in a pool, setting state, count and tag in one step (R253), and keeps LOW. -/
def takeBuf (t k cnt tag : Nat) (s : State) : State × Nat :=
  let h := handleOf k t (freeIndex s t k)
  let s := setBuf h (fun _ => { alloc := true, count := cnt, tag := tag }) s
  let low := rfld s .bufPoolFree t k 31 16
  (rset .bufPoolFree t k 31 16 (min low (poolFree s t k)) s, h)

/-- Allocates for a user under R251; `none` when every pool is exhausted for it. -/
def allocFor (t len : Nat) (u : PoolUser) (tag : Nat) (s : State) : Option (State × Nat) :=
  match choosePool s t len u with
  | some (k, falls) => some (takeBuf t k 1 tag (tileCnt t (16 + 9) falls s))
  | none => none

/-- One free performed by the module or the owner: the count falls and at 0 the buffer becomes FREE. -/
def bufRelease (h : Nat) : State → State :=
  setBuf h fun b => if b.count ≤ 1 then {} else { b with count := b.count - 1 }

/-- Completes the settled descriptors at the head of a TX ring, in ring order (R382). -/
def txFlush (req r : Nat) : List TxTaken → State → State
  | [], s => s
  | x :: l, s =>
    match x.done with
    | none => s
    | some (st, ret) =>
      txFlush req r l (iff_ (st = 0) (ownerCnt req 6 1)
        (completeWith req r x.desc st ret (setRing req r (fun g => { g with taken := l }) s)))

/-- A frame made of a TX descriptor has left or is gone: its handed-over buffer is freed and a descriptor that waits for it
completes. Other frames are not concerned. -/
def frameOver (fid st : Nat) (ret : List (Nat × Word)) (s : State) : State :=
  let mine (x : TxTaken) : Bool := x.fid = fid && x.done.isNone
  let s := forEach (s.hif.txBufs.filter fun x => x.1 = fid) (fun x => bufRelease x.2) s
  let s := { s with hif := { s.hif with txBufs := s.hif.txBufs.filter fun x => x.1 ≠ fid } }
  forEach (s.hif.rings.filter fun x => x.2.taken.any mine) (fun x s =>
    let l := x.2.taken.map fun d => if mine d then { d with done := some (st, ret) } else d
    txFlush (x.1 / 256) (x.1 % 256) l (setRing (x.1 / 256) (x.1 % 256) (fun g => { g with taken := l }) s)) s

/-- A frame was discarded: a TS descriptor completes NOT_FOUND with w2 to w4 at 0 (R382). -/
def frameGone (fid : Nat) : State → State := frameOver fid 0x02 [(2, 0), (3, 0), (4, 0)]

/-- Frees every buffer that a condition on its handle and record picks (R256). -/
def bufFreeAll (f : Nat → Buf → Bool) (s : State) : State :=
  { s with fab := { s.fab with bufs := s.fab.bufs.filter fun x => !f x.1 x.2 } }

/-! ## Packet memory

Buffers lie at 2^40 + handle × 16,384 and DRAM cells at (tile × 2^26 + index) × 256 of one byte memory (log 13). -/

def bufAddr (h off : Nat) : Nat := 1099511627776 + h * 16384 + off

def dramAddr (t idx off : Nat) : Nat := (t * 67108864 + idx) * 256 + off

def readMem (s : State) (a n : Nat) : List Byte := memRead s.mem a n

def writeMem (a : Nat) (bs : List Byte) (s : State) : State := { s with mem := memWrite s.mem a bs }

/-! ## Patterns, wires and the store -/

/-- The tile of position k of a pattern for source t (R215). -/
def patTile (pat t k : Nat) : Nat :=
  if 8 ≤ pat then (t + k) % 8
  else (((List.range 8).map fun j => (t + j) % 8).filter (· ≠ pat)).getD k t

/-- Positions of a pattern. -/
def patLen (pat : Nat) : Nat := if 8 ≤ pat then 8 else 7

/-- The tiles of a pattern in position order. -/
def patTiles (pat t : Nat) : List Nat := (List.range (patLen pat)).map (patTile pat t)

/-- The pattern code of new stripes at a tile (LAT_CAL_STAT.PATTERN). -/
def patternAt (s : State) (t : Nat) : Nat := rfld s .latCalStat t 0 11 8

/-- Puts a message on the link from a tile to a tile, or into the tile's own store path. -/
def send (src dst : Nat) (m : Msg) (s : State) : State :=
  { s with fab := { s.fab with wires := s.fab.wires ++ [wireOf src dst m] } }

/-- Cells held for a slice at a tile (R241): BUF_SLICE_OCC. -/
def sliceOcc (s : State) (t sl : Nat) : Nat := (s.fab.held.filter fun h => h.tile = t && h.slice = sl).length

/-- Cells of a leaf held at a tile. -/
def leafHeld (s : State) (t l : Nat) : List Held := s.fab.held.filter fun h => h.tile = t && h.cell.leaf = l

/-- The frame of a notice in positions: (ssn, pos) of each cell, in order (R214). -/
def notePositions (n : Notice) : List (Nat × Nat) :=
  (List.range n.cells).map fun i => ((n.ssn + (n.pos + i) / patLen n.pattern) % 65536, (n.pos + i) % patLen n.pattern)

/-- Two notices name the same frame: source, leaf and first cell. -/
def sameFrame (a b : Notice) : Bool := a.src = b.src && a.leaf = b.leaf && a.ssn = b.ssn && a.pos = b.pos

/-- A tile has been told that a tile is fenced: LAT_CAL_STAT.FENCED. -/
def knowsFenced (s : State) (t f : Nat) : Bool := rfld s .latCalStat t 0 (16 + f) (16 + f) = 1

/-- Evicts a frame whose NOTICE a tile holds (R228 step 3): EVICT goes to every tile of its pattern. -/
def evictNote (t : Nat) (n : Notice) (s : State) : State :=
  let s := { s with fab := { s.fab with notices := s.fab.notices.filter fun m => !(sameFrame m n) } }
  let s := frameGone n.fid (depthSub n.leaf n.cells s)
  tileCnt t 10 1 (forEach (patTiles n.pattern n.src) (fun d => send t d (.evict n)) s)

/-- NOTICEs of the frames of a port's leaves with no PULL issued. -/
def portNotes (s : State) (p : Nat) : List Notice := s.fab.notices.filter fun n => leafPort s n.leaf = some p

/-- A frame of a leaf is discarded and counted in the leaf's and the tile's drop counters (R259, R260), and in DROPS (R423). -/
def dropLeaf (l leafIdx tileIdx : Nat) (s : State) : State :=
  ownerCnt (leafSlice s l) 4 1 (tileCnt (leafTile l) tileIdx 1 (leafDrop l leafIdx s))

end Sys2Proof.Machine
end

