-- ==== Sys2Proof/Machine/DramRows.lean ====
section
/-! DEFINITION. Stacked DRAM below the controllers: cell indices, row activates, the progress of a migration, queues (R261, R262,
R264, R268, R270, R272). -/
namespace Sys2Proof.Machine

def channel (s : State) (c : Nat) : Channel := tget s.dram c

def setChannel (c : Nat) (f : Channel → Channel) (s : State) : State := { s with dram := tupd s.dram c f }

/-! ## Addresses (R261, R262) -/

/-- Global channel of a cell index of a tile. -/
def cellChannel (t idx : Nat) : Nat := t * 8 + idx % 8

/-- Logical rank of a cell index. -/
def cellLrank (idx : Nat) : Nat := idx / 8388608 % 8

/-- Bank and row of a cell index. -/
def cellBank (idx : Nat) : Nat := idx / 8 % 16
def cellLine (idx : Nat) : Nat := idx / 1024 % 8192

/-- Row position of a cell index, bank then row, as the migrator copies them (R273). -/
def cellRow (idx : Nat) : Nat := cellBank idx * 8192 + cellLine idx

/-- Rows of a rank. -/
def allRows : Nat := 131072

/-- The logical rank of a cell has no storage: its remap entry reads 0xF (R262). -/
def rankGone (s : State) (t idx : Nat) : Bool := (channel s (cellChannel t idx)).remap.getD (cellLrank idx) 15 = 15

/-! ## Row-disturb protection (R268) -/

/-- K of DRM_RD_CFG. -/
def rowK (s : State) (t : Nat) : Nat := 8 + min 8 (rfld s .drmRdCfg t 0 3 0)

/-- Rows around a row: at ±1, with NEAR2 also at ±2. -/
def rowsAround (near2 : Bool) (row : Nat) : List Nat :=
  (if near2 then [row + 8192 - 2, row + 8192 - 1, row + 8192 + 1, row + 8192 + 2] else [row + 8192 - 1, row + 8192 + 1]).filterMap fun r =>
    if 8192 ≤ r && r < 16384 then some (r - 8192) else none

/-- A row activate draws a random number, a free value, and refreshes the rows around with probability 2^-K. -/
def activate (c r bank row : Nat) (s : State) : State :=
  let hit : Bool := drawn s % 2 ^ rowK s (c / 8) = 0
  let rows := rowsAround (rfld s .drmRdCfg (c / 8) 0 4 4 = 1) row
  iff_ hit (fun s => drmCnt c r 4 rows.length (emit (.neighbour c r bank rows) s)) (advanceFree s)

/-! ## Migrations (R270, R272) -/

/-- SHARE of DRM_MIG_CTL. -/
def migShare (s : State) (t : Nat) : Nat := min 2 (rfld s .drmMigCtl t 0 1 0)

/-- Rows copied of a migration: an automatic one goes on at the rate of R272, 7.68 GB/s × 2^SHARE in rows of 2 KiB (log 105). -/
def migCopied (s : State) (ch : Nat) : Nat :=
  let c := channel s ch
  if c.migState = 1 && !c.draining then min allRows (c.migPos + (s.tim.frc - c.migAt) * 3 * 2 ^ migShare s (ch / 8) / 800) else c.migPos

/-- Rows lo to hi of a rank are copied to the spare: each is activated in both, and counted. -/
def copyRows (ch phys lo hi : Nat) (s : State) : State :=
  let s := forEach (List.range (hi - lo)) (fun k s =>
    let pos := lo + k
    activate ch 8 (pos / 8192) (pos % 8192) (activate ch phys (pos / 8192) (pos % 8192) s)) s
  drmCnt ch phys 6 (hi - lo) s

/-- The rows that an automatic migration has copied by now become its position. -/
def settleMig (ch : Nat) (s : State) : State :=
  iff_ ((channel s ch).migState = 1 && !(channel s ch).draining) (fun s =>
    let c := channel s ch
    let hi := migCopied s ch
    setChannel ch (fun c => { c with migPos := hi, migAt := s.tim.frc }) (copyRows ch (c.remap.getD c.migLrank 15) c.migPos hi s)) s

/-- A migration runs in a cell's logical rank: its writes also go to the spare. -/
def mirrored (s : State) (t idx : Nat) : Bool :=
  let c := channel s (cellChannel t idx)
  c.migState ≠ 0 && c.migLrank = cellLrank idx

/-- The physical rank that serves a cell: the spare for a row already copied, and the rank that a cell still held lies in once
its logical rank has no storage (R270). -/
def cellRank (s : State) (t idx : Nat) : Nat :=
  let c := channel s (cellChannel t idx)
  let k := cellLrank idx
  if mirrored s t idx && cellRow idx < migCopied s (cellChannel t idx) then 8
  else if rankGone s t idx then tget c.lost k else c.remap.getD k 15

/-- The row activates of an access to a cell; a write in a mirrored rank also meets the spare. -/
def touchCell (t idx : Nat) (write : Bool) (s : State) : State :=
  let c := cellChannel t idx
  let r := cellRank s t idx
  let both : Bool := write && mirrored s t idx
  let src := (channel s c).remap.getD (cellLrank idx) 15
  iff_ both (activate c 8 (cellBank idx) (cellLine idx)) (activate c (if both then src else r) (cellBank idx) (cellLine idx) s)

/-- The copy of a cell that serves it carries a poison mark (R270 step 4a). -/
def cellMarked (s : State) (t idx : Nat) : Bool :=
  cellRank s t idx = 8 && (channel s (cellChannel t idx)).marks.contains idx

/-! ## Queues (R264 to R266) -/

/-- The index of a held cell whose request stands in a channel's queue. -/
def queuedAt (h : Held) : Option Nat := match h.place with
  | .spilling i => some i
  | .reading i => some i
  | _ => none

/-- Requests in a tile's channel queues. -/
def queuedIn (s : State) (t : Nat) : List Nat := (s.fab.held.filter (·.tile = t)).filterMap queuedAt

/-- Requests in the queue of a channel. -/
def channelLoad (s : State) (ch : Nat) : Nat := ((queuedIn s (ch / 8)).filter fun i => i % 8 = ch % 8).length

/-- A channel's queue takes no more: 1,024 of its own, 8,192 of its tile. -/
def channelFull (s : State) (ch : Nat) : Bool := 1024 ≤ channelLoad s ch || 8192 ≤ (queuedIn s (ch / 8)).length

def setHeldPlace (t : Nat) (old new : Place) (s : State) : State :=
  { s with fab := { s.fab with held := s.fab.held.map fun h => if h.tile = t && h.place = old then { h with place := new } else h } }

/-- The write buffer's cells of a tile, oldest first. -/
def buffered (s : State) (t : Nat) : List Nat := (s.fab.held.filter (·.tile = t)).filterMap fun h => match h.place with
  | .buffered i => some i
  | _ => none

/-- The cells that wait in SRAM for the write buffer, oldest first. -/
def waitingCells (s : State) (t : Nat) : List Nat := (s.fab.held.filter (·.tile = t)).filterMap fun h => match h.place with
  | .waiting i => some i
  | _ => none

/-- Writes go from the write buffer to their channels in order, as long as the next finds room. -/
def issueWrites (t : Nat) : Nat → State → State
  | 0, s => s
  | n + 1, s =>
    match buffered s t with
    | i :: _ => if channelFull s (cellChannel t i) then s else issueWrites t n (setHeldPlace t (.buffered i) (.spilling i) s)
    | [] => s

/-- Cells that wait in SRAM enter the write buffer of 2,048 cells in order. -/
def fillBuffer (t : Nat) : Nat → State → State
  | 0, s => s
  | n + 1, s =>
    match waitingCells s t with
    | i :: _ => if 2048 ≤ (buffered s t).length then s else fillBuffer t n (setHeldPlace t (.waiting i) (.buffered i) s)
    | [] => s

/-- A held cell of a tile waits to be read. -/
def readWaits (s : State) (t idx : Nat) : Bool := s.fab.held.any fun h => h.tile = t && h.place = .dram idx && h.pulled && !h.poison

/-- Reads go to their channels in the order asked for, as long as the next finds room. -/
def issueReads (t : Nat) : List (Nat × Nat) → State → State
  | [], s => s
  | x :: l, s =>
    if x.1 ≠ t || !readWaits s t x.2 then issueReads t l s
    else if channelFull s (cellChannel t x.2) then s
    else issueReads t l (setHeldPlace t (.dram x.2) (.reading x.2) s)

/-- A tile's DRAM sources issue what they can. -/
def pumpDram (t : Nat) (s : State) : State :=
  let n := s.fab.held.length
  let s := issueWrites t n (fillBuffer t n (issueWrites t n s))
  issueReads t s.fab.reads s

/-- The oldest read of a tile that is in flight. -/
def oldestRead (s : State) (t : Nat) : Option Nat :=
  (s.fab.reads.find? fun x => x.1 = t && s.fab.held.any fun h => h.tile = t && h.place = .reading x.2).map (·.2)

/-- The spill writer is held up: its write buffer is full (R266). -/
def writeHeld (s : State) (t : Nat) : Bool := 2048 ≤ (buffered s t).length

end Sys2Proof.Machine
end

