-- ==== Sys2Proof/Machine/Units.lean ====
section
/-! DEFINITION. Operations on whole units: ports going down, flushing, fault reports with what they fence, engines and their
stand-ins, rank retirement, the safe state, and the resets of R70. -/
namespace Sys2Proof.Machine

/-! ## Frames and ports -/

def frame? (s : State) (fid : Nat) : Option Frame := s.frames.find? fun f => f.fid = fid

def setFrame (fid : Nat) (g : Frame → Frame) (s : State) : State :=
  { s with frames := s.frames.map fun f => if f.fid = fid then g f else f }

/-- Discards a frame in its source tile; its landing cells are free again (R237). The frame's own tail is still to be counted
where it has not come. -/
def dropFrame (fid : Nat) (s : State) : State :=
  { s with frames := (s.frames.filter fun f => f.fid ≠ fid || !f.tailSeen).map fun f =>
      if f.fid = fid then { f with phase := .dropped, landing := 0, deals := [] } else f }

/-- Gates kept open for the frame under way take their new state (R295). -/
def endKeep (p : Nat) (s : State) : State :=
  { s with sch := { s.sch with
      gates := tupd s.sch.gates p (fun g => { g with keep := none })
      sgates := tmap (fun _ g => if g.bind.any (fun b => b.1 = p) then { g with keep := none } else g) s.sch.sgates } }

/-- An express frame's leaf and transmitter are free again (R20). -/
def freeExpress (f : Frame) (s : State) : State :=
  setPort f.egress (fun q => { q with reserved := false }) (setLeaf f.leaf (fun l => { l with express := false }) s)

/-- An express frame is on its link (R220). -/
def expressFlies (s : State) (fid : Nat) : Bool :=
  s.fab.wires.any fun w => match w.msg with
    | .express sl _ _ => sl.fid = fid
    | _ => false

/-- Frees the buffer of what a slot holds; an express frame that never parked has none. -/
def slotRelease (sl : Slot) (s : State) : State := if sl.express && !sl.parked then s else bufRelease sl.handle s

/-- An express frame is bad or lost: cut with an inverted FCS where it has started, else dropped (R21, R96). -/
def expressBad (f : Frame) (s : State) : State :=
  let mine (sl : Slot) : Bool := sl.fid = f.fid
  let s := { s with
    frames := s.frames.filter (fun g => g.fid ≠ f.fid),
    fab := { s.fab with wires := s.fab.wires.filter fun w => match w.msg with
      | .express sl _ _ => !mine sl
      | _ => true } }
  let s := frameGone f.fid (freeExpress f s)
  let q := port s f.egress
  let s := if q.tx.any mine then
      portCnt f.egress 22 1 (emit (.abort f.egress) (endKeep f.egress (setPort f.egress (fun q => { q with tx := none }) s)))
    else s
  let s := forEach ((q.slots.filterMap (·.2) ++ q.parked).filter mine) slotRelease s
  setPort f.egress (fun q => { q with
    slots := tmap (fun _ x => if x.any mine then none else x) q.slots, parked := q.parked.filter fun sl => !mine sl }) s

/-- An express frame is lost before its tail has come: the tail is still to be counted. -/
def expressLost (f : Frame) (s : State) : State :=
  let s := expressBad f s
  if f.tailSeen then s else { s with frames := s.frames ++ [{ f with phase := .dropped, landing := 0, deals := [] }] }

/-- Landing cells in use by a pipeline. -/
def landingUsed (s : State) (g : Nat) : Nat := (s.frames.filter fun f => f.pipe = g).foldl (fun n f => n + f.landing) 0

/-- A copy of a multicast frame goes: with the last of them the frame is over. -/
def copyGone (sl : Slot) (s : State) : State := slotRelease sl (iff_ ((buf s sl.handle).count ≤ 1) (frameGone sl.fid) s)

/-- A multicast copy is dropped at a port: the tile's counter and its replication leaf's (R260). DROPS counts frames, not copies. -/
def dropCopy (p leafIdx tileIdx : Nat) (sl : Slot) (s : State) : State :=
  leafDrop sl.leaf leafIdx (tileCnt (portTile p) tileIdx 1 (copyGone sl s))

/-- Frees what a class slot holds when its port goes down (R258). A frame still being reassembled is dropped at its
completion instead. -/
def dropSlot (p : Nat) (sl : Slot) (s : State) : State :=
  if sl.copy then dropCopy p 2 (16 + 7) sl s
  else if sl.express then
    dropLeaf sl.leaf 2 (16 + 7) (setLeaf sl.leaf (fun l => { l with express := false }) (slotRelease sl (frameGone sl.fid s)))
  else if sl.ready then dropLeaf sl.leaf 2 (16 + 7) (slotRelease sl (frameGone sl.fid s))
  else s

/-- Frames already pulled for a port when it goes down: reassembly completes and drops, slots empty, a frame in transmission
is cut (R258). -/
def dropPulled (p : Nat) (s : State) : State :=
  let s := { s with fab := { s.fab with asms := s.fab.asms.map fun a => if a.port = p then { a with drop := true } else a } }
  let q := port s p
  let s := forEach (q.slots.filterMap (·.2) ++ q.parked) (dropSlot p) s
  let s := match q.tx with
    | some sl => emit (.abort p) (dropSlot p { sl with ready := true } s)
    | none => s
  endKeep p (setPort p (fun q => { q with slots := [], parked := [], tx := none, reserved := false }) s)

/-- Every frame of the port's leaves is evicted and every waiting copy dropped (R258). -/
def flushPort (p : Nat) (s : State) : State :=
  let s := forEach (portNotes s p) (fun n s => dropLeaf n.leaf 2 (16 + 7) (evictNote (portTile p) n s)) s
  let s := forEach (port s p).rq (fun c s => dropCopy p 2 (16 + 7) c.2 s) s
  setPort p (fun q => { q with rq := [] }) s

/-- HOLD_MS of a port's hold. -/
def holdMs (s : State) (p : Nat) : Nat := min 1000 (rfld s .bufPortHold (portTile p) (p % 64) 9 0)

/-- A port goes down: frames pulled are dropped; its leaves are held (R257) or flushed at once (R258). -/
def portGoDown (p : Nat) (flushNow : Bool) (s : State) : State :=
  let was := (port s p).up
  let s := iff_ was (portCnt p 36 1) (setPort p (fun q => { q with up := false, alignHeld := false }) s)
  let s := dropPulled p s
  if flushNow || isFabric s p || holdMs s p = 0 then
    setPort p (fun q => { q with hold := false, holdDone := true }) (flushPort p s)
  else if was then setPort p (fun q => { q with hold := true, holdDone := false }) s
  else s

/-- The port's transmitters are squelched: no remote fault is sent, and alignment must hold anew before it comes up (R93, R94). -/
def squelch (p : Nat) : State → State := setPort p fun q => { q with remoteFault := false, alignHeld := false }

/-- The module holds a port down with its transmitters squelched (R94). -/
def portHoldDown (p : Nat) (flushNow : Bool) (s : State) : State :=
  portGoDown p flushNow (setPort p (fun q => { q with heldDown := true }) (squelch p s))

/-- All existing Ethernet ports of a tile. -/
def tilePorts (s : State) (t : Nat) : List Nat := ((List.range 8).map fun g => groupPorts s (t * 8 + g)).flatten

/-- Secure associations: key of (port, direction, channel, AN). -/
def saKey (p dir ch an : Nat) : Nat := ((p * 2 + dir) * 8 + ch) * 4 + an

/-- Removes a port's secure associations and channels. -/
def clearSas (p : Nat) (s : State) : State :=
  { s with sas := s.sas.filter (fun x => x.1 / 64 ≠ p), chans := s.chans.filter fun x => x.1 / 64 ≠ p }

/-! ## The admission limit (R243) -/

/-- In-service cells of a tile's DRAM: 2^20 per logical rank that holds storage. -/
def tileCells (s : State) (t : Nat) : Nat :=
  ((List.range 8).map fun l => ((channel s (t * 8 + l)).remap.filter (· ≠ 15)).length * 1048576).foldl (· + ·) 0

/-- The steward's BUF_SLICE_LIMIT: the least in-service DRAM of a running tile, divided over the slices. -/
def sliceLimit (s : State) : Nat :=
  match runningTiles s with
  | [] => 0
  | t :: ts => ts.foldl (fun m u => min m (tileCells s u)) (tileCells s t) / nSlices s

/-- BUF_GUARD_PEAK follows the excess of a slice's holding over the limit (R246). -/
def guardPeak (t sl : Nat) (s : State) : State :=
  let excess := min 131071 (sliceOcc s t sl - rfld s .bufSliceLimit t 0 26 0)
  rset .bufGuardPeak t sl 16 0 (max (rfld s .bufGuardPeak t sl 16 0) excess) s

/-- The limit changes; a holding that stands above it shows at once. -/
def updateLimit (s : State) : State :=
  let s := forEach (List.range 8) (fun t => rset .bufSliceLimit t 0 26 0 (sliceLimit s)) s
  forEach ((s.fab.held.map fun h => (h.tile, h.slice)).eraseDups) (fun x => guardPeak x.1 x.2) s

/-! ## Faults: records and status (R399 to R403) -/

/-- The eight words of a record (R401). -/
def recWords (r : FaultRec) : List Word :=
  [pack [(15, 0, r.unit), (31, 16, r.code)],
   pack [(1, 0, r.cls), (2, 2, r.fenced.toNat), (3, 3, r.escalated.toNat), (6, 4, r.tile), (7, 7, r.platform.toNat), (31, 16, r.seq)]]
  ++ timeWords r.time ++ [word r.info, word r.addr, word (r.addr / 4294967296)]

/-- The tile a unit lies in, where it lies in one (R400). -/
def unitTile (u : Nat) : Option Nat :=
  let i := u % 4096
  match u / 4096 with
  | 1 => if i < 528 then some (portTile i) else none
  | 2 => some (i / 8)
  | 3 => some (i / 64)
  | 4 => some (i / 2)
  | 5 => some (i / 128)
  | 9 => some (i / 8)
  | 11 => some i
  | _ => none

/-- LOST, saturating at 65,535, and the FAULT counter of records not appended. -/
def countLost (s : State) : State :=
  faultCnt 4 (rset .fltStat 0 0 15 0 (satAdd 16 (rfld s .fltStat 0 0 15 0) 1) s)

/-- Step 3 of start-up has not completed (R87). -/
def beforeStep3 (s : State) : Bool := stage s < 3 || stage s = 0x80 || stage s = 0x82

/-- The FIFO is frozen: by an event, or until step 3 of start-up completes (R402). -/
def frozen (s : State) : Bool := pbit s .fltStat 30 || beforeStep3 s

/-- Appends a record, or loses it to a frozen or full FIFO (R402); an appended record is posted to the manager. -/
def appendRec (r : FaultRec) (s : State) : State :=
  if frozen s then countLost s
  else if 64 ≤ s.flt.fifo.length then pset .fltStat 29 true (countLost s)
  else
    let r := { r with seq := s.flt.seq, time := s.tim.now }
    let s := { s with flt := { s.flt with fifo := s.flt.fifo ++ [r], seq := (s.flt.seq + 1) % 65536 } }
    let s := faultCnt (16 + r.unit / 4096) (faultCnt r.cls s)
    faultCnt 5 (post mgr 0x48 r.unit (recWords r) s)

/-- Freezes the FIFO (R402). -/
def freezeFifo : State → State := pset .fltStat 30 true

/-! ## The safe state (R409, R410) -/

def enterSafe (s : State) : State :=
  if inSafe s then s
  else forEach (((List.range 8).map (tilePorts s)).flatten) (fun p => portHoldDown p false) (pset .fltStat 31 true (freezeFifo s))

/-! ## Engines (R352, R360 to R362) -/

def engine (s : State) (e : Nat) : Engine := tget s.engines e

def setEngine (e : Nat) (f : Engine → Engine) (s : State) : State := { s with engines := tupd s.engines e f }

/-- The tile's other engine. -/
def otherEngine (e : Nat) : Nat := if e % 2 = 0 then e + 1 else e - 1

/-- An engine that executes commands. -/
def engineUp (s : State) (e : Nat) : Bool := (engine s e).running && !(engine s e).fenced && !(engine s e).inReset

/-- The engine that serves a home engine's rings now, if the tile has one (R361). -/
def servingEngine (s : State) (home : Nat) : Option Nat :=
  if engineUp s home then some home else if engineUp s (otherEngine home) then some (otherEngine home) else none

/-- The engine that serves a ring now: the stand-in keeps a ring whose fetched commands wait when the home engine returns (R361). -/
def ringEngine (s : State) (g : Ring) : Option Nat :=
  if g.lent && engineUp s (otherEngine g.engine) then some (otherEngine g.engine) else servingEngine s g.engine

/-- The home engine now: the stand-in after a hand-over, the engine the ring was created on where neither runs (R349, R361). -/
def homeNow (s : State) (g : Ring) : Nat := (ringEngine s g).getD g.engine

/-- Command rings whose home is now an engine, as (requester, ring). -/
def homedRings (s : State) (e : Nat) : List (Nat × Nat) :=
  (s.hif.rings.filter fun x => x.2.ex && x.2.kind = 0 && homeNow s x.2 = e).map fun x => (x.1 / 256, x.1 % 256)

/-- The stand-in of an engine serves a ring that is not yet back on its home engine (R361). -/
def lends (s : State) (e : Nat) : Bool :=
  s.hif.rings.any fun x => x.2.ex && x.2.kind = 0 && x.2.lent && x.2.engine = otherEngine e

/-- Rings that were created on an engine and have fetched commands stay with the stand-in when it returns (R361). -/
def lendRings (e : Nat) (s : State) : State :=
  let up := engineUp s (otherEngine e)
  let one (_ : Nat) (g : Ring) : Ring :=
    if g.engine = e then { g with lent := up && g.ex && g.kind = 0 && !(covered g).isEmpty } else g
  { s with hif := { s.hif with rings := tmap one s.hif.rings } }

/-- A write to a tile's DRAM has been issued and has not completed (R265, R339). -/
def dramWritesOpen (s : State) (t : Nat) : Bool :=
  s.fab.held.any fun h => h.tile = t && match h.place with
    | .buffered _ => true
    | .spilling _ => true
    | _ => false

/-- Opcode of a descriptor (R332). -/
def opcodeOf (d : List Word) : Nat := fld (d.getD 0 0) 30 20

/-- The words an iterative command returns with its cursor: the totals of FLUSHP and AGE (R334, R343). -/
def iterWords (it : Iter) : List (Nat × Word) :=
  [(2, word it.cursor.toNat), (3, word (it.cursor.toNat / 4294967296))] ++
  (if opcodeOf it.desc = 0x45 then [(12, word it.tot1)]
   else if opcodeOf it.desc = 0x46 then [(12, word it.tot1), (13, word it.tot2)] else [])

/-- A commanded migration that stops before its last row waits for its resumption (R274). -/
def migWaits (c : Channel) : Channel := if c.migState = 2 && !c.draining then { c with migState := 3 } else c

/-- The global channel that a MEM.MIG names. -/
def migChannel (d : List Word) : Nat := fld (d.getD 4 0) 2 0 * 8 + fld (d.getD 4 0) 5 3

/-- What the end of an iterative command before its walk's end leaves: a migration awaits resumption. -/
def iterStops (d : List Word) (s : State) : State :=
  if opcodeOf d = 0x285 then setChannel (migChannel d) migWaits s else s

/-- An iterative command in progress ends PARTIAL with its last cursor (R345). -/
def endPartial (req r : Nat) (s : State) : State :=
  match (ringSt s req r).iter with
  | some it => iterStops it.desc (completeWith req r it.desc 0x01 (iterWords it) s)
  | none => s

/-- Completes every fetched command of a ring with one status (R345, R362). -/
def completeFetched (req r status : Nat) (s : State) : State :=
  let g := ringSt s req r
  forEach (g.fetched.take (occupancy g.log2 g.prod g.cons)) (fun x => completeWith req r x.2 status []) s

/-- Both engines of a tile are out: the steward completes the fetched commands FENCED_UNIT and reports the pair (R362). -/
def pairLost (t : Nat) (s : State) : State :=
  let rings := homedRings s (2 * t) ++ homedRings s (2 * t + 1)
  post mgr 0x41 t [] (forEach rings (fun x => completeFetched x.1 x.2 0x09) s)

/-- The opcodes of the iterative commands (R343): TBL.NEXT, TBL.FLUSHP, TBL.AGE, CNT.DUMP, MEM.MIG. -/
def iterativeOp (op : Nat) : Bool := [0x44, 0x45, 0x46, 0x243, 0x285].contains op

/-- The command whose microcode an immediate stop interrupts ends: an iterative one PARTIAL with its latest cursor, another SQUASHED
with its entry writes in w2 (R345, R360). -/
def squashRunning (e : Nat) (s : State) : State :=
  let g := engine s e
  match g.cmd with
  | some (q, r) =>
    match (ringSt s q r).fetched with
    | (_, d) :: _ =>
      if iterativeOp (opcodeOf d) then
        completeWith q r d 0x01 (g.stepped.toList.map (fun c => [(2, c.1), (3, c.2)])).flatten s
      else completeWith q r d 0x08 [(2, word g.writes)] s
    | [] => s
  | none => s

/-- Takes an engine out of service: its iterative commands end PARTIAL, its buffers are freed, its rings pass to the tile's
other engine (R256, R345, R361, R362). -/
def engineOut (e : Nat) (f : Engine → Engine) (s : State) : State :=
  let was := engineUp s e
  let s := squashRunning e s
  let s := forEach (homedRings s e) (fun x => endPartial x.1 x.2) s
  let s := setEngine e (fun g => { f g with
    running := false, standin := false, cmd := none, writes := 0, stepped := none, holds := [], fenceReq := false, resetReq := false }) s
  let s := { s with hif := { s.hif with rings := tmap (fun _ x => if x.engine / 2 = e / 2 then { x with lent := false } else x) s.hif.rings } }
  let s := bufFreeAll (fun _ b => b.alloc && b.tag = 2 * 4096 + e) s
  if engineUp s (otherEngine e) then setEngine (otherEngine e) (fun g => { g with standin := true }) s
  else iff_ was (pairLost (e / 2)) s

/-- Fences an engine with a CME_STAT.FAULT code. -/
def fenceEngine (e fault : Nat) : State → State := engineOut e fun g => { g with fenced := true, fault := fault }

/-- A fence requested from outside is taken at a boundary, or waits for one (R360). -/
def requestFence (e fault : Nat) (s : State) : State :=
  if (engine s e).fenced then s
  else if (engine s e).cmd.isSome then setEngine e (fun g => { g with fenceReq := true, fault := fault }) s
  else fenceEngine e fault s

/-- The engine's state after its reset: sequencer, micro-stack and working registers cleared (R70, R352). -/
def resetEngine (e : Nat) (s : State) : State :=
  let s := if (engine s e).running then engineOut e id s else s
  let held := (unitSt s (unitId 4 e)).held
  let keepFence := (engine s e).fenced && held
  let s := iff_ (!held) (setUnit (unitId 4 e) fun u => { u with fenced := false }) s
  let up := !keepFence && 7 ≤ stage s && stage s < 0x80 && tileRunning s (e / 2)
  let s := setEngine e (fun g =>
    { (default : Engine) with running := up, inReset := !up && !keepFence, fenced := keepFence,
                              fault := if keepFence then g.fault else 0 }) s
  iff_ up (fun s => lendRings e (setEngine (otherEngine e) (fun g => { g with standin := false }) s)) s

/-! ## Slices (R385) -/

/-- A command that has begun and waits completes with a status (R345, R398). -/
def endBusy (req r status : Nat) (ret : List (Nat × Word)) (s : State) : State :=
  match (ringSt s req r).busy with
  | some d => completeWith req r d status ret s
  | none => s

/-- Steps 1 to 3 of a slice reset: RESETTING on every ring, commands end under R345, fetched descriptors SQUASHED. -/
def sliceResetStart (sl : Nat) (s : State) : State :=
  let rings := (List.range 256).filter (ringExists s sl)
  let s := forEach rings (fun r s => endBusy sl r 0x08 [] (endPartial sl r s)) s
  let s := forEach rings (fun r s => txFlush sl r ((ringSt s sl r).taken.map fun d => { d with done := some (d.done.getD (0x08, [])) }) s) s
  let s := forEach (rings.filter fun r => (ringSt s sl r).kind ≤ 2) (fun r => completeFetched sl r 0x08) s
  let s := forEach rings (fun r => setRing sl r fun g => { g with resetting := true }) s
  { s with hif := { s.hif with
      sliceResetting := if s.hif.sliceResetting.contains sl then s.hif.sliceResetting else sl :: s.hif.sliceResetting } }

/-! ## DRAM ranks (R270, R271) -/

/-- The logical rank that a physical rank serves. -/
def lrankOf (c : Channel) (phys : Nat) : Option Nat := (List.range 8).find? fun k => c.remap.getD k 15 = phys

/-- The spare rank 8 is free: not mapped, not out of service. -/
def spareFree (c : Channel) : Bool := !(c.remap.contains 8) && !(c.out.contains 8)

/-- A logical rank loses its storage; its held cells are still read out of the physical rank it had (R270 step 3b). -/
def loseRank (k : Nat) (c : Channel) : Channel :=
  { c with lost := tput c.lost k (c.remap.getD k 15), remap := c.remap.set k 15 }

/-- No migration runs: nothing on the spare counts. -/
def migOver (c : Channel) : Channel := { c with migState := 0, migPos := 0, draining := false, marks := [] }

/-- A further commanded cursor is stale (R274). -/
def nextGen (c : Channel) : Channel := { c with gen := (c.gen + 1) % 65536 }

/-- The effect of a retirement at an instant on the channel: mirroring to the spare starts, or the logical rank loses its
storage. -/
def retired (now phys : Nat) (c : Channel) : Channel :=
  if c.out.contains phys then c
  else
    let d := { c with out := c.out ++ [phys] }
    if phys = 8 && c.migState ≠ 0 then
      if c.migState = 1 then loseRank c.migLrank (migOver d) else nextGen (migOver d)
    else
      match lrankOf c phys with
      | none => d
      | some k =>
        if 2 ≤ c.migState && c.migLrank = k then nextGen { d with migState := 1, migAt := now }
        else if 2 ≤ c.migState then nextGen { migOver d with migState := 1, migLrank := k, migAt := now }
        else if c.migState = 0 && spareFree c then { migOver d with migState := 1, migLrank := k, migAt := now }
        else loseRank k d

/-- A migration is abandoned by a reset or a fence: the next start maps the rank straight to the spare (R271, R275). -/
def abandonMig (c : Channel) : Channel :=
  if c.migState = 1 && spareFree c then { migOver c with remap := c.remap.set c.migLrank 8 }
  else if c.migState ≠ 0 then nextGen (migOver c)
  else c

/-- All-bank refreshes of a rank. -/
def refreshes (c r n : Nat) (s : State) : State := forEach (List.range n) (fun _ => emit (.refresh c r)) s

/-- Pays every rank's debt of a channel (R267). -/
def payDebt (ch : Nat) (s : State) : State :=
  forEach (channel s ch).debt (fun x => refreshes ch x.1 x.2) (setChannel ch (fun c => { c with debt := [] }) s)


/-- DORMANT entry has held the ports down and waits for running migrations; with none left DRAM goes into self-refresh and the
islands are gated (R419 steps 3 and 4). -/
def dormantStep (s : State) : State :=
  if s.ps.module = 1 && s.pwr.lead.isNone && !(s.dram.any fun x => x.2.migState = 1 || x.2.migState = 2) then
    let s := forEach (List.range 64) (fun c s => setChannel c (fun x => { x with selfRefresh := true }) (payDebt c s)) s
    { s with ps := { s.ps with module := 2 } }
  else s

/-- A rank is retired (R270); a DORMANT entry may have waited for a migration that this ends (R271). -/
def retireRank (c phys : Nat) (s : State) : State :=
  dormantStep (updateLimit (setChannel c (retired s.tim.frc phys) (settleMig c s)))

/-- The tile's channels pay their refresh debt and enter self-refresh; migrations are abandoned (R271, R276). -/
def tileSelfRefresh (t : Nat) (s : State) : State :=
  dormantStep (forEach (List.range 8) (fun l s =>
    setChannel (t * 8 + l) (fun c => { abandonMig c with selfRefresh := true }) (payDebt (t * 8 + l) (settleMig (t * 8 + l) s))) s)

/-- A gated pipeline, or its gated tile, starts to wake (R418). -/
def wakePipe (g : Nat) (s : State) : State :=
  let add (k : Nat) (on : Bool) (l : List Nat) : List Nat := if on && !l.contains k then k :: l else l
  { s with ps := { s.ps with
      waking := add g (s.ps.proof.contains g) (add (64 + g / 8) (s.ps.chill.contains (g / 8)) s.ps.waking) } }

/-! ## Fencing (R407) -/

/-- Another tile is fenced or in reset once tiles are being released (R86, R233); in step 7 no tile is ready yet, so only a fence
counts there. -/
def otherTileOut (s : State) (t : Nat) : Bool :=
  6 ≤ stage s && stage s ≤ 9 && (List.range 8).any fun u => u ≠ t && if stage s = 6 then tileFenced s u else !tileRunning s u

/-- Frames in the landing buffers of a tile's pipelines are dropped and counted RX_DROP_LANDING; an express frame that has
started is cut (R237, R407). -/
def dropLanding (f : Frame → Bool) (s : State) : State :=
  let gone := s.frames.filter f
  forEach gone (fun f s => portCnt f.port 10 1 (if f.phase = .express || f.phase = .launched then expressLost f s else frameGone f.fid (dropFrame f.fid s))) s

/-- A fenced tile's port is squelched at once; what it held is gone without a count of its own, since intermediates count the
frames of the tile's leaves (R230, R259). -/
def portSquelch (p : Nat) (s : State) : State :=
  let s := iff_ (port s p).up (portCnt p 36 1) s
  let s := iff_ (port s p).tx.isSome (emit (.abort p)) s
  let q := port s p
  let gone := q.slots.filterMap (·.2) ++ q.parked ++ q.tx.toList ++ q.rq.map (·.2)
  let s := endKeep p (forEach gone (fun sl => frameGone sl.fid) s)
  setPort p (fun q => { q with
    up := false, alignHeld := false, heldDown := true, remoteFault := false, hold := false, holdDone := true, slots := [], parked := [], tx := none,
    reserved := false, rq := [] }) s

/-- A frame of a leaf whose tile is out counts DROP_FENCED_DEST, once, at the first tile that frees something of it (R231, R259). -/
def countFlushed (t fid leaf : Nat) (s : State) : State :=
  if s.fab.flushed.contains (fid, leaf) then s
  else ownerCnt (leafSlice s leaf) 4 1 (tileCnt t 9 1 { s with fab := { s.fab with flushed := s.fab.flushed ++ [(fid, leaf)] } })

/-- Cells of a frame of a leaf lie at other tiles than its own, or are still to come there. -/
def cellsElsewhere (s : State) (t fid leaf : Nat) : Bool :=
  (s.fab.held.any fun h => h.tile ≠ t && tileRunning s h.tile && h.cell.fid = fid && h.cell.leaf = leaf) ||
  (s.fab.wires.any fun w => w.dst ≠ t && match w.msg with
    | .spread c => c.fid = fid && c.leaf = leaf
    | _ => false) ||
  s.frames.any fun f => f.fid = fid && f.deals.any fun d => d.leaf = leaf && !d.cells.isEmpty

/-- What fencing a tile does on its own die: ports squelched, engines fenced, DRAM idled, frames in flight and leaves gone. A frame
of its leaves of which no other tile holds a cell is counted here (R259). -/
def tileOut (t : Nat) (s : State) : State :=
  let s := forEach (tilePorts s t) portSquelch s
  let lost := (s.fab.notices.filter fun n => leafTile n.leaf = t) ++ (s.fab.asms.filter fun a => a.tile = t).map (·.note)
  let s := forEach (lost.filter fun n => !cellsElsewhere s t n.fid n.leaf) (fun n => countFlushed t n.fid n.leaf) s
  let s := forEach lost (fun n => frameGone n.fid) s
  let s := { s with
    fab := { s.fab with notices := s.fab.notices.filter (fun n => leafTile n.leaf ≠ t), asms := s.fab.asms.filter fun a => a.tile ≠ t },
    sch := { s.sch with leaves := tmap (fun l (x : Leaf) => if leafTile l = t then { x with depth := 0 } else x) s.sch.leaves } }
  let s := dropLanding (fun f => f.tile = t) s
  let s := requestFence (2 * t + 1) 0 (requestFence (2 * t) 0 s)
  updateLimit (tileSelfRefresh t s)

/-- Fences a tile; a second tile out of the plait's pattern brings the safe state (R233). -/
def fenceTile (t : Nat) (s : State) : State :=
  let second := otherTileOut s t
  let s := tileOut t (setUnit (unitId 6 t) (fun u => { u with fenced := true }) s)
  if second then enterSafe s else s

/-- The collector fences a unit of a kind (R407). `fault` is the CME_STAT code for an engine. -/
def fenceUnit (u fault : Nat) (s : State) : State :=
  let i := u % 4096
  let mark := setUnit u fun x => { x with fenced := true }
  match u / 4096 with
  | 1 => if i < 512 then portHoldDown i true (setPort i (fun q => { q with fenced := true }) (mark s)) else mark s
  | 2 => dropLanding (fun f => f.pipe = i) (forEach (groupPorts s i) (fun p => portHoldDown p true) (mark s))
  | 3 => { mark s with tcm := { s.tcm with fenced := if s.tcm.fenced.contains i then s.tcm.fenced else i :: s.tcm.fenced } }
  | 4 => requestFence i fault (mark s)
  | 5 => if i % 16 = 15 then mark s else retireRank (i / 16) (i % 16) (mark s)
  | 6 => fenceTile i s
  | 7 => sliceResetStart i { mark s with hif := { s.hif with sliceFenced := if s.hif.sliceFenced.contains i then s.hif.sliceFenced else i :: s.hif.sliceFenced } }
  | 8 => mark s
  | 9 => fenceTile (i / 8) s
  | _ => s

/-! ## Cold and warm resets (R66 to R70) -/

/-- Values of every counter that a reset of the scope keeps: a warm reset keeps FAULT and the DRAM counters (R277, R424). -/
def countersKept (warm : Bool) (t : Tab (BitVec 64)) : Tab (BitVec 64) :=
  if warm then t.filter fun x => x.1 / 4294967296 = 2 || x.1 / 4294967296 = 6 else []

/-- PLT_RST_INFO after a cold or warm reset. -/
def rstInfo (warm : Bool) (w : Word) : Word := setFld (setBit w 31 warm) 15 0 (satAdd 16 (fld w 15 0) 1)

/-- The measured fields of PWR_STAT and PWR_THERM, which no reset changes. -/
def measured (s : State) (s' : State) : State :=
  let a := rget s .pwrStat 0 0
  let b := rget s .pwrTherm 0 0
  rput .pwrTherm 0 0 (setFld (setFld b 23 16 0) 31 24 0) <|
    rput .pwrStat 0 0 (setFld (setFld (setFld (rget s' .pwrStat 0 0) 21 12 (fld a 21 12)) 1 1 (fld a 1 1)) 0 0 (fld a 0 0)) s'

/-- Junction readings, which no reset changes; the regulators start again at 0.80 V and the monitors with no margin. -/
def junctionsOnly (s : State) : Tab Sensors := tmap (fun _ (x : Sensors) => { (default : Sensors) with junction := x.junction }) s.sens

/-- PPS_OUT falls with the reset of the time base (R72). -/
def ppsLow (s : State) : State := iff_ s.tim.ppsHigh (fun s => emit (.ppsOut false) { s with tim := { s.tim with ppsHigh := false } }) s

/-- The state right after a cold reset is asserted: STAGE 0, and what R70 keeps. What a clock's monitor finds is no state of its domain
and stays (R73). -/
def coldReset (s : State) : State :=
  let s := ppsLow s
  let regs := s.regs.filter fun x => regKept (fun c => c = .cold || c = .warm || c = .tile) none x.1
  let s' : State := { (default : State) with
    pending := s.pending, freeCtr := s.freeCtr, serial := s.serial, ident := s.ident, regs := regs, out := s.out,
    nvm := { s.nvm with dram := s.nvm.dram.filter fun x => !x.2.clearNext },
    pwr := { powered := s.pwr.powered, convRunning := s.pwr.convRunning, pinHold := s.pwr.pinHold,
             earlyHold := s.pwr.earlyHold },
    flt := { (default : Collector) with clkBad := s.flt.clkBad }, sens := junctionsOnly s }
  let s' := measured s (freezeFifo s')
  rput .pltRstInfo 0 0 (rstInfo false (rget s .pltRstInfo 0 0)) s'

/-- The channel that a warm reset leaves: self-refresh, training kept, the table and the retired ranks from the record (R275). -/
def warmChannel (r : DramRec) (c : Channel) : Channel :=
  { (default : Channel) with remap := r.remap, out := r.retired, trainFail := c.trainFail, gen := c.gen, selfRefresh := true }

/-- The PCIe endpoint is reset: no link, MSI-X as at reset. -/
def endpointReset (s : State) : State :=
  rset .hifStat 0 0 0 0 0 (rset .hifStat 0 0 19 16 0 (rset .hifStat 0 0 11 8 0
    { s with hif := { s.hif with msixTab := [], msixPend := [] } }))

/-- The state right after a warm reset is asserted: STAGE 0, and what R70 keeps, DRAM's contents among it (R276). A reset for an error in the collector's own
registers also clears the FIFO. -/
def warmReset (s : State) : State :=
  let s := forEach (List.range 64) payDebt s
  let regs := s.regs.filter fun x => regKept (fun c => c = .warm || c = .tile) none x.1
  let s' : State := { (default : State) with
    pending := s.pending, freeCtr := s.freeCtr, serial := s.serial, ident := s.ident, regs := regs, out := s.out, nvm := s.nvm,
    pwr := { powered := s.pwr.powered, convRunning := s.pwr.convRunning, pinHold := s.pwr.pinHold,
             thermHold := s.pwr.thermHold, earlyHold := s.pwr.earlyHold, stepAt := s.tim.frc },
    tim := { s.tim with realign := [], todBacklog := [] },
    cages := tmap (fun _ c => { (default : Cage) with rstLow := c.rstLow, lpmode := c.lpmode }) s.cages,
    dram := tgen 64 fun c => warmChannel (tget s.nvm.dram c) (channel s c), mem := s.mem.filter fun x => x.1 < bufAddr 0 0,
    flt := { fifo := if s.flt.collectorReset then [] else s.flt.fifo, seq := s.flt.seq, clkBad := s.flt.clkBad },
    sens := junctionsOnly s, tel := { counters := countersKept true s.tel.counters } }
  let s' := rset .pwrTherm 0 0 23 16 0 (pset .pwrStat 3 false (pset .fltStat 31 false (freezeFifo s')))
  let s' := endpointReset (pset .timStat 1 false s')
  rput .pltRstInfo 0 0 (rstInfo true (rget s .pltRstInfo 0 0)) s'

/-- Performs a module reset of a scope. -/
def moduleReset (cold : Bool) (s : State) : State := if cold then coldReset s else warmReset s

/-- The sag sequence is between its steps 1 and 5 (R60). -/
def sagRunning (s : State) : Bool := 1 ≤ s.pwr.sagStep && s.pwr.sagStep ≤ 4

/-- A cold start-up is running: a smaller request aimed at it is absorbed (R69; log 19). -/
def coldStartRuns (s : State) : Bool := stage s < 8 && !(pbit s .pltRstInfo 31)

/-- A cold reset is pending, in the leave lead or behind the sag sequence: the next module reset is the larger one (R69). -/
def pendingCold (s : State) : Bool := s.pwr.lead = some (.reset true) || s.pwr.waiting.any (·.cold)

/-- A module reset is wanted: a sag sequence makes it wait (R60; once the save is written none waits: DESIGN CHOICE, log 48), a larger
running start-up absorbs it (R69) unless it must act, a cold reset that is pending makes it cold, otherwise it is performed. -/
def arbitrateAs (must : Bool) (cause : Nat) (cold : Bool) (s : State) : State :=
  if sagRunning s then
    freezeFifo { s with pwr := { s.pwr with waiting := s.pwr.waiting ++ [{ cause := cause, cold := cold }] } }
  else if !cold && coldStartRuns s && !must then s
  else moduleReset (cold || pendingCold s) s

def arbitrate (cause : Nat) (cold : Bool) : State → State := arbitrateAs false cause cold

/-- A reset request of a source: its cause bit sets whatever becomes of the request (R66, R69). -/
def requestAs (cause : Nat) (must cold : Bool) (s : State) : State := arbitrateAs must cause cold (pset .pltRstCause cause true s)

def requestReset (cause : Nat) (cold : Bool) : State → State := requestAs cause false cold

/-! ## Faults: reports (R403, R404, R408, R411) -/

/-- The class of a code. -/
def codeClass (code : Nat) : Nat := code / 256 - 1

/-- The CME_STAT.FAULT value of a fault code (R360, R75, R255). -/
def engineFaultOf : Nat → Nat
  | 0x020B => 1
  | 0x020C => 2
  | 0x020D => 3
  | 0x020E => 4
  | 0x020F => 5
  | 0x0210 => 6
  | 0x0202 => 7
  | _ => 0

/-- The cause bit that a CRITICAL fault sets (R408). -/
def critBit : Nat → Nat
  | 0x0301 => 4
  | 0x0302 => 5
  | 0x0304 => 9
  | 0x0305 => 3
  | _ => 6

/-- A COLLECTOR fault: the safe state at once, no record, and the cause bit; the reset follows in 1 ms (R411). -/
def collectorFault (code : Nat) (s : State) : State :=
  let s := pset .pltRstCause (if code = 0x0401 then 4 else 5) true s
  enterSafe { s with flt := { s.flt with collectorReset := true } }

/-- The status of a unit after a record. -/
def heldStatus (code : Nat) (u : UnitSt) : UnitSt :=
  { u with held := true, cls := if u.held then max u.cls (codeClass code) else codeClass code, code := code }

/-- The action of a record's class: fencing, or the reset of R408. A fenced tile's TABLE_UE fences only the word. -/
def faultAction (u code : Nat) (s : State) : State :=
  if codeClass code = 1 then
    if code = 0x0205 then
      if (runningTiles s).any (· ≠ u % 4096) then s else fenceUnit (unitId 6 (u % 4096)) 0 s
    else fenceUnit u (engineFaultOf code) s
  else if codeClass code = 2 then requestAs (critBit code) (code = 0x0303) false s
  else s

/-- What a fault does that the collector takes: a repeat of a HELD unit only counts, otherwise a record and its action follow. A
pipeline or slab that a tile reset took back into service while HELD is fenced again all the same (R75, R184, R186; log 87). -/
def takeFault (u code info addr : Nat) (s : State) : State :=
  if (unitSt s u).held && codeClass code ≤ (unitSt s u).cls then
    let s := setUnit u (fun x => { x with rep := true, repeats := min 255 (x.repeats + 1) }) s
    iff_ ((u / 4096 = 2 || u / 4096 = 3) && codeClass code = 1 && !isFenced s u) (fenceUnit u 0) s
  else
    let r : FaultRec := {
      unit := u, code := code, cls := codeClass code,
      fenced := codeClass code = 1 && code ≠ 0x0205 && !isFenced s u,
      escalated := codeClass code = 2, tile := (unitTile u).getD 0, platform := (unitTile u).isNone, info := info, addr := addr }
    faultAction u code (setUnit u (heldStatus code) (appendRec r s))

/-- A unit lies in a tile that is fenced, or in reset while the module runs: what it reports is suppressed. -/
def unitSilent (s : State) (u : Nat) : Bool :=
  (unitTile u).any fun t => tileFenced s t || (7 ≤ stage s && stage s ≤ 9 && !tileReady s t)

/-- A fault reaches the collector (R403). -/
def report (u code info addr : Nat) (s : State) : State :=
  if codeClass code = 3 then collectorFault code s
  else if inSafe s then countLost (setUnit u (heldStatus code) s)
  else if unitSilent s u then s
  else takeFault u code info addr s

end Sys2Proof.Machine
end

