-- ==== Sys2Proof/Machine/Adjacency.lean ====
section
/-! DEFINITION. Adjacencies and failure IDs as every unit that can take one down needs them (R304, R305, R308, R311, R313, R314),
and the resets of tiles, ports and engines (R70, R71). -/
namespace Sys2Proof.Machine

/-! ## Identity (R304, R314) -/

/-- The module's own fabric ID: the image's, or the option byte's where the image gives 255. -/
def ownId (s : State) : Nat := if (img s).fabricId = 255 || s.img.run.isNone then optByte s 6 else (img s).fabricId

def adjOf (s : State) (p : Nat) : Adj := tget s.cfb.adj p

def setAdj (p : Nat) (f : Adj → Adj) (s : State) : State := { s with cfb := { s.cfb with adj := tupd s.cfb.adj p f } }

/-- Fabric-role ports of the plan. -/
def fabricPorts (s : State) : List Nat :=
  ((img s).corridor.adj.filter fun x => x.2.isSome && portExists s x.1).map (·.1)

/-- Fabric-role ports whose adjacency is UP. -/
def upFabric (s : State) : List Nat := (fabricPorts s).filter fun p => (adjOf s p).state = 3

/-- Key-store slot of the fabric key. -/
def fabricSlot (s : State) : Nat := (img s).corridor.keySlot

/-- The fabric key is loaded. -/
def hasKey (s : State) : Bool := 16 ≤ fabricSlot s && fabricSlot s ≤ 31 && (tget s.sec.slots (fabricSlot s)).valid

/-- An adjacency changes state: ADJ_STATE is posted, and a port that leaves UP goes down. -/
def adjTo (p st : Nat) (s : State) : State :=
  let was := (adjOf s p).state
  if was = st then s
  else
    let s := post mgr 0x30 p [word st] (setAdj p (fun a => { a with state := st }) s)
    iff_ (was = 3) (portGoDown p true) s

/-! ## Management frames (R313, R314) -/

/-- CFB_ETYPE (R306). -/
def cfbEtype (s : State) : Nat := (img s).corridor.etype.getD 0x88B5

/-- CFB takes a frame that arrives on a port: a hello, or one whose TARGET is this module or the receiving neighbour (R307). -/
def cfbTakes (s : State) (p : Nat) (bs : List Byte) : Bool :=
  isFabric s p && beAt bs 12 2 = cfbEtype s && (beAt bs 14 1 = 1 || beAt bs 17 1 = ownId s || beAt bs 17 1 = 255)

def time10 (t : Time80) : List Byte := beBytes 6 t.sec ++ beBytes 4 t.ns

/-- Bytes of a management frame's payload to the end of its body (log 23). -/
def mgmtBytes (m : Mgmt) : List Byte :=
  beBytes 1 m.type ++ beBytes 1 1 ++ beBytes 1 m.orig ++ beBytes 1 m.target ++ beBytes 8 m.origSerial ++ time10 m.time ++
  beBytes 2 m.body.length ++ m.body

/-- The payload of a management frame on its way out: with the TAG under the fabric key. -/
def mgmtPayload (s : State) (m : Mgmt) : List Byte := mgmtBytes m ++ aesCmac (tget s.sec.slots (fabricSlot s)).key (mgmtBytes m)

def sendTo (m : Mgmt) (p : Nat) (s : State) : State := emit (.mgmt p (mgmtPayload s m)) s

/-! ## Failure IDs (R305, R311, R312) -/

/-- The failure ID in force (R305, R310). -/
def activeFail (s : State) : Nat := rfld s .cfbStat 0 0 11 0

/-- Sends a management frame of this module on a list of ports; without a key none is sent (R314). -/
def sendMgmt (ports : List Nat) (type : Nat) (body : List Byte) (s : State) : State :=
  iff_ (hasKey s) (forEach ports (sendTo {
    type := type, orig := ownId s, target := 255, origSerial := s.serial, time := s.tim.now, body := body, tagOk := true })) s

/-- FAIL_ADV on every UP fabric-role port but one. -/
def sendFail (but id : Nat) (s : State) : State := sendMgmt ((upFabric s).filter (· ≠ but)) 2 (beBytes 2 id) s

def moduleFail (partner : Nat) : Nat := 0xF00 + partner

/-- The failure in force is a link to the partner of the module failure. -/
def linkOfModule (s : State) (link mod : Nat) : Bool :=
  0xF00 ≤ mod && (fabricPorts s).any fun p => ((planAdj s p).getD {}).linkFailId = link && moduleFail ((planAdj s p).getD {}).partnerId = mod

def setActive (p id : Nat) (s : State) : State := fabCnt p 8 (rset .cfbStat 0 0 11 0 id s)

/-- A failure ID arrives at a port: the first is set, a second keeps the first and raises NO_ALTERNATE (R31, R311). -/
def setFail (p id : Nat) (s : State) : State :=
  let a := activeFail s
  if id = 0 || a = id then s
  else if a = 0 || linkOfModule s a id then setActive p id s
  else report (unitId 1 p) 0x0211 0 0 (pset .cfbStat 30 true s)

/-- A local event: the ID is set and advertised, and this module is its originator. -/
def localFail (p id : Nat) (s : State) : State :=
  let s := sendFail p id (setFail p id s)
  { s with cfb := { s.cfb with originated := if s.cfb.originated.contains id then s.cfb.originated else id :: s.cfb.originated } }

/-- The failure ID of a lost adjacency: its link's, or its partner's where another link of the partner, or the partner, has
failed already. -/
def lossId (s : State) (p : Nat) : Nat :=
  let a := (planAdj s p).getD {}
  let other (q : Nat) : Bool :=
    q ≠ p && ((planAdj s q).getD {}).partnerId = a.partnerId && ((planAdj s q).getD {}).linkFailId = activeFail s
  if activeFail s = moduleFail a.partnerId || (activeFail s ≠ 0 && (fabricPorts s).any other) then moduleFail a.partnerId
  else a.linkFailId

/-- An adjacency goes DOWN through loss of signal, alignment or hellos. -/
def adjLost (p : Nat) (s : State) : State :=
  if !isFabric s p then s
  else
    let id := lossId s p
    let up : Bool := (adjOf s p).state = 3
    iff_ up (localFail p id) (adjTo p 1 s)

/-! ## Resets of units (R70, R71) -/

/-- RESET_DONE to the manager's event ring: unit, scope and requester (R68, R379). -/
def resetDone (u scope : Nat) (by_ : Nat) : State → State :=
  post mgr 0x03 u [pack [(2, 0, scope), (11, 8, if by_ = mgr then 0 else by_), (12, 12, (by_ == mgr).toNat)]]

/-- A port reset: PCS, FEC, MAC and MACsec state start again; leaves are flushed at once. A fence whose fault has been cleared
ends (R407). -/
def portReset (p by_ : Nat) (s : State) : State :=
  let s := adjLost p (clearSas p (portHoldDown p true s))
  let keep := (unitSt s (unitId 1 p)).held && (port s p).fenced
  let s := iff_ (!keep) (setUnit (unitId 1 p) fun u => { u with fenced := false }) s
  let s := setPort p (fun q => { (default : Port) with fenced := keep, heldDown := keep, holdDone := true, fecNotice := q.fecNotice }) s
  resetDone (unitId 1 p) 4 by_ s

/-- The tile whose scheduler holds a node (R278). -/
def nodeTile (level n : Nat) : Nat :=
  match level with
  | 0 => portTile n
  | 1 => n / 512
  | 2 => n / 4096
  | _ => leafTile n

/-- A node's counts are full and its deficit is 0. -/
def fullNode (frc : Nat) (n : Node) : Node :=
  let c : Int := ((n.cfg.cbs * 65536 : Nat) : Int)
  let p : Int := ((n.cfg.pbs * 65536 : Nat) : Int)
  { n with c := c, p := p, cTop := c, pTop := p, deficit := 0, at_ := frc }

/-- A policer's bucket counts full. -/
def fullPol (frc : Nat) (p : Policer) : PolCount := { b1 := p.burst1 * 65536, b2 := p.burst2 * 65536, at_ := frc }

/-- The scheduling unit of a tile starts again: counts, deficits, pointers, leaves, streams, pending gate commits. What the image and
commands set stays (DEDUCED; log 88). -/
def schedReset (t frc : Nat) (x : Sched) : Sched :=
  { x with
    nodes := tmap (fun k n => if nodeTile (k / 1048576) (k % 1048576) = t then fullNode frc n else n) x.nodes
    ptrs := tkeep (fun k _ => nodeTile (k / 8 / 1048576) (k / 8 % 1048576) ≠ t) x.ptrs
    leaves := tkeep (fun l _ => leafTile l ≠ t) x.leaves
    polCounts := tmap (fun k c => if k / 262144 = t then fullPol frc (tget x.policers (k % 262144)) else c) x.polCounts
    streams := tmap (fun i st => if i / 8192 = t then { cfg := st.cfg } else st) x.streams
    gates := tmap (fun p g => if portTile p = t then { g with pending := none, keep := none } else g) x.gates
    sampleAt := tput x.sampleAt t 0 }

/-- A tile reset: the tile is fenced first, then everything of R70's tile row starts again; R71 brings it back. -/
def tileReset (t by_ : Nat) (s : State) : State :=
  let second := otherTileOut s t
  let s := tileOut t s
  let s := rset .pltBootStat 0 0 (16 + t) (16 + t) 0 (rset .pltBootCtl 0 0 t t 0 s)
  let s := forEach (tilePorts s t) (fun p s =>
    setPort p (fun q => { (default : Port) with fenced := q.fenced, heldDown := true, fecNotice := q.fecNotice }) (adjLost p (clearSas p s))) s
  let s := { s with
    regs := tkeep (fun k _ => regKept (fun c => c = .tile) (some t) k) s.regs,
    frames := s.frames.filter (fun f => f.tile ≠ t),
    tcm := { s.tcm with fenced := s.tcm.fenced.filter (fun i => i / 64 ≠ t), waking := s.tcm.waking.filter (fun i => i / 4 ≠ t) },
    sch := schedReset t s.tim.frc s.sch,
    fab := { s.fab with
      stripes := tkeep (fun k _ => k / 1048576 ≠ t) s.fab.stripes, dramNext := tput s.fab.dramNext t 0, mcSpent := tput s.fab.mcSpent t (0, 0),
      links := tkeep (fun k _ => k / 32 ≠ t && k / 4 % 8 ≠ t) s.fab.links, ctlSlot := tkeep (fun k _ => k / 8 ≠ t && k % 8 ≠ t) s.fab.ctlSlot,
      reads := s.fab.reads.filter (fun x => x.1 ≠ t),
      idle := tkeep (fun k _ => k / 8 ≠ t) s.fab.idle, crcFails := tkeep (fun k _ => k / 8 ≠ t) s.fab.crcFails,
      held := s.fab.held.filter (fun h => h.tile ≠ t),
      nulls := s.fab.nulls.filter (fun h => h.tile ≠ t),
      notices := s.fab.notices.filter (fun n => leafTile n.leaf ≠ t),
      asms := s.fab.asms.filter (fun a => a.tile ≠ t),
      filters := s.fab.filters.filter (fun f => f.tile ≠ t),
      bufs := s.fab.bufs.filter (fun x => handleTile x.1 ≠ t),
      wires := s.fab.wires.filter (fun w => w.src ≠ t && w.dst ≠ t) },
    exm := { s.exm with learn := s.exm.learn.filter (fun l => l.tile ≠ t) },
    flt := { s.flt with units := tmap (fun u (x : UnitSt) =>
      let inside := unitTile u = some t || u = unitId 6 t
      let returns := u / 4096 = 2 || u / 4096 = 3 || !x.held
      if inside && returns then { x with fenced := false } else x) s.flt.units } }
  let s := resetEngine (2 * t + 1) (resetEngine (2 * t) s)
  let s := updateLimit s
  let s := if second then enterSafe s else s
  resetDone (unitId 6 t) 2 by_ s

/-- An engine reset with its notice. -/
def engineReset (e by_ : Nat) (s : State) : State := resetDone (unitId 4 e) 5 by_ (resetEngine e s)

end Sys2Proof.Machine
end

