-- ==== Sys2Proof/Machine/Operands.lean ====
section
/-! DEFINITION. The operand forms of Ehrath descriptors (R330, R332, R334): fields, times, host addresses, keys, slices. -/
namespace Sys2Proof.Machine

/-- Word k of a command's descriptor. -/
def opw (c : Cmd) (k : Nat) : Word := c.desc.getD k 0

/-- Field [hi:lo] of word k. -/
def opf (c : Cmd) (k hi lo : Nat) : Nat := fld (opw c k) hi lo

/-- Bit b of word k. -/
def opb (c : Cmd) (k b : Nat) : Bool := bit (opw c k) b

/-- TIME80 at word k (R332). -/
def opTime (c : Cmd) (k : Nat) : Time80 :=
  { ns := (opw c k).toNat, sec := (opw c (k + 1)).toNat + opf c (k + 2) 15 0 * 4294967296 }

/-- A time is well formed: nanoseconds at most 999,999,999 (R14, R336). -/
def timeOk (t : Time80) : Bool := t.ns < 1000000000

/-- Module time has passed a named time. -/
def timePassed (s : State) (t : Time80) : Bool := t.toNs < nowNs s

/-- HADDR at word k (R332). -/
def opAddr (c : Cmd) (k : Nat) : Nat := (opw c k).toNat + (opw c (k + 1)).toNat * 4294967296

/-- n words from word k as one number, the first holding bits [31:0]. -/
def opBits (c : Cmd) (k : Nat) : Nat → Nat
  | 0 => 0
  | n + 1 => (opw c k).toNat + opBits c (k + 1) n * 4294967296

/-- The 128-bit operand at word k. -/
def opKey (c : Cmd) (k : Nat) : BitVec 128 := BitVec.ofNat 128 (opBits c k 4)

/-- n words of a number, from word k. -/
def retBits (k n v : Nat) : List (Nat × Word) := (List.range n).map fun i => (k + i, word (v / 2 ^ (32 * i)))

/-- TIME80 written from word k. -/
def retTime (k : Nat) (t : Time80) : List (Nat × Word) :=
  [(k, word t.ns), (k + 1, word t.sec), (k + 2, word (t.sec / 4294967296 % 65536))]

/-- The cursor in w2-w3 (R344). -/
def opCursor (c : Cmd) : Nat := opBits c 2 2

/-- The cursor that starts a walk. -/
def startCursor : Nat := 0xFFFFFFFFFFFFFFFF

/-- STEPS of an iterative command. -/
def opSteps (c : Cmd) : Nat := opf c 0 7 0

/-- The TOKENS flag (R288, R291). -/
def opTokens (c : Cmd) : Bool := opb c 0 16

/-- The tiles that an 8-bit mask names. -/
def maskTiles (m : Nat) : List Nat := (List.range 8).filter fun t => m.testBit t

/-- Pieces of a table of N objects belong to slice i div (N ÷ n) (R209, R241, R279, R289, R296, R298). -/
def ownedBy (s : State) (n i : Nat) : Nat := i / (n / nSlices s)

/-- The requester may act on object i of a table of n: the manager on any, a slice on its own. -/
def ownsPart (s : State) (req n i : Nat) : Bool := req = mgr || ownedBy s n i = req

/-- The requester owns a port: the manager any, a slice the ports assigned to it (R101). -/
def ownsPort (s : State) (req p : Nat) : Bool := req = mgr || portOwner s p = some req

/-- The bytes that the command's HADDR read returned. -/
def hostData (c : Cmd) : List Byte := c.data.getD []

end Sys2Proof.Machine
end

