-- ==== Sys2Proof/Machine/Flags.lean ====
section
/-! DEFINITION. Status codes (R347), the check order of R336, and the frame that every Ehrath command runs in. -/
namespace Sys2Proof.Machine

def stOK : Nat := 0x00
def stPARTIAL : Nat := 0x01
def stNOT_FOUND : Nat := 0x02
def stEXISTS : Nat := 0x03
def stTABLE_FULL : Nat := 0x04
def stBAD_OPCODE : Nat := 0x05
def stBAD_OPERAND : Nat := 0x06
def stNO_PERMISSION : Nat := 0x07
def stSQUASHED : Nat := 0x08
def stFENCED_UNIT : Nat := 0x09
def stLOCK_BUSY : Nat := 0x0A
def stAUTH_FAIL : Nat := 0x0B
def stSTALE_CURSOR : Nat := 0x0C
def stTIME_PASSED : Nat := 0x0D
def stIMAGE_INVALID : Nat := 0x0E

/-- The Who column of R334. -/
inductive Who where
  | manager
  | any
  | adminRing
deriving DecidableEq, Repr

/-- The status of the first check that fails; `none` when all pass. -/
def firstFail : List (Bool × Nat) → Option Nat
  | [] => none
  | (bad, st) :: r => if bad then some st else firstFail r

/-- Check 2 of R336. -/
def whoFails (w : Who) (c : Cmd) : Bool :=
  match w with
  | .manager => c.req ≠ mgr
  | .any => false
  | .adminRing => c.ring ≠ 0

/-- The opcodes that the ROM serves at STAGE 0x80 (R83). -/
def romOps : List Nat := [0x446, 0x443, 0x441]

/-- The opcodes that the steward serves at STAGE 0x81 (R85). -/
def stewardOps : List Nat := [0x381, 0x386, 0x385, 0x384, 0x446, 0x444, 0x445, 0x443, 0x441]

/-- The opcodes of the deferred commands (R335). -/
def deferredOp (op : Nat) : Bool :=
  op / 64 = 0x0E || op / 64 = 0x0F || [0x444, 0x445, 0x446, 0x443, 0x341, 0x287, 0xC5, 0x2C2, 0x2C5, 0x2C6].contains op

/-- HIF is released and its clock is good (R74, R88). -/
def hifUp (s : State) : Bool := 3 ≤ stage s && !s.flt.clkBad.contains 0x80

/-- The endpoint is released and step 3 has not completed: requests are not served yet (R88). -/
def hifEarly (s : State) : Bool := stage s = 2 && !s.flt.clkBad.contains 0x80

/-- A memory read reaches the module: it is served, or ends Unsupported Request until step 3 has completed (R88; log 65). -/
def readReaches (f : State → State) (s : State) : State := if hifUp s then f s else iff_ (hifEarly s) (emit .unsupported) s

/-- The engine that serves a ring runs microcode for the ring's command. -/
def inMicrocode (s : State) (req r : Nat) : Bool :=
  (ringEngine s (ringSt s req r)).any fun e => (engine s e).cmd = some (req, r)

/-- The URG flag of a descriptor (R330). -/
def urgentDesc (d : List Word) : Bool := bit (d.getD 0 0) 17

/-- When the command at a ring's consumer index was fetched; every fetch so far lies before one that was not. -/
def fetchedAt (s : State) (g : Ring) : Nat := ((g.stamps.find? fun x => x.1 = g.cons).map (·.2)).getD s.hif.fetchCount

/-- ORD: a command of the requester that the engine fetched earlier from another ring has not completed (R338). -/
def ordWaits (s : State) (req r : Nat) (d : List Word) : Bool :=
  let g := ringSt s req r
  bit (d.getD 0 0) 19 && g.iter.isNone && (homedRings s (homeNow s g)).any fun x =>
    x.1 = req && x.2 ≠ r && (headEntry (ringSt s x.1 x.2)).isSome && fetchedAt s (ringSt s x.1 x.2) < fetchedAt s g

/-- A ring has a fetched command that may begin or take its next step (R350). -/
def ringReady (s : State) (x : Nat × Nat) : Bool :=
  (ringSt s x.1 x.2).busy.isNone && (headEntry (ringSt s x.1 x.2)).any fun d => !ordWaits s x.1 x.2 d

/-- Turns from the ring that an engine served last to a ring, in the order of requesters and rings (R350; log 62). -/
def turnsTo (s : State) (e key : Nat) : Nat :=
  match (engine s e).turn with
  | some k => (key + 8191 - k) % 8192
  | none => key

/-- It is the command's turn on its engine: an urgent one goes first, another waits for the requester's urgent ones and for the rings
before it in the rotation (R338, R350). -/
def itsTurn (s : State) (req r : Nat) (d : List Word) : Bool :=
  let e := homeNow s (ringSt s req r)
  let rivals := (homedRings s e).filter fun x => x ≠ (req, r) && ringReady s x
  urgentDesc d ||
    !(rivals.any fun x => (x.1 = req && ((headEntry (ringSt s x.1 x.2)).any urgentDesc)) ||
      turnsTo s e (ringKey x.1 x.2) < turnsTo s e (ringKey req r))

/-- A command may begin on its ring now: a command that waits there goes on, none passes it or the entry at the ring's head, and a
command that an engine runs has its turn (R335, R337, R338, R350). -/
def mayBegin (s : State) (req r : Nat) (d : List Word) : Bool :=
  let g := ringSt s req r
  match g.busy with
  | some b => b = d
  | none => (headEntry g).all (· = d) && !ordWaits s req r d && (stage s = 0x80 || stage s = 0x81 || itsTurn s req r d)

/-- How a ring's command is served: `none` it does not begin; `some none` it runs; `some (some st)` it completes with st. Under a
sag only the instruction that an engine is in still finishes (R59 step 3). -/
def serving (c : Cmd) (op : Nat) (s : State) : Option (Option Nat) :=
  if opcodeOf c.desc ≠ op || !ringExists s c.req c.ring || (ringSt s c.req c.ring).kind ≠ 0
      || (ringSt s c.req c.ring).resetting || !hifUp s
      || ((ringSt s c.req c.ring).iter).any (fun it => it.desc ≠ c.desc) || !mayBegin s c.req c.ring c.desc then none
  else if 1 ≤ s.pwr.sagStep && !inMicrocode s c.req c.ring then none
  else if stage s = 0x80 then
    if c.req = mgr && c.ring = 0 then some (if romOps.contains op then none else some stFENCED_UNIT) else none
  else if stage s = 0x81 then
    if c.req = mgr && c.ring = 0 then some (if stewardOps.contains op then none else some stFENCED_UNIT) else none
  else if stage s < 7 || 9 < stage s then none
  else if 2 ≤ s.ps.module && !deferredOp op then none
  else if (ringEngine s (ringSt s c.req c.ring)).isNone then none
  else some none

/-- Completes a command with a status and returned words. -/
def fin (c : Cmd) (st : Nat) (ret : List (Nat × Word)) : State → State := completeWith c.req c.ring c.desc st ret

/-- Iterative commands that a requester's urgent command stops on an engine: its own, or everyone's for the manager (R338). -/
def urgentStops (req home : Nat) (own : Nat → Bool) (s : State) : State :=
  forEach ((homedRings s home).filter fun x => (x.1 = req || req = mgr) && own (ringKey x.1 x.2)) (fun x => endPartial x.1 x.2) s

/-- The engine that serves a command's ring runs it, and notes it as the instruction that ended last (R431); an urgent command
stops other rings' iterative ones. -/
def noteCmd (c : Cmd) (s : State) : State :=
  let g := ringSt s c.req c.ring
  let s := iff_ (urgentDesc c.desc) (urgentStops c.req (homeNow s g) fun k => k ≠ ringKey c.req c.ring) s
  match ringEngine s g with
  | some e =>
    setEngine e (fun g => { g with
      turn := some (ringKey c.req c.ring), last := some (c.req, c.ring, opcodeOf c.desc, opw c 1), cmd := if g.cmd = some (c.req, c.ring) then none else g.cmd }) s
  | none => s

/-- A command that has begun and does not complete yet: its ring takes no further one (R335). -/
def commandWaits (c : Cmd) : State → State := setRing c.req c.ring fun g => { g with busy := some c.desc }

/-- Runs a command: service, check 2, the given checks in order, then its execution (R336). -/
def runCmd (c : Cmd) (op : Nat) (w : Who) (checks : List (Bool × Nat)) (body : State → State) (s : State) : State :=
  match serving c op s with
  | none => s
  | some (some st) => fin c st [] s
  | some none =>
    if whoFails w c then fin c stNO_PERMISSION [] s
    else match firstFail checks with
      | some st => fin c st [] s
      | none => body (noteCmd c s)

/-- A tile, unit or port of a tile that cannot be written: check 5 of R336 (R342). -/
def tileDown (s : State) (t : Nat) : Bool := !tileRunning s t

/-- No tile runs: a command on replicated tables has nothing to write (R342). -/
def noTile (s : State) : Bool := (runningTiles s).isEmpty

/-- The engine tile of a command's home engine (R164, R349). -/
def homeTile (s : State) (c : Cmd) : Nat := (ringSt s c.req c.ring).engine / 2

end Sys2Proof.Machine
end

