-- ==== Sys2Proof/Machine/Dram.lean ====
section
/-! DEFINITION. Stacked DRAM: addresses, row activates, refresh, ECC findings, retirement and migration (R261 to R277). -/
namespace Sys2Proof.Machine

/-- The channel works: its tile runs, it trained, it is not in self-refresh. -/
def channelUp (s : State) (c : Nat) : Bool :=
  c < 64 && 5 ≤ stage s && stage s ≤ 9 && !(channel s c).trainFail && !(channel s c).selfRefresh && !tileFenced s (c / 8)

/-! ## Row-disturb protection (R268) -/

/-- RNG_RESEED: each channel's generator takes a new seed (R268). -/
def reseed (s : State) : State :=
  forEach (List.range 64) (fun c s => advanceFree (setChannel c (fun x => { x with seed := drawn s % 4294967296 }) s)) s

def execRngReseed (s : State) : Res := .next (iff_ (5 ≤ stage s && stage s ≤ 9) reseed s)

/-! ## Refresh (R267) -/

def postponeMax (s : State) (t : Nat) : Nat := min 8 (rfld s .drmRdCfg t 0 11 8)

/-- Cells whose requests stand in the queue of a channel's rank. -/
def rankQueued (s : State) (ch rank : Nat) : List Nat := (queuedIn s (ch / 8)).filter fun i => i % 8 = ch % 8 && cellRank s (ch / 8) i = rank

/-- A rank whose debt has reached POSTPONE_MAX pays it at once. -/
def payAtLimit (ch rank : Nat) (s : State) : State :=
  let d := tget (channel s ch).debt rank
  iff_ (0 < d && postponeMax s (ch / 8) ≤ d) (fun s =>
    refreshes ch rank d (setChannel ch (fun c => { c with debt := tput c.debt rank 0 }) s)) s

/-- POSTPONE_MAX is written: debts at or above the new limit are paid. -/
def debtsAtLimit (t : Nat) (s : State) : State :=
  forEach (List.range 8) (fun l s => forEach (List.range 9) (payAtLimit (t * 8 + l)) s) s

/-- REFRESH_DUE: issued, or postponed while the rank has requests queued; at the limit the whole debt is paid. -/
def execRefreshDue (ch rank : Nat) (busy : Bool) (s : State) : Res :=
  .next <| iff_ (channelUp s ch && rank < 9) (fun s =>
    if (busy || !(rankQueued s ch rank).isEmpty) && 0 < postponeMax s (ch / 8) then
      payAtLimit ch rank (drmCnt ch rank 5 1 (setChannel ch (fun c => { c with debt := tput c.debt rank (tget c.debt rank + 1) }) s))
    else refreshes ch rank 1 s) s

/-- REFRESH_DEBT_PAYMENT: the channel has had no request queued for 200 ns. -/
def execRefreshDebtPayment (ch : Nat) (s : State) : Res := .next (iff_ (channelUp s ch && channelLoad s ch = 0) (payDebt ch) s)

/-! ## ECC findings (R269) -/

/-- A corrected error: counted, and noticed past DRM_CE_LIMIT at most once a second per rank. -/
def correctedError (c r : Nat) (s : State) : State :=
  let sec := s.tim.frc / 1000000000
  let old := tget (channel s c).ceSecond r
  let n := if old.1 = sec then old.2 + 1 else 1
  let lim := rfld s .drmCeLimit (c / 8) 0 15 0
  let s := drmCnt c r 0 1 (setChannel c (fun x => { x with ceSecond := tput x.ceSecond r (sec, n) }) s)
  iff_ (lim ≠ 0 && lim < n && tget (channel s c).ceNotice r ≠ sec + 1) (fun s =>
    post mgr 0x40 c [word r, word n] (rset .drmErrStat (c / 8) 0 29 29 1
      (setChannel c (fun x => { x with ceNotice := tput x.ceNotice r (sec + 1) }) s))) s

/-- DRM_ERR_STAT takes an error: its flag, and rank and channel where it is the first. -/
def errStat (c r b : Nat) (s : State) : State :=
  let w := rget s .drmErrStat (c / 8) 0
  let w := if bit w 31 || bit w 30 then w else setFld (setFld w 7 4 r) 2 0 (c % 8)
  rput .drmErrStat (c / 8) 0 (setBit w b true) s

/-- An error that retires its rank: counter, flag, fault (R270). -/
def rankError (c r cnt b code idx : Nat) (s : State) : State :=
  report (unitId 5 (c * 16 + r)) code 0 idx (errStat c r b (drmCnt c r cnt 1 s))

/-- What a finding does to a channel, and whether the read returns poison. -/
def eccEffect (c r idx : Nat) (x : EccFinding) (s : State) : Bool × State :=
  match x with
  | .clean => (false, s)
  | .corrected => (false, correctedError c r s)
  | .uncorrectable => (true, rankError c r 1 31 0x0208 idx (drmCnt c r 3 1 s))
  | .caParity again => (!again, rankError c r 2 30 0x0209 idx (iff_ (!again) (drmCnt c r 3 1) s))

/-- What a read of a cell finds: a poison mark where its copy carries one. -/
def cellFinding (s : State) (t idx : Nat) (x : EccFinding) : EccFinding := if cellMarked s t idx then .uncorrectable else x

/-- A read of a cell by any source: the row activate, and the finding's effect; true is poison. -/
def readCell (t idx : Nat) (x : EccFinding) (s : State) : Bool × State :=
  let r := cellRank s t idx
  eccEffect (cellChannel t idx) r idx (cellFinding s t idx x) (touchCell t idx false s)

/-- A write of a cell by any source: only a parity error of its command concerns it; true is a write that is lost. A whole cell
written ends its poison mark. -/
def writeCell (t idx : Nat) (whole : Bool) (x : EccFinding) (s : State) : Bool × State :=
  let c := cellChannel t idx
  let r := cellRank s t idx
  let s := iff_ whole (setChannel c fun y => { y with marks := y.marks.filter (· ≠ idx) }) (touchCell t idx true s)
  match x with
  | .caParity again => (!again, rankError c r 2 30 0x0209 idx s)
  | _ => (false, s)

/-- DRAM_READ_DONE: the oldest read of the tile is ready to return with the data read, or as poison (R265). -/
def execDramReadDone (tile idx : Nat) (x : EccFinding) (s : State) : Res :=
  .next <| iff_ (tileRunning s tile && oldestRead s tile = some idx) (fun s =>
    let (poison, s) := readCell tile idx x s
    let at_ (h : Held) : Bool := h.tile = tile && h.place = .reading idx
    let got (h : Held) : Held :=
      { h with place := .read idx, poison := h.poison || poison,
               cell := { h.cell with data := readMem s (dramAddr tile idx 0) h.cell.data.length } }
    pumpDram tile { s with fab := { s.fab with
      held := s.fab.held.map (fun h => if at_ h then got h else h), reads := s.fab.reads.erase (tile, idx) } }) s

/-! ## Retirement and migration (R270, R271, R274, R275) -/

/-- RETIREMENT_RECORD_WRITTEN. -/
def execRetirementRecordWritten (ch : Nat) (s : State) : Res :=
  .next <| iff_ (ch < 64 && 3 ≤ stage s && stage s ≤ 9 && !(channel s ch).trainFail) (fun s =>
    let c := channel s ch
    { s with nvm := { s.nvm with dram := tupd s.nvm.dram ch fun r => { r with remap := c.remap, retired := c.out } } }) s

/-- The copying reads of rows lo to hi of a rank find errors in its cells: corrected data goes to the spare, a codeword that fails
correction goes with a poison mark (R270 step 4a). -/
def copyFindings (ch phys lr lo hi : Nat) (l : List (Nat × EccFinding)) (s : State) : State :=
  let mine (i : Nat) : Bool :=
    i < 67108864 && i % 8 = ch % 8 && cellLrank i = lr && lo ≤ cellRow i && cellRow i < hi
  forEach (l.filter fun x => mine x.1) (fun x s =>
    let (bad, s) := eccEffect ch phys x.1 x.2 s
    iff_ bad (setChannel ch fun c => { c with marks := if c.marks.contains x.1 then c.marks else c.marks ++ [x.1] }) s) s

/-- MIGRATION_LAST_ROW: an automatic migration has copied every row and the drain begins. -/
def execMigrationLastRow (r : RowsCopied) (s : State) : Res :=
  let ch := r.ch
  .next <| iff_ (channelUp s ch && (channel s ch).migState = 1 && !(channel s ch).draining) (fun s =>
    let c := channel s ch
    let phys := c.remap.getD c.migLrank 15
    let s := copyFindings ch phys c.migLrank c.migPos allRows r.rowErrs (copyRows ch phys c.migPos allRows s)
    setChannel ch (fun c => if c.migState = 1 then { c with migPos := allRows, draining := true } else c) s) s

/-- The remap entry switches to the spare and mirroring stops. -/
def remapped (c : Channel) : Channel :=
  { c with remap := c.remap.set c.migLrank 8, migState := 0, migPos := 0, draining := false }

/-- REMAP_COMMIT. -/
def execRemapCommit (ch : Nat) (s : State) : Res :=
  .next <| iff_ (channelUp s ch && (channel s ch).draining) (fun s => dormantStep (updateLimit (setChannel ch remapped s))) s

/-- MIGRATION_ABANDON. -/
def execMigrationAbandon (ch : Nat) (s : State) : Res :=
  .next <| iff_ ((channel s ch).migState = 3) (fun s =>
    setChannel ch (fun c => nextGen (migOver c)) s) s

end Sys2Proof.Machine
end

