-- ==== Sys2Proof/Machine/Trie.lean ====
section
/-! DEFINITION. The prefix trie (R165 to R174): its memories, the lookup that walks them, and the LPM commands, which write new
storage and flip one word. The engines keep beside it the list of installed prefixes, with the slice each is charged to. -/
namespace Sys2Proof.Machine

def rootCfg (s : State) (r : Nat) : RootCfg := tget (img s).exm.roots r

/-- Address width of a root. -/
def rootWidth (s : State) (r : Nat) : Nat := if (rootCfg s r).ip6 then 128 else 32

/-- A prefix covers an address: their first `len` bits agree. -/
def covers (width : Nat) (p : Pfx) (addr : BitVec 128) : Bool :=
  p.addr.toNat >>> (width - p.len) = addr.toNat >>> (width - p.len)

/-- The longest installed prefix of at most `maxLen` bits that covers an address (R169). -/
def lpmBest (s : State) (r : Nat) (addr : BitVec 128) (maxLen : Nat) : Option Pfx :=
  (s.lpm.filter fun p => p.root = r && p.len ≤ maxLen && covers (rootWidth s r) p addr).foldl
    (fun b p => match b with
      | some q => if q.len < p.len then some p else b
      | none => some p) none

/-! ## The memories (R166 to R168) -/

/-- The direct slot of a root and index. -/
def slotWord (s : State) (r i : Nat) : Nat := (tget s.trie.direct (r * 65536 + i)).toNat

def slotNh (w : Nat) : Nat := w % 262144
def directValid (w : Nat) : Bool := w.testBit 18
def slotExplen (w : Nat) : Nat := w / 2 ^ 19 % 32
def slotHasChild (w : Nat) : Bool := w.testBit 24
def slotChild (w : Nat) : Nat := w / 2 ^ 25 % 16777216

/-- A direct slot of its fields: the result with its length, and the memory-1 node below. -/
def packSlot (res : Option (Nat × Nat)) (child : Option Nat) : BitVec 64 :=
  BitVec.ofNat 64 ((match res with
    | some (nh, len) => nh + 2 ^ 18 + len * 2 ^ 19
    | none => 0) + (match child with
    | some a => 2 ^ 24 + a * 2 ^ 25
    | none => 0))

def slotRes (w : Nat) : Option (Nat × Nat) := if directValid w then some (slotNh w, slotExplen w) else none
def slotKid (w : Nat) : Option Nat := if slotHasChild w then some (slotChild w) else none

/-- The node at an address of a stride memory. -/
def nodeWord (s : State) (m a : Nat) : Nat := (tget s.trie.nodes (m * 16777216 + a)).toNat

def intBmp (w : Nat) : Nat := w % 2 ^ 510
def extBmp (w : Nat) : Nat := w / 2 ^ 510 % 2 ^ 256
def resBase (w : Nat) : Nat := w / 2 ^ 766 % 16777216
def childBase (w : Nat) : Nat := w / 2 ^ 790 % 16777216

def packNode (int ext res child : Nat) : Nat := int + ext * 2 ^ 510 + res * 2 ^ 766 + child * 2 ^ 790

/-- The result word at an address of memory 15. -/
def resultNh (s : State) (a : Nat) : Nat := (tget s.trie.results a).toNat % 262144

/-- Set bits of a bitmap below a position. -/
def popBelow (n i : Nat) : Nat := (List.range i).countP fun k => n.testBit k

/-- Address bits resolved before stride memory m. -/
def stagePos (m : Nat) : Nat := 16 + 8 * (m - 1)

/-- INT_BMP position of a prefix of relative length l whose next l address bits are v. -/
def intPos (l v : Nat) : Nat := 2 ^ l - 2 + v

/-! ## The lookup (R169, R174) -/

/-- A stage of a node: the longest of its prefixes that covers the next 8 address bits, as its length and result address. -/
def nodeHit (w v : Nat) : Option (Nat × Nat) :=
  (List.range 8).findSome? fun k =>
    let l := 8 - k
    let i := intPos l (v / 2 ^ (8 - l))
    if (intBmp w).testBit i then some (l, resBase w + popBelow (intBmp w) i) else none

/-- The child of a node for the next 8 address bits. -/
def nodeKid (w v : Nat) : Option Nat :=
  if (extBmp w).testBit v then some (childBase w + popBelow (extBmp w) v) else none

/-- The stride stages of a lookup: the best result so far as next hop and length, and the word that ended it early (R174).
`bad`: a word is uncorrectable. -/
def walkNodes (s : State) (bad : Nat → Nat → Bool) (width addr : Nat) :
    Nat → Nat → Nat → Option (Nat × Nat) → Option (Nat × Nat) × Option (Nat × Nat)
  | 0, _, _, best => (best, none)
  | n + 1, m, ptr, best =>
    let v := addr / 2 ^ (width - stagePos m - 8) % 256
    let w := nodeWord s m ptr
    let hit := nodeHit w v
    if width ≤ stagePos m then (best, none)
    else if bad m ptr then (best, some (m, ptr))
    else if hit.any fun x => bad 15 x.2 then (best, hit.map fun x => (15, x.2))
    else
      let best := match hit with
        | some (l, a) => some (resultNh s a, stagePos m + l)
        | none => best
      match nodeKid w v with
      | some a => walkNodes s bad width addr n (m + 1) a best
      | none => (best, none)

/-- A lookup of an address under a root. -/
def walkTrie (s : State) (bad : Nat → Nat → Bool) (r addr : Nat) : Option (Nat × Nat) × Option (Nat × Nat) :=
  let width := rootWidth s r
  let i := addr / 2 ^ (width - 16) % 65536
  let best := (tget s.trie.dflt r).map fun nh => (nh, 0)
  if bad 0 (r * 65536 + i) then (best, some (0, r * 65536 + i))
  else
    let d := slotWord s r i
    let best := match slotRes d with
      | some x => some x
      | none => best
    match slotKid d with
    | some a => walkNodes s bad width addr 14 1 a best
    | none => (best, none)

/-- A word of a tile's replica is uncorrectable: known so, or found so now. -/
def wordBad (s : State) (t : Nat) (now : List (Nat × Nat)) (m a : Nat) : Bool := s.tblBad.contains (t, m, a) || now.contains (m, a)

/-! ## Storage (R172) -/

def setTrie (f : Trie → Trie) (s : State) : State := { s with trie := f s.trie }

def blkMeets (a b : Blk) : Bool := a.mem = b.mem && a.base < b.base + b.size && b.base < a.base + a.size

/-- Storage is free: not in use, and given back 500 ns ago or more. -/
def blkFree (s : State) (b : Blk) : Bool :=
  !(s.trie.used.any (blkMeets b)) && !(s.trie.freed.any fun x => s.tim.frc < x.2 + 500 && blkMeets b x.1)

/-- The lowest free storage of a size (log 100). -/
def blkFind (s : State) (m n : Nat) : Nat :=
  let ends := ((s.trie.used ++ s.trie.freed.map (·.1)).filter fun b => b.mem = m).map fun b => b.base + b.size
  ((0 :: ends).filter fun a => blkFree s { mem := m, base := a, size := n }).foldl min (ends.foldl max 0)

/-- Takes storage; nothing is taken for no words. -/
def blkTake (m n : Nat) (s : State) : Nat × State :=
  if n = 0 then (0, s)
  else
    let a := blkFind s m n
    (a, setTrie (fun x => { x with used := { mem := m, base := a, size := n } :: x.used }) s)

/-- Gives storage back. -/
def blkGive (m a : Nat) (s : State) : State :=
  match s.trie.used.find? fun b => b.mem = m && b.base = a with
  | some b =>
    setTrie (fun x => { x with
      used := x.used.filter (· ≠ b), freed := (b, s.tim.frc) :: x.freed.filter fun y => s.tim.frc < y.2 + 500 }) s
  | none => s

/-- A word is written in every replica, whatever error it had. -/
def wordWritten (m a : Nat) (s : State) : State := { s with tblBad := s.tblBad.filter fun x => x.2 ≠ (m, a) }

def putSlot (r i : Nat) (w : BitVec 64) (s : State) : State :=
  wordWritten 0 (r * 65536 + i) (setTrie (fun x => { x with direct := tput x.direct (r * 65536 + i) w }) s)

def putNode (m a w : Nat) (s : State) : State :=
  wordWritten m a (setTrie (fun x => { x with nodes := tput x.nodes (m * 16777216 + a) (BitVec.ofNat 832 w) }) s)

/-- Writes a result array into free storage. -/
def newResults (l : List Nat) (s : State) : Nat × State :=
  let (a, s) := blkTake 15 l.length s
  (a, forEach l.zipIdx (fun x s =>
    wordWritten 15 (a + x.2) (setTrie (fun y => { y with results := tput y.results (a + x.2) (BitVec.ofNat 32 x.1) }) s)) s)

/-- Writes an array of nodes into free storage of a stride memory. -/
def newNodes (m : Nat) (l : List Nat) (s : State) : Nat × State :=
  let (a, s) := blkTake m l.length s
  (a, forEach l.zipIdx (fun x => putNode m (a + x.2) x.1) s)

def nodeResults (s : State) (w : Nat) : List Nat := (List.range (popBelow (intBmp w) 510)).map fun k => resultNh s (resBase w + k)

def nodeKids (s : State) (m w : Nat) : List Nat :=
  (List.range (popBelow (extBmp w) 256)).map fun k => nodeWord s (m + 1) (childBase w + k)

/-- Gives back what lies below a node. -/
def giveBelow : Nat → Nat → Nat → State → State
  | 0, _, _, s => s
  | n + 1, m, w, s =>
    let s := iff_ (intBmp w ≠ 0) (blkGive 15 (resBase w)) s
    if extBmp w = 0 then s
    else blkGive (m + 1) (childBase w) (forEach (nodeKids s m w) (giveBelow n (m + 1)) s)

/-! ## Changing a prefix (R167, R172) -/

/-- A prefix as the words see it: its address width, address and length. -/
structure PfxAt where
  width : Nat
  addr : Nat
  len : Nat

/-- The next 8 address bits at a stage. -/
def PfxAt.byte (p : PfxAt) (m : Nat) : Nat := p.addr / 2 ^ (p.width - stagePos m - 8) % 256

/-- The prefix's place in the INT_BMP of its node. -/
def PfxAt.pos (p : PfxAt) (m : Nat) : Nat :=
  intPos (p.len - stagePos m) (p.addr / 2 ^ (p.width - p.len) % 2 ^ (p.len - stagePos m))

/-- New nodes from stage m down to a prefix that stands there alone; answers the first node's word. -/
def freshStride (p : PfxAt) (nh : Nat) : Nat → Nat → State → Nat × State
  | 0, _, s => (0, s)
  | n + 1, m, s =>
    if p.len ≤ stagePos m + 8 then
      let (a, s) := newResults [nh] s
      (packNode (2 ^ p.pos m) 0 a 0, s)
    else
      let (w, s) := freshStride p nh n (m + 1) s
      let (a, s) := newNodes (m + 1) [w] s
      (packNode 0 (2 ^ p.byte m) 0 a, s)

/-- A list with the element at a rank put in, replaced or taken out. -/
def atRank (here : Bool) (r : Nat) (x : Option Nat) (l : List Nat) : List Nat := l.take r ++ x.toList ++ l.drop (r + here.toNat)

def putBit (n i : Nat) (b : Bool) : Nat := if n.testBit i = b then n else if b then n + 2 ^ i else n - 2 ^ i

/-- A node's own prefix changes: a new result array, then the node's word, then the old array goes back. -/
def changeResult (p : PfxAt) (nh : Option Nat) (m ptr : Nat) (s : State) : State :=
  let w := nodeWord s m ptr
  let i := p.pos m
  let (a, s) := newResults (atRank ((intBmp w).testBit i) (popBelow (intBmp w) i) nh (nodeResults s w)) s
  let s := putNode m ptr (packNode (putBit (intBmp w) i nh.isSome) (extBmp w) a (childBase w)) s
  iff_ (intBmp w ≠ 0) (blkGive 15 (resBase w)) s

/-- A child of a node appears or goes: a new array of children, then the node's word, then the old array goes back with what
lay below a child that went. -/
def changeChild (p : PfxAt) (nh : Option Nat) (m ptr : Nat) (s : State) : State :=
  let w := nodeWord s m ptr
  let v := p.byte m
  let r := popBelow (extBmp w) v
  let old := nodeKids s m w
  let here := (extBmp w).testBit v
  let (kid, s) := match nh with
    | some x => let y := freshStride p x 14 (m + 1) s
                (some y.1, y.2)
    | none => (none, s)
  let (a, s) := newNodes (m + 1) (atRank here r kid old) s
  let s := putNode m ptr (packNode (intBmp w) (putBit (extBmp w) v nh.isSome) (resBase w) a) s
  let s := iff_ here (giveBelow 14 (m + 1) (old.getD r 0)) s
  iff_ (extBmp w ≠ 0) (blkGive (m + 1) (childBase w)) s

/-- The change below a node: at the deepest node of the path that stands before and after it. `keep`: after the change a node of
the path at a stage still holds a prefix. -/
def changeNode (p : PfxAt) (nh : Option Nat) (keep : Nat → Bool) : Nat → Nat → Nat → State → State
  | 0, _, _, s => s
  | n + 1, m, ptr, s =>
    if p.len ≤ stagePos m + 8 then changeResult p nh m ptr s
    else
      match nodeKid (nodeWord s m ptr) (p.byte m) with
      | some a => if keep (m + 1) then changeNode p nh keep n (m + 1) a s else changeChild p nh m ptr s
      | none => changeChild p nh m ptr s

/-- A prefix of more than 16 bits. -/
def changeDeep (r : Nat) (p : PfxAt) (nh : Option Nat) (keep : Nat → Bool) (s : State) : State :=
  let i := p.addr / 2 ^ (p.width - 16) % 65536
  let d := slotWord s r i
  match slotKid d, nh with
  | some a, _ =>
    if keep 1 then changeNode p nh keep 14 1 a s
    else blkGive 1 a (giveBelow 14 1 (nodeWord s 1 a) (putSlot r i (packSlot (slotRes d) none) s))
  | none, some x =>
    let (w, s) := freshStride p x 14 1 s
    let (a, s) := newNodes 1 [w] s
    putSlot r i (packSlot (slotRes d) (some a)) s
  | none, none => s

/-- A prefix of 1 to 16 bits, slot by slot: a result goes only into slots whose EXPLEN is at most its length or that hold none;
a removal leaves the next longest prefix of the slot. -/
def changeDirect (r : Nat) (p : PfxAt) (nh : Option Nat) (s : State) : State :=
  forEach (List.range (2 ^ (16 - p.len))) (fun j s =>
    let i := p.addr / 2 ^ (p.width - 16) % 65536 + j
    let d := slotWord s r i
    match nh with
    | some x => if directValid d && p.len < slotExplen d then s else putSlot r i (packSlot (some (x, p.len)) (slotKid d)) s
    | none =>
      let next := (lpmBest s r (BitVec.ofNat 128 (i * 2 ^ (p.width - 16))) 16).bind fun q =>
        if q.len = 0 then none else some (q.nh, q.len)
      if directValid d && slotExplen d = p.len then putSlot r i (packSlot next (slotKid d)) s else s) s

/-- Installed prefixes still stand under the node of stage m on an address's path. -/
def nodeKept (s : State) (r addr m : Nat) : Bool :=
  let w := rootWidth s r
  s.lpm.any fun q => q.root = r && stagePos m < q.len &&
    q.addr.toNat / 2 ^ (w - stagePos m) = addr / 2 ^ (w - stagePos m)

/-- Writes the memories for a prefix that has come, changed or gone. -/
def writeTrie (r len : Nat) (addr : BitVec 128) (nh : Option Nat) (s : State) : State :=
  let p : PfxAt := { width := rootWidth s r, addr := addr.toNat, len := len }
  if len = 0 then setTrie (fun x => { x with dflt := tput x.dflt r nh }) s
  else if len ≤ 16 then changeDirect r p nh s
  else changeDeep r p nh (nodeKept s r p.addr) s

/-! ## Shares (R170) -/

/-- Units a prefix costs (R170). -/
def unitCost (s : State) (r len : Nat) : Nat := if len = 0 then 0 else if (rootCfg s r).ip6 then 4 else 1

/-- The slice that a prefix is charged to: the owner of its root, or in a SHARED root the one the manager named. -/
def pfxSlice (s : State) (p : Pfx) : Nat := if (rootCfg s p.root).shared then p.slice else (rootCfg s p.root).slice

/-- Units charged to a slice: LPM_SLICE_USE. -/
def lpmUse (s : State) (slice : Nat) : Nat :=
  (s.lpm.filter fun p => pfxSlice s p = slice).foldl (fun n p => n + unitCost s p.root p.len) 0

def lpmShare (s : State) : Nat := 1572864 / nSlices s

def lpmExact (s : State) (r len : Nat) (addr : BitVec 128) : Option Pfx :=
  s.lpm.find? fun p => p.root = r && p.len = len && p.addr = addr

/-- The record without one prefix. -/
def lpmRemove (r len : Nat) (addr : BitVec 128) (s : State) : State :=
  { s with lpm := s.lpm.filter fun p => !(p.root = r && p.len = len && p.addr = addr) }

/-- A prefix is added, or its next hop rewritten (R172). -/
def lpmPut (p : Pfx) (s : State) : State :=
  let s := lpmRemove p.root p.len p.addr s
  writeTrie p.root p.len p.addr (some p.nh) { s with lpm := p :: s.lpm }

/-- A prefix is removed (R172). -/
def lpmDrop (r len : Nat) (addr : BitVec 128) (s : State) : State := writeTrie r len addr none (lpmRemove r len addr s)

/-- A root loses every prefix, and its storage goes back. -/
def clearRoot (r : Nat) (s : State) : State :=
  let mine (k : Nat) : Bool := k / 65536 = r
  let kids := (s.trie.direct.filter fun x => mine x.1).filterMap fun x => slotKid x.2.toNat
  let s := forEach kids (fun a s => blkGive 1 a (giveBelow 14 1 (nodeWord s 1 a) s)) s
  { s with
    lpm := s.lpm.filter (fun p => p.root ≠ r),
    trie := { s.trie with dflt := tput s.trie.dflt r none, direct := s.trie.direct.filter fun x => !mine x.1 } }

/-- The first installed prefix strictly after another in the order of address, then length (R171). -/
def lpmAfter (s : State) (r len : Nat) (addr : BitVec 128) : Option Pfx :=
  let after (a b : Pfx) : Bool := b.addr.toNat < a.addr.toNat || (a.addr = b.addr && b.len < a.len)
  (s.lpm.filter fun p => p.root = r && after p { len := len, addr := addr }).foldl
    (fun b p => match b with
      | some q => if after q p then some p else b
      | none => some p) none

/-! ## The LPM commands (R171, R334) -/

def lpmR (c : Cmd) : Nat := opf c 4 4 0
def lpmLen (c : Cmd) : Nat := opf c 4 23 16

/-- The slice a prefix is charged to: the root's owner, or in a SHARED root the one named. -/
def lpmCharge (c : Cmd) (s : State) : Nat :=
  if (rootCfg s (lpmR c)).shared then opf c 4 11 8 else (rootCfg s (lpmR c)).slice

/-- An operand address fits the family and has no bit beyond the length (R171). -/
def addrBad (s : State) (c : Cmd) (len : Nat) : Bool :=
  let w := rootWidth s (lpmR c)
  w < len || 2 ^ w ≤ (opKey c 8).toNat || (opKey c 8).toNat % 2 ^ (w - len) ≠ 0

/-- Checks in R336's order; `slice`: the SLICE operand is checked too; `len` the length the address must fit. -/
def lpmChecks (c : Cmd) (s : State) (slice : Bool) (len : Option Nat) : List (Bool × Nat) :=
  let r := rootCfg s (lpmR c)
  [(!r.en || (match len with
      | some l => addrBad s c l
      | none => 2 ^ rootWidth s (lpmR c) ≤ (opKey c 8).toNat) || (slice && !sliceOn s (opf c 4 11 8)), stBAD_OPERAND),
   (c.req ≠ mgr && (r.shared || r.slice ≠ c.req), stNO_PERMISSION),
   (noTile s, stFENCED_UNIT)]

/-- LPM.INS (R171, R172): a lookup sees the old set or the new one. -/
def execLpmIns (c : Cmd) (s : State) : Res :=
  .next <| runCmd c 0x81 .any (lpmChecks c s true (some (lpmLen c))) (fun s =>
    let p : Pfx := { root := lpmR c, len := lpmLen c, addr := opKey c 8, nh := opf c 5 17 0, slice := lpmCharge c s }
    match lpmExact s p.root p.len p.addr with
    | some q => if !opb c 4 12 then fin c stEXISTS [] s else fin c stOK [] (lpmPut { p with slice := q.slice } s)
    | none =>
      if lpmShare s < lpmUse s p.slice + unitCost s p.root p.len then fin c stTABLE_FULL [] s
      else fin c stOK [] (lpmPut p s)) s

/-- LPM.DEL. -/
def execLpmDel (c : Cmd) (s : State) : Res :=
  .next <| runCmd c 0x82 .any (lpmChecks c s true (some (lpmLen c))) (fun s =>
    match lpmExact s (lpmR c) (lpmLen c) (opKey c 8) with
    | some _ => fin c stOK [] (lpmDrop (lpmR c) (lpmLen c) (opKey c 8) s)
    | none => fin c stNOT_FOUND [] s) s

/-- LPM.SRCH. -/
def execLpmSrch (c : Cmd) (s : State) : Res :=
  .next <| runCmd c 0x83 .any (lpmChecks c s false (some (lpmLen c))) (fun s =>
    match lpmExact s (lpmR c) (lpmLen c) (opKey c 8) with
    | some p => fin c stOK [(2, word p.nh)] s
    | none => fin c stNOT_FOUND [] s) s

/-- A lookup in a tile's replica, and what an uncorrectable word that ends it does: counted LPM_TRUNC, and the word waits for its
repair; with no other tile to repair it from, the fault is CONTAINED (R174, R404). -/
def lookTrie (t r addr : Nat) (ue : List (Nat × Nat)) (s : State) : Option (Nat × Nat) × State :=
  let x := walkTrie s (wordBad s t ue) r addr
  (x.1, match x.2 with
    | some (m, a) =>
      let known := s.tblBad.contains (t, m, a)
      let s := lpmCnt t 2 (iff_ (!known) (fun s => { s with tblBad := (t, m, a) :: s.tblBad }) s)
      iff_ (!known && !(runningTiles s).any (· ≠ t)) (report (unitId 11 t) 0x0205 0 a) s
    | none => s)

/-- LPM.LKUP: what a frame to the address would use, as the home engine's tile reads it. -/
def execLpmLkup (c : Cmd) (s : State) : Res :=
  .next <| runCmd c 0x84 .any (lpmChecks c s false none) (fun s =>
    let x := lookTrie (homeTile s c) (lpmR c) (opKey c 8).toNat c.ue s
    match x.1 with
    | some (nh, len) => fin c stOK [(2, word nh), (3, pack [(7, 0, len)])] x.2
    | none => fin c stNOT_FOUND [] x.2) s

/-- LPM.NEXT. -/
def execLpmNext (c : Cmd) (s : State) : Res :=
  .next <| runCmd c 0x85 .any (lpmChecks c s false (some (lpmLen c))) (fun s =>
    match lpmAfter s (lpmR c) (lpmLen c) (opKey c 8) with
    | some p => fin c stOK ([(2, word p.nh), (4, setFld (opw c 4) 23 16 p.len)] ++ retBits 8 4 p.addr.toNat) s
    | none => fin c stNOT_FOUND [] s) s

end Sys2Proof.Machine
end

