-- ==== Sys2Proof/Machine/ExactMatch.lean ====
section
/-! DEFINITION. Exact-match tables (06_exact_match.md): buckets, entries, shares, the journal and the TBL commands. -/
namespace Sys2Proof.Machine

/-- A table's profile (R140). -/
def exmProf (s : State) (n : Nat) : ExmProf := tget (img s).exm.tables n

/-- LEARN and JOURNAL act on tables of at most 12 key bytes (R155). -/
def learnOn (p : ExmProf) : Bool := p.learn && p.keyBytes ≤ 12
def journalOn (p : ExmProf) : Bool := p.journal && p.keyBytes ≤ 12

/-- First overflow position and the end position of a walk (R149). -/
def exmOvf : Nat := 524288
def exmEnd : Nat := 528384

/-- An entry's LAST_HIT in a tile taken from another tile's replica (R152, R404). -/
def hitFrom (t u : Nat) (e : ExmEntry) : ExmEntry :=
  { e with lastHit := (e.lastHit ++ List.replicate (8 - e.lastHit.length) 0).set t (e.lastHit.getD u 0) }

/-- The bucket of a key (R141). -/
def bucketOf (p : ExmProf) (slice : Nat) (key : BitVec 128) : Nat :=
  let sb : Nat := if p.shared then 0 else slice
  (crcSeeded p.seed (leBytes 16 key.toNat ++ [BitVec.ofNat 8 sb])).toNat % 524288

/-- The tick count of a table (R150). -/
def exmTick (s : State) (p : ExmProf) : Nat := s.tim.frc / (p.ageTick * 1000000) % 65536

/-- An entry belongs to a table and, unless the table is SHARED, to a slice, with a key (R143). -/
def exmMatches (p : ExmProf) (n slice : Nat) (key : BitVec 128) (e : ExmEntry) : Bool :=
  e.valid && e.table = n && e.key = key && (p.shared || e.slice = slice)

/-- OVF_CNT of a bucket's header: its entries in the overflow store (R141). -/
def ovfCnt (s : State) (b : Nat) : Nat := (tget s.exm.headers b).toNat % 8192

def setOvf (b n : Nat) (s : State) : State :=
  { s with exm := { s.exm with headers := tput s.exm.headers b (BitVec.ofNat 16 n) } }

/-- What a read of a bucket sees, keyed by position × 4 + way: its four ways, and its overflow entries where OVF_CNT is not 0
(R143). -/
def inBucket (s : State) (b : Nat) (x : Nat × ExmEntry) : Bool :=
  x.1 / 4 = b || (exmOvf * 4 ≤ x.1 && ovfCnt s b ≠ 0 && x.2.bucket = b)

/-- The entry of a key in its bucket; a bad word reads as a miss (R142, R143). -/
def exmFind (s : State) (n slice : Nat) (key : BitVec 128) (bad : Nat → Bool) : Option (Nat × ExmEntry) :=
  let p := exmProf s n
  s.exm.entries.find? fun x => inBucket s (bucketOf p slice key) x && !bad x.1 && exmMatches p n slice key x.2

/-- A word of a tile's exact-match store is uncorrectable (R404). -/
def exmBad (s : State) (t k : Nat) : Bool := s.tblBad.contains (t, 16, k)

/-- Words of a tile's store are found uncorrectable: each raises TABLE_UE and reads as a miss until it is rewritten (R142, R404). -/
def exmErrors (t : Nat) (ks : List Nat) (s : State) : State :=
  forEach ks (fun k s =>
    if exmBad s t k then s else report (unitId 11 t) 0x0205 0 k { s with tblBad := (t, 16, k) :: s.tblBad }) s

/-- Entries and overflow entries charged to a slice (R145). -/
def exmUse (s : State) (slice : Nat) : Nat := (s.exm.entries.filter fun x => x.2.slice = slice).length
def exmOvfUse (s : State) (slice : Nat) : Nat :=
  (s.exm.entries.filter fun x => x.2.slice = slice && exmOvf * 4 ≤ x.1).length

def exmShare (s : State) : Nat := 2097152 / nSlices s
def exmOvfShare (s : State) : Nat := 4096 / nSlices s

/-- The place a new entry takes (R146): the lowest free way, else the lowest free overflow entry; `none` is TABLE_FULL. -/
def exmPlace (s : State) (bucket slice : Nat) : Option Nat :=
  if exmShare s ≤ exmUse s slice then none
  else
    match (List.range 4).find? fun w => !(tget s.exm.entries (bucket * 4 + w)).valid with
    | some w => some (bucket * 4 + w)
    | none =>
      if exmOvfShare s ≤ exmOvfUse s slice then none
      else ((List.range 4096).find? fun i => !(tget s.exm.entries ((exmOvf + i) * 4)).valid).map fun i => (exmOvf + i) * 4

/-- Writes an entry in every replica, whatever error its word had. -/
def exmPut (k : Nat) (e : ExmEntry) (s : State) : State :=
  { s with exm := { s.exm with entries := tput s.exm.entries k e }, tblBad := s.tblBad.filter fun x => x.2 ≠ (16, k) }

/-- A new entry; one in the overflow store counts in its bucket's header (R146). -/
def exmAdd (k : Nat) (e : ExmEntry) (s : State) : State :=
  iff_ (exmOvf * 4 ≤ k) (fun s => setOvf e.bucket (ovfCnt s e.bucket + 1) s) (exmPut k e s)

/-- An entry's VALID clears in every replica. -/
def exmClear (k : Nat) (s : State) : State :=
  let b := (tget s.exm.entries k).bucket
  iff_ (exmOvf * 4 ≤ k) (fun s => setOvf b (ovfCnt s b - 1) s) (exmPut k default s)

/-- LAST_HIT writes that were on their way land; one whose entry has gone is discarded (R151, R153). -/
def landHits (s : State) : State :=
  forEach s.exm.late (fun x s => { s with exm := { s.exm with entries := tupd s.exm.entries x.2.1 fun e =>
      if e.valid then { e with lastHit := (e.lastHit ++ List.replicate (8 - e.lastHit.length) 0).set x.1 x.2.2 } else e } })
    { s with exm := { s.exm with late := [] } }

/-- Appends a completed change to the learn journal (R162). -/
def journalAppend (op : Nat) (e : ExmEntry) (s : State) : State :=
  if !journalOn (exmProf s e.table) then s
  else
    let j : JEntry := {
      seq := s.exm.jSeq + 1, time := s.tim.now, op := op, table := e.table, slice := e.slice, static := e.static,
      ageExempt := e.ageExempt, result := e.result, key := e.key }
    { s with exm := { s.exm with
        journal := if 65536 ≤ s.exm.journal.length then s.exm.journal.drop 1 ++ [j] else s.exm.journal ++ [j],
        jTrunc := s.exm.jTrunc || 65536 ≤ s.exm.journal.length,
        jSeq := s.exm.jSeq + 1 } }

/-- Releases the learn-filter entries of a key in every tile (R157). -/
def learnRelease (n slice : Nat) (key : BitVec 128) (s : State) : State :=
  let shared := (exmProf s n).shared
  { s with exm := { s.exm with
      learn := s.exm.learn.filter fun l => !(l.table = n && l.key = key && (shared || l.slice = slice)) } }

/-- A deletion of an entry: VALID clears in every replica, the journal records it, its filter entries are released. -/
def exmDelete (op k : Nat) (s : State) : State :=
  let e := tget s.exm.entries k
  learnRelease e.table e.slice e.key (journalAppend op e (exmClear k s))

/-- The age of an entry: the least over the running replicas (R152). -/
def exmAge (s : State) (p : ExmProf) (e : ExmEntry) : Nat :=
  (runningTiles s).foldl (fun m t => min m ((exmTick s p + 65536 - e.lastHit.getD t 0 % 65536) % 65536)) 65535

/-- The newest LAST_HIT over the running replicas (R147). -/
def newestHit (s : State) (p : ExmProf) (e : ExmEntry) : Nat := (exmTick s p + 65536 - exmAge s p e) % 65536

/-- Places the image's initial contents by insertion (R322). -/
def exmLoad (l : List ExmEntry) (s : State) : State :=
  forEach l (fun e s =>
    let p := exmProf s e.table
    match exmPlace s (bucketOf p e.slice e.key) e.slice with
    | some k => exmAdd k { e with valid := true, bucket := bucketOf p e.slice e.key, lastHit := List.replicate 8 (exmTick s p) } s
    | none => s) s

/-! ## The TBL commands (R147 to R152, R334) -/

def tblN (c : Cmd) : Nat := opf c 4 3 0
def tblSl (c : Cmd) : Nat := opf c 4 7 4

/-- The key fits the table (R147). -/
def keyFits (p : ExmProf) (key : BitVec 128) : Bool := key.toNat < 2 ^ (8 * p.keyBytes)

/-- Checks of SRCH, INS and DEL in R336's order; `extra` are an opcode's own operand ranges. -/
def tblChecks (c : Cmd) (s : State) (extra : Bool) : List (Bool × Nat) :=
  let p := exmProf s (tblN c)
  [(!p.en || !keyFits p (opKey c 8) || !sliceOn s (tblSl c) || extra, stBAD_OPERAND),
   (c.req ≠ mgr && (p.shared || tblSl c ≠ c.req), stNO_PERMISSION),
   (noTile s, stFENCED_UNIT)]

/-- Exact-match words that a command finds uncorrectable. -/
def exmUe (c : Cmd) : List Nat := (c.ue.filter fun u => u.1 = 16).map (·.2)

/-- A command reads the replica of its home engine's tile: words found uncorrectable now are noted, and LAST_HIT writes have
landed. -/
def tblReads (c : Cmd) (s : State) : State := exmErrors (homeTile s c) (exmUe c) (landHits s)

/-- The entry a command finds. -/
def tblFind (c : Cmd) (s : State) : Option (Nat × ExmEntry) :=
  exmFind s (tblN c) (tblSl c) (opKey c 8) (exmBad s (homeTile s c))

/-- TBL.SRCH (R147). -/
def execTblSrch (c : Cmd) (s : State) : Res :=
  .next <| runCmd c 0x41 .any (tblChecks c s false) (fun s =>
    let s := tblReads c s
    match tblFind c s with
    | some (_, e) =>
      fin c stOK [(2, e.result),
        (3, pack [(15, 0, newestHit s (exmProf s (tblN c)) e), (16, 16, e.static.toNat), (17, 17, e.ageExempt.toNat)])] s
    | none => fin c stNOT_FOUND [] s) s

/-- RESULT as stored: KIND, and 18 bits of port or next hop (R142). -/
def exmResult (w : Word) : Word := pack [(31, 31, fld w 31 31), (17, 0, fld w 17 0)]

/-- TBL.INS: add, or with REPLACE rewrite RESULT and the flags; LAST_HIT takes the current tick (R146, R147). -/
def tblInsert (c : Cmd) (s : State) : State :=
  let n := tblN c
  let p := exmProf s n
  let key := opKey c 8
  let hits := List.replicate 8 (exmTick s p)
  match tblFind c s with
  | some (k, e) =>
    if !opb c 4 10 then fin c stEXISTS [] s
    else
      let e := { e with result := exmResult (opw c 5), static := opb c 4 8, ageExempt := opb c 4 9, lastHit := hits }
      fin c stOK [] (learnRelease n e.slice key (journalAppend 2 e (exmPut k e s)))
  | none =>
    match exmPlace s (bucketOf p (tblSl c) key) (tblSl c) with
    | none => fin c stTABLE_FULL [] (exmCnt (homeTile s c) n 7 s)
    | some k =>
      let e : ExmEntry := {
        valid := true, key := key, result := exmResult (opw c 5), static := opb c 4 8, ageExempt := opb c 4 9,
        slice := tblSl c, table := n, bucket := bucketOf p (tblSl c) key, lastHit := hits }
      fin c stOK [] (learnRelease n e.slice key (journalAppend 1 e (exmAdd k e s)))

def execTblIns (c : Cmd) (s : State) : Res :=
  .next <| runCmd c 0x42 .any (tblChecks c s (!opb c 5 31 && 528 ≤ opf c 5 17 0)) (fun s => tblInsert c (tblReads c s)) s

/-- TBL.DEL (R147). -/
def execTblDel (c : Cmd) (s : State) : Res :=
  .next <| runCmd c 0x43 .any (tblChecks c s false) (fun s =>
    let s := tblReads c s
    match tblFind c s with
    | some (k, _) => fin c stOK [] (exmDelete 3 k s)
    | none => fin c stNOT_FOUND [] s) s

/-! ## Iterative commands (R343 to R345): one step to each row -/

/-- Runs one step of an iterative command. `step` answers the state after the step, the next cursor, and either `none` (the
walk goes on) or the status it ends with and its returned words; `tot` are the totals so far. -/
def iterRun (c : Cmd) (start : Nat)
    (step : Nat → Nat × Nat → State → State × Nat × (Nat × Nat) × Option (Nat × List (Nat × Word))) (s : State) : State :=
  let it := ((ringSt s c.req c.ring).iter).getD { desc := c.desc, cursor := BitVec.ofNat 64 start }
  let (s, cur, tot, e) := step it.cursor.toNat (it.tot1, it.tot2) s
  let it := { it with cursor := BitVec.ofNat 64 cur, steps := it.steps + 1, tot1 := tot.1, tot2 := tot.2 }
  let cw := [(2, word cur), (3, word (cur / 4294967296))]
  match e with
  | some (st, ret) => fin c st (iterWords it ++ cw ++ ret) s
  | none =>
    if opSteps c ≠ 0 && opSteps c ≤ it.steps then fin c stPARTIAL (iterWords it) s
    else
      emitHost (.cursor c.req c.ring (ringSt s c.req c.ring).cons it.cursor)
        (setRing c.req c.ring (fun g => { g with iter := some it }) s)

/-- The command is the iterative one in progress on its ring. -/
def iterating (c : Cmd) (s : State) : Bool := ((ringSt s c.req c.ring).iter).any fun it => it.desc = c.desc

/-- Checks made only when an iterative command begins: a GEN that changes while a walk runs does not end it (DESIGN CHOICE, log
106). -/
def iterChecks (c : Cmd) (s : State) (l : List (Bool × Nat)) : List (Bool × Nat) := if iterating c s then [] else l

/-- The slice a walk visits, if it is limited to one (R148, R334). -/
def walkSlice (c : Cmd) : Option Nat := if c.req ≠ mgr then some c.req else if opb c 4 11 then some (tblSl c) else none

/-- A TBL cursor (R149). -/
def tblCursor (s : State) (n pos way : Nat) : Nat :=
  pos + way * 1048576 + tget s.exm.gen n * 4294967296 + n * 17592186044416

/-- A cursor fits its command (R149, R344). -/
def tblCursorOk (c : Cmd) (ways : Bool) : Bool :=
  let cur := opCursor c
  let pos := cur % 1048576
  let way := cur / 1048576 % 4
  cur = startCursor ||
    (pos ≤ exmEnd && cur / 4194304 % 1024 = 0 && cur / 281474976710656 = 0 && cur / 17592186044416 % 16 = tblN c &&
     (way = 0 || (ways && pos < exmOvf)))

/-- Checks of the walks. SLICE is the manager's field: a slice's walk ignores it (DESIGN CHOICE, log 102). -/
def walkChecks (c : Cmd) (s : State) (ways extra : Bool) : List (Bool × Nat) :=
  let p := exmProf s (tblN c)
  iterChecks c s
    [(!p.en || !tblCursorOk c ways || extra || (c.req = mgr && opb c 4 11 && !sliceOn s (tblSl c)), stBAD_OPERAND),
     (c.req ≠ mgr && p.shared, stNO_PERMISSION),
     (noTile s, stFENCED_UNIT),
     (opCursor c ≠ startCursor && opCursor c / 4294967296 % 4096 ≠ tget s.exm.gen (tblN c), stSTALE_CURSOR)]

/-- Where a walk begins. -/
def walkStart (c : Cmd) (s : State) : Nat := if opCursor c = startCursor then tblCursor s (tblN c) 0 0 else opCursor c

/-- Entries of a table a walk visits at positions [lo, hi), in order of position and way. -/
def walkEntries (c : Cmd) (s : State) (lo hi : Nat) : List (Nat × ExmEntry) :=
  s.exm.entries.filter fun x =>
    x.2.valid && x.2.table = tblN c && lo * 4 ≤ x.1 && x.1 < hi * 4 && !exmBad s (homeTile s c) x.1 &&
      (match walkSlice c with
       | some sl => x.2.slice = sl
       | none => true)

/-- The words an entry returns in TBL.NEXT (R334). -/
def nextWords (c : Cmd) (s : State) (e : ExmEntry) : List (Nat × Word) :=
  [(4, setFld (setFld (setFld (setFld (opw c 4) 3 0 e.table) 7 4 e.slice) 8 8 e.static.toNat) 9 9 e.ageExempt.toNat),
   (5, e.result), (6, pack [(15, 0, newestHit s (exmProf s e.table) e)])] ++ retBits 8 4 e.key.toNat

/-- One step of TBL.NEXT: the first valid entry, or 256 positions (R149). -/
def tblNextStep (c : Cmd) (cur : Nat) (tot : Nat × Nat) (s : State) :
    State × Nat × (Nat × Nat) × Option (Nat × List (Nat × Word)) :=
  let pos := cur % 1048576
  let way := cur / 1048576 % 4
  let hi := min (pos + 256) exmEnd
  match (walkEntries c s pos hi).find? fun x => pos * 4 + way ≤ x.1 with
  | some (k, e) =>
    let nxt := if k / 4 < exmOvf && k % 4 < 3 then tblCursor s (tblN c) (k / 4) (k % 4 + 1) else tblCursor s (tblN c) (k / 4 + 1) 0
    (s, nxt, tot, some (stOK, nextWords c s e))
  | none => (s, tblCursor s (tblN c) hi 0, tot, if hi = exmEnd then some (stNOT_FOUND, []) else none)

def execTblNext (c : Cmd) (s : State) : Res :=
  .next <| runCmd c 0x44 .any (walkChecks c s true false) (fun u => iterRun c (walkStart c s) (tblNextStep c) (tblReads c u)) s

/-- One step of a sweep over 64 positions, with a change made at each entry visited. -/
def sweepStep (c : Cmd) (f : Nat → ExmEntry → Nat × Nat → State → State × (Nat × Nat)) (cur : Nat) (tot : Nat × Nat) (s : State) :
    State × Nat × (Nat × Nat) × Option (Nat × List (Nat × Word)) :=
  let pos := cur % 1048576
  let hi := min (pos + 64) exmEnd
  let (s', tot') := (walkEntries c s pos hi).foldl (fun a x => f x.1 x.2 a.2 a.1) (s, tot)
  (s', tblCursor s (tblN c) hi 0, tot', if hi = exmEnd then some (stOK, []) else none)

/-- TBL.FLUSHP on one entry (R147). -/
def flushEntry (prt k : Nat) (e : ExmEntry) (tot : Nat × Nat) (s : State) : State × (Nat × Nat) :=
  if !e.static && !bit e.result 31 && fld e.result 17 0 = prt then (exmDelete 5 k s, (tot.1 + 1, tot.2)) else (s, tot)

def execTblFlushp (c : Cmd) (s : State) : Res :=
  .next <| runCmd c 0x45 .any (walkChecks c s false (528 ≤ opf c 5 9 0)) (fun u =>
    iterRun c (walkStart c s) (sweepStep c (flushEntry (opf c 5 9 0))) (tblReads c u)) s

/-- TBL.AGE on one entry: a conditional delete that a hit in between defeats (R152, R153). `raced`: entries whose LAST_HIT a
write changed between the read and the check. -/
def ageEntry (home maxAge : Nat) (raced : List Nat) (k : Nat) (e : ExmEntry) (tot : Nat × Nat) (s : State) :
    State × (Nat × Nat) :=
  if e.static || e.ageExempt || exmAge s (exmProf s e.table) e < maxAge then (s, tot)
  else if raced.contains k then (exmCnt home e.table 6 s, (tot.1, tot.2 + 1))
  else (exmCnt home e.table 5 (exmDelete 4 k s), (tot.1 + 1, tot.2))

/-- LAST_HIT writes on their way land after the sweep's step: one that came before the check is among `raced`, one whose entry
went is discarded. -/
def execTblAge (c : Cmd) (raced : List Nat) (s : State) : Res :=
  .next <| runCmd c 0x46 .any (walkChecks c s false (opf c 5 14 0 = 0)) (fun u =>
    landHits (iterRun c (walkStart c s) (sweepStep c (ageEntry (homeTile s c) (opf c 5 14 0) raced)) (exmErrors (homeTile u c) (exmUe c) u))) s

/-- The last sequence number the journal gave out (R163). -/
def ckptSeq (s : State) : Nat := s.exm.jSeq

/-- TBL.CKPT (R163). -/
def execTblCkpt (c : Cmd) (s : State) : Res :=
  .next <| runCmd c 0x47 .manager [] (fun s =>
    fin c stOK [(2, word (ckptSeq s))] { s with exm := { s.exm with journal := [], jTrunc := false } }) s

/-! ## Words with errors (R142, R174, R404) -/

/-- TABLE_WORD_REPAIRED (R174, R404): an uncorrectable word is rewritten from the lowest-numbered other running tile's replica; a
trie word also records LPM_REPAIRED and counts. Memory 16 stands for the exact-match store, whose entries take that replica's
LAST_HIT too. -/
def execTableWordRepaired (tile mem addr : Nat) (s : State) : Res :=
  .next <| match (runningTiles s).find? (· ≠ tile) with
    | none => s
    | some u =>
      iff_ (tileRunning s tile && s.tblBad.contains (tile, mem, addr)) (fun s =>
        let s := { s with tblBad := s.tblBad.filter (· ≠ (tile, mem, addr)) }
        if mem < 16 then lpmCnt tile 3 (report (unitId 11 tile) 0x0104 0 addr s)
        else { s with exm := { s.exm with entries := tupd s.exm.entries addr (hitFrom tile u) } }) s

end Sys2Proof.Machine
end

