-- ==== Sys2Proof/Machine/Parser.lean ====
section
/-! DEFINITION. The parser (05_parser.md): profiles, graph entries, the walk of R123 and what a parsed frame carries. -/
namespace Sys2Proof.Machine

/-- n bits at a bit offset of network-order bytes; `none` where a bit lies at or past `limit` bytes (R123). -/
def bitsAt (bs : List Byte) (limit bitOff n : Nat) : Option Nat :=
  if n = 0 then some 0
  else if limit * 8 < bitOff + n then none
  else
    let b0 := bitOff / 8
    let b1 := (bitOff + n + 7) / 8
    some (beNat ((bs.drop b0).take (b1 - b0)) >>> (b1 * 8 - bitOff - n) % 2 ^ n)

/-- A bit field of a graph entry. -/
def gf (v hi lo : Nat) : Nat := (v >>> lo) % 2 ^ (hi + 1 - lo)

/-- The outcome of the parser for a frame (R123, R135, R136). -/
structure Parsed where
  hv : List Word := []
  exc : Nat := 0
  parseEnd : Nat := 0
  endState : Nat := 0
  ptp : Bool := false
  tunnelled : Bool := false
  tags : Nat := 0
  labels : Nat := 0
  claims : List Nat := []
  /-- per header, that a KIND 3 state recorded it -/
  tuns : List Bool := []
deriving DecidableEq, Repr, Inhabited

/-- Exception bits of R130. -/
def excDepth : Nat := 0
def excContra : Nat := 1
def excShort : Nat := 2
def excCsum : Nat := 3
def excMiss : Nat := 4

def raiseExc (e : Nat) (r : Parsed) : Parsed := { r with exc := r.exc ||| (2 ^ e) }

/-- The IPv4 header checksum over a header is good. -/
def ipv4SumOk (h : List Byte) : Bool :=
  let rec go : Nat → List Byte → Nat
    | 0, _ => 0
    | n + 1, l => beNat (l.take 2 ++ List.replicate (2 - (l.take 2).length) 0) + go n (l.drop 2)
  let fold (x : Nat) : Nat := x % 65536 + x / 65536
  fold (fold (go ((h.length + 1) / 2) h)) = 65535

/-- The end a header claims (R121 LCHK, R126). -/
def claimedEnd (lchk off : Nat) (bs : List Byte) : Option Nat :=
  match lchk with
  | 1 => some (off + beNat ((bs.drop (off + 2)).take 2))
  | 2 => some (off + 40 + beNat ((bs.drop (off + 4)).take 2))
  | 3 => some (off + beNat ((bs.drop (off + 4)).take 2))
  | _ => none

/-- The innermost claimed end in force. -/
def innermost (claims : List Nat) : Option Nat :=
  match claims with
  | [] => none
  | a :: l => some (l.foldl min a)

/-- The length checks of R126 pass for a header of a length. -/
def lengthOk (bs : List Byte) (complete : Bool) (limit lchk off len : Nat) (claims : List Nat) : Bool :=
  ((innermost claims).all fun e => off + len ≤ e) &&
  (match claimedEnd lchk off bs with
   | some e => off + len ≤ e && ((innermost claims).all fun x => e ≤ x) && (!complete || e ≤ limit)
   | none => true)

/-- The first transition of a state that matches a selector (R122). -/
def matchTr (tr : Tab (BitVec 80)) (base sv : Nat) : Nat → Option Nat
  | 0 => none
  | n + 1 =>
    let e := (tget tr base).toNat
    if Nat.land sv (gf e 63 32) = Nat.land (gf e 31 0) (gf e 63 32) then some e else matchTr tr (base + 1) sv n

/-- The walk of R123; `fuel` bounds it by the 24 headers a profile can allow. `limit`: bytes the parser may read; `depth`: PAR_DEPTH,
past which no frame has headers (R124). A state counts as visited once its header is recorded (log 99). -/
def parseWalk (sec : ParseSec) (bs : List Byte) (complete : Bool) (limit depth hdrLimit : Nat) :
    Nat → Nat → Nat → Parsed → Parsed
  | 0, _, off, r => { raiseExc excDepth r with parseEnd := off }
  | fuel + 1, state, off, r =>
    let g := (tget sec.graph state).toNat
    let r := { r with parseEnd := off }
    let kind := gf g 87 86
    let past := if complete then excShort else excDepth
    if gf g 7 0 = 0 then raiseExc excMiss r
    else if r.hv.length = hdrLimit || (kind = 1 && r.tags = 4) || (kind = 2 && r.labels = 12) then raiseExc excDepth r
    else
      match bitsAt bs limit (off * 8 + gf g 25 17) (gf g 29 26), bitsAt bs limit (off * 8 + gf g 58 50) (gf g 64 59) with
      | some lf, some sv =>
        let len := gf g 16 8 + lf * 2 ^ gf g 31 30
        let lchk := gf g 85 84
        if len < gf g 40 32 then raiseExc excContra r
        else if gf g 49 41 < len then raiseExc excDepth r
        else if limit < off + len then raiseExc past r
        else if depth < off + len then raiseExc excDepth r
        else if !lengthOk bs complete limit lchk off len r.claims then raiseExc excContra r
        else
          let r := if gf g 83 82 = 1 && !ipv4SumOk ((bs.drop off).take len) then raiseExc excCsum r else r
          let r := { r with
            hv := r.hv ++ [pack [(31, 24, gf g 7 0), (21, 12, len), (8, 0, off)]],
            tags := r.tags + (if kind = 1 then 1 else 0), labels := r.labels + (if kind = 2 then 1 else 0),
            tunnelled := r.tunnelled || kind = 3, tuns := r.tuns ++ [decide (kind = 3)], endState := state,
            claims := (claimedEnd lchk off bs).toList ++ r.claims, parseEnd := off + len }
          match matchTr sec.trans (gf g 76 65) sv (gf g 81 77) with
          | none => raiseExc excMiss r
          | some e =>
            let r := { r with ptp := r.ptp || e.testBit 73 }
            if e.testBit 72 then r else parseWalk sec bs complete limit depth hdrLimit fuel (gf e 71 64) (off + len) r
      | _, _ => raiseExc past r

/-- The profile number of a frame's port (R119). -/
def profileOf (s : State) (p : Nat) : Nat :=
  if p < 512 then rfld s .parPortProf (portTile p) (p % 64) 5 0 else rfld s .parHostProf (portTile p) ((p - 512) / 8) 5 0

/-- A profile's register. -/
def profWord (s : State) (t n : Nat) : Word := rget s .parProf t n

/-- PAR_DEPTH of a profile in bytes. -/
def parDepth (w : Word) : Nat := 16 * fld w 13 8

/-- Parses a frame of which `present` bytes lie in the landing buffer. On a frame that is not complete the parser reads up to
PAR_DEPTH, whatever octets are there (R123, R128). -/
def parseFrame (s : State) (t prof present : Nat) (bs : List Byte) : Parsed :=
  let w := profWord s t prof
  let complete := bs.length ≤ present
  let limit := if complete then bs.length - 4 else parDepth w
  parseWalk (img s).parse bs complete limit (parDepth w) (min 24 (fld w 18 14)) 25 (fld w 7 0) 0 { endState := fld w 7 0 }

/-- Writes a value at bits [hi:lo] of the metadata. -/
def mdSet (hi lo v : Nat) (m : BitVec 256) : BitVec 256 :=
  BitVec.ofNat 256 (m.toNat - (gf m.toNat hi lo <<< lo) + ((v % 2 ^ (hi + 1 - lo)) <<< lo))

def mdGet (m : BitVec 256) (hi lo : Nat) : Nat := gf m.toNat hi lo

/-- Metadata bits [159:0] of a parsed frame with the action stage's defaults (R136, R198). -/
def parsedMeta (s : State) (f : Frame) (present : Nat) (r : Parsed) : BitVec 256 :=
  let complete := decide (f.bytes.length ≤ present)
  ([(31, 0, f.ts.ns), (79, 32, f.ts.sec), (89, 80, f.port), (93, 90, (portOwner s f.port).getD 0),
    (94, 94, (portOwner s f.port).isSome.toNat), (100, 95, profileOf s f.port), (105, 101, r.exc),
    (110, 106, r.hv.length), (120, 111, r.parseEnd), (128, 121, r.endState), (129, 129, r.ptp.toNat),
    (130, 130, r.tunnelled.toNat), (133, 131, r.tags), (137, 134, r.labels), (138, 138, complete.toNat),
    (139, 139, f.secured.toNat), (140, 140, f.injected.toNat),
    (154, 141, if complete then f.bytes.length else 0), (169, 160, 1023)] : List (Nat × Nat × Nat)).foldl
    (fun m x => mdSet x.1 x.2.1 x.2.2 m) 0

/-- The exception code that selects the action: the stopping code, or CSUM_BAD when it is the sole code (R132). -/
def actingExc (exc : Nat) : Option Nat :=
  match ([excDepth, excContra, excShort, excMiss] : List Nat).find? fun e => exc.testBit e with
  | some e => some e
  | none => if exc.testBit excCsum then some excCsum else none

/-- The action of a profile for a code (R131, PAR_PROF). -/
def excAction (w : Word) (e : Nat) : Nat := fld w (23 + 2 * e) (22 + 2 * e)

end Sys2Proof.Machine
end

