-- ==== Sys2Proof/Machine/Sched.lean ====
section
/-! DEFINITION. Scheduling (R278 to R302): gates, shapers, selection with DWRR, PULLs, multicast pulls, policers. -/
namespace Sys2Proof.Machine

/-! ## Gate lists (R293 to R297) -/

/-- INTERVAL sums: start of each entry of a list in its cycle, cut at the cycle's end. -/
def entryStart (l : GateList) (i : Nat) : Nat :=
  min l.cycle ((List.range i).foldl (fun n k => n + (tget l.entries k).interval) 0)

/-- How long entry i is in force in each cycle (R293). -/
def entryLen (l : GateList) (i : Nat) : Nat :=
  if i + 1 = l.count then l.cycle - entryStart l i else entryStart l (i + 1) - entryStart l i

/-- Offset of an instant in a list's cycle; cycles run before and after the base time alike. -/
def cycleOffset (l : GateList) (now : Nat) : Nat := ((now : Int) - (l.base.toNs : Int)).emod l.cycle |>.toNat

/-- The first cycle start of a list at or after an instant. -/
def nextCycle (l : GateList) (t : Nat) : Nat := if cycleOffset l t = 0 then t else t + l.cycle - cycleOffset l t

/-- The instant is inside entry i by module time. -/
def inEntry (l : GateList) (i now : Nat) : Bool :=
  entryStart l i ≤ cycleOffset l now && cycleOffset l now < entryStart l i + entryLen l i

/-- Time left in the entry in force, by module time; an entry just entered has its whole length. -/
def entryLeft (l : GateList) (i now : Nat) : Nat :=
  if inEntry l i now then entryStart l i + entryLen l i - cycleOffset l now else entryLen l i

/-- A stretch of a schedule: its length, and the entry in force. -/
abbrev Stretch := Nat × GateEntry

/-- With no list in force everything is open. -/
def noList (n : Nat) : List Stretch := [(n + 1, { states := 255 })]

/-- A list from the start of a cycle, for more than n ns. -/
def fromEntry0 (l : GateList) (n : Nat) : List Stretch :=
  if l.count = 0 then noList n
  else (List.replicate (n / l.cycle + 1) ((List.range l.count).map fun i => (entryLen l i, tget l.entries i))).flatten

/-- What is left of the cycle in entry i; a list that waits to realign stays there to its next boundary (R114). -/
def restOfCycle (l : GateList) (i now : Nat) (waits : Bool) : List Stretch :=
  if waits then [(nextCycle l now - now, tget l.entries i)]
  else (entryLeft l i now, tget l.entries i) :: ((List.range l.count).drop (i + 1)).map fun k => (entryLen l k, tget l.entries k)

/-- A schedule up to an offset. -/
def cutAt : Nat → List Stretch → List Stretch
  | _, [] => []
  | n, x :: l => if n ≤ x.1 then [(n, x.2)] else x :: cutAt (n - x.1) l

def gateOf (s : State) (p : Nat) : Gate := tget s.sch.gates p
def sgateOf (s : State) (g : Nat) : Gate := tget s.sch.sgates g

/-- What a gate does in the next n ns, a pending switch among it (R293, R294). `k` is the schedule's number in the realignment
list. -/
def ahead (s : State) (k : Nat) (g : Gate) (n : Nat) : List Stretch :=
  let now := nowNs s
  let cur := if g.active.count = 0 then noList n
    else restOfCycle g.active g.entry now (s.tim.realign.contains k) ++ fromEntry0 g.active n
  match g.pending with
  | some l =>
    let left := effective s g.switchAt - now
    if n < left then cur else cutAt left cur ++ fromEntry0 l n
  | none => cur

/-- Every stretch of the next n ns is open. -/
def staysOpen (f : GateEntry → Bool) : Nat → List Stretch → Bool
  | _, [] => true
  | n, x :: l => n = 0 || ((x.1 = 0 || f x.2) && staysOpen f (n - x.1) l)

/-- Some stretch that begins within the next n ns is open. -/
def getsOpen (f : GateEntry → Bool) : Nat → List Stretch → Bool
  | _, [] => false
  | n, x :: l => (x.1 ≠ 0 && f x.2) || (x.1 ≤ n && getsOpen f (n - x.1) l)

/-- The entry in force of an active list. -/
def entryNow (g : Gate) : GateEntry := tget g.active.entries g.entry

/-- A stream gate is open: no list, or an open entry (R296); or it is kept open for a frame under way (R295). -/
def sgOpen (s : State) (g : Nat) : Bool :=
  (sgateOf s g).active.count = 0 || (entryNow (sgateOf s g)).states % 2 = 1 || (sgateOf s g).keep.isSome

/-- Stream gates bound to a (port, class) that are closed (R297). -/
def sgCloses (s : State) (p c : Nat) : Bool := s.sch.sgates.any fun x => x.2.bind = some (p, c) && !sgOpen s x.1

/-- The port's own gate of a class is open (R293), or kept open for a frame under way (R295). -/
def portGateOpen (s : State) (p c : Nat) : Bool :=
  (gateOf s p).active.count = 0 || (entryNow (gateOf s p)).states.testBit c || (gateOf s p).keep = some c

/-- A class is open at a port; a host port has no gates (R285). -/
def classOpen (s : State) (p c : Nat) : Bool := 512 ≤ p || (portGateOpen s p c && !sgCloses s p c)

/-- Classes open now: SCH_GATE_STAT.STATES. -/
def openStates (s : State) (p : Nat) : Nat :=
  (List.range 8).foldl (fun n c => n + (classOpen s p c).toNat * 2 ^ c) 0

/-- A class stays open for at least n ns from now (R19, R285). -/
def openFor (s : State) (p c n : Nat) : Bool :=
  512 ≤ p || (classOpen s p c && staysOpen (fun e => e.states.testBit c) n (ahead s (1 + p) (gateOf s p) n) &&
    s.sch.sgates.all fun x => x.2.bind ≠ some (p, c) || staysOpen (fun e => e.states % 2 = 1) n (ahead s (513 + x.1) x.2 n))

/-- GATE_LEAD in ns. -/
def gateLead (s : State) (p : Nat) : Nat := max 1 (rfld s .schCfg (portTile p) 0 19 12) * 1000

/-- A class at a port may be selected for: its gate is open or opens within GATE_LEAD, and no stream gate closes it (R282). -/
def gateAdmits (s : State) (p c : Nat) : Bool :=
  512 ≤ p || ((portGateOpen s p c || getsOpen (fun e => e.states.testBit c) (gateLead s p) (ahead s (1 + p) (gateOf s p) (gateLead s p))) &&
    !sgCloses s p c)

/-- Gated closed for replication (R206): open in no entry of the cycle, or a stream gate holds the class closed. -/
def gatedClosed (s : State) (p c : Nat) : Bool :=
  p < 512 && (sgCloses s p c ||
    ((gateOf s p).active.count ≠ 0 &&
      (List.range (gateOf s p).active.count).all fun i =>
        entryLen (gateOf s p).active i = 0 || !(tget (gateOf s p).active.entries i).states.testBit c))

/-! ## Shapers (R282, R286, R287) -/

/-- Tokens per ns in units of 2^-16 B: Mbit/s × 65,536 / 8,000, rounded down over the interval (log 15). -/
def refillBy (rate dt : Nat) : Nat := rate * dt * 1024 / 125

/-- A node with its counts refilled to the present free-running count (R287). -/
def refilled (s : State) (n : Node) : Node :=
  let dt := s.tim.frc - n.at_
  let c := if n.cfg.cir = 0 then n.c else min ((n.cfg.cbs * 65536 : Nat) : Int) (n.c + (refillBy n.cfg.cir dt : Nat))
  let p := if n.cfg.pir = 0 then n.p else min ((n.cfg.pbs * 65536 : Nat) : Int) (n.p + (refillBy n.cfg.pir dt : Nat))
  { n with c := c, p := p, cTop := if 0 ≤ c then c else n.cTop, pTop := if 0 ≤ p then p else n.pTop, at_ := s.tim.frc }

/-- Shaper states. -/
inductive Shade where
  | green
  | yellow
  | red
deriving DecidableEq, Repr

/-- A shaper's state (R282). Where c is at or above 0 and p below it, both columns apply and RED is taken (log 21). -/
def shade (n : Node) : Shade :=
  if n.cfg.cir = 0 && n.cfg.pir = 0 then .green
  else if n.cfg.pir = 0 then (if 0 ≤ n.c then .green else .red)
  else if n.p < 0 then .red
  else if 0 < n.cfg.cir && 0 ≤ n.c then .green
  else .yellow

def nodeShade (s : State) (level n : Nat) : Shade := shade (refilled s (node s level n))

/-- The charge of a length under a node's profile: L with a floor of 1 B (R286). -/
def chargeOf (s : State) (prof len : Nat) : Int := max 1 ((len : Int) + tget (img s).queues.lenProfs prof)

/-- The lowest value of a count (R287): 10,303 B below its last non-negative value. -/
def countFloor (top : Int) : Int := top - 10303 * 65536

/-- A charge taken from both counts and the deficit (R286, R287). -/
def chargeNode (s : State) (len : Nat) (n : Node) : Node :=
  let r := refilled s n
  let l := chargeOf s n.cfg.lenProf len
  { r with c := max (countFloor r.cTop) (r.c - l * 65536), p := max (countFloor r.pTop) (r.p - l * 65536), deficit := r.deficit - l }

/-- Charges a leaf and the nodes above it. -/
def chargePath (l len : Nat) (s : State) : State :=
  match leafPath s l with
  | some (sg, g, _) =>
    setNode 1 g (chargeNode s len) (setNode 2 sg (chargeNode s len) (setNode 3 l (chargeNode s len) s))
  | none => s

def quantumOf (s : State) (t w : Nat) : Nat := max 1 w * max 64 (rfld s .schCfg t 0 11 0)

/-- Gives bytes back to a node's counts and deficit (R286, R300). -/
def creditNode (s : State) (t bytes : Nat) (n : Node) : Node :=
  let r := refilled s n
  let b : Int := (bytes * 65536 : Nat)
  { r with
    c := min ((n.cfg.cbs * 65536 : Nat) : Int) (r.c + b), p := min ((n.cfg.pbs * 65536 : Nat) : Int) (r.p + b),
    deficit := min ((quantumOf s t n.cfg.weight : Nat) : Int) (r.deficit + (bytes : Nat)) }

def creditPath (l bytes : Nat) (s : State) : State :=
  match leafPath s l with
  | some (sg, g, _) =>
    let t := leafTile l
    setNode 1 g (creditNode s t bytes) (setNode 2 sg (creditNode s t bytes) (setNode 3 l (creditNode s t bytes) s))
  | none => s

/-! ## Frames of a leaf and their PULLs (R223) -/

/-- A NOTICE precedes another: ENQ_TIME in serial arithmetic, ties to the lower source tile (R223). -/
def noticeBefore (a b : Notice) : Bool :=
  if a.enq % 4294967296 = b.enq % 4294967296 then a.src < b.src else newer 32 b.enq a.enq

/-- The tail of a frame has not yet proved good in its source tile (R96): it may not be pulled. -/
def tailOpen (s : State) (fid : Nat) : Bool := s.frames.any fun f => f.fid = fid && !f.tailSeen

/-- Unpulled frames of a leaf. -/
def leafNotices (s : State) (l : Nat) : List Notice :=
  s.fab.notices.filter fun n => n.leaf = l && !n.pulled

def oldestOf (l : List Notice) : Option Notice :=
  l.foldl (fun b n => match b with
    | some m => if noticeBefore n m then some n else b
    | none => some n) none


/-- Positions a frame occupies: whole stripes for a parity-striped frame (R223, R224). -/
def framePositions (n : Notice) : List (Nat × Nat) :=
  if n.pstripe then
    (List.range (ceilDiv n.cells (patLen n.pattern))).flatMap fun j =>
      (List.range (patLen n.pattern)).map fun k => ((n.ssn + j) % 65536, k)
  else notePositions n

/-- Data cells of a frame: a parity-striped NOTICE also counts one parity cell a stripe (log 20). -/
def dataCells (n : Notice) : Nat := if n.pstripe then n.cells - ceilDiv n.cells (patLen n.pattern) else n.cells

/-- Length asked of the pools for a pull (R251). -/
def pullLen (n : Notice) : Nat := dataCells n * 256

/-- Length charged at selection: CELLS × 256 B of the NOTICE (R286, R292). -/
def pullCharge (n : Notice) : Nat := n.cells * 256

/-- Index of a position among the data positions of a parity-striped frame; `none` for the parity position. -/
def dataIndex (n : Notice) (x : Nat × Nat) : Option Nat :=
  let per := patLen n.pattern - 1
  if x.2 < per then some ((x.1 + 65536 - n.ssn) % 65536 * per + x.2) else none

/-- A position of a parity-striped frame that a placeholder fills, known from the NOTICE (R240). -/
def isPlaceholder (n : Notice) (x : Nat × Nat) : Bool :=
  n.pstripe && (dataIndex n x).any fun i => dataCells n ≤ i

/-- An express frame of a NOTICE's leaf that precedes it has not started yet: it is on its way or parked (R20). -/
def expressAhead (s : State) (n : Notice) : Bool :=
  let first (src enq : Nat) : Bool := noticeBefore { src := src, enq := enq } n
  (s.frames.any fun f => f.phase = .express && f.leaf = n.leaf && first f.tile f.enq) ||
  (s.fab.wires.any fun w => match w.msg with
    | .express sl _ _ => sl.leaf = n.leaf && first sl.src sl.enq
    | _ => false) ||
  (leafPort s n.leaf).any fun p => (port s p).parked.any fun sl => sl.leaf = n.leaf && first sl.src sl.enq

/-- The frame that R223 serves next from a leaf: its oldest, once the tail has proved good (R96). No younger one passes it, and it
passes no express frame (R20). -/
def leafHead (s : State) (l : Nat) : Option Notice :=
  match oldestOf (leafNotices s l) with
  | some n => if tailOpen s n.fid || expressAhead s n then none else some n
  | none => none

/-- Stripes in flight at a tile: (source, leaf, ssn) with a position owed. -/
def stripesInFlight (s : State) (t : Nat) : List (Nat × Nat × Nat) :=
  ((s.fab.asms.filter (·.tile = t)).flatMap fun a => a.owed.map fun x => (a.note.src, a.note.leaf, x.1)).eraseDups

def pullMax (s : State) (t : Nat) : Nat := clamp 64 1024 (rfld s .latReseq t 0 10 0)

/-- A position lies at a tile that a tile knows to be fenced (R230). -/
def posFenced (s : State) (t : Nat) (n : Notice) (x : Nat × Nat) : Bool := knowsFenced s t (patTile n.pattern n.src x.2)

/-- An assembly with the PULLs of a stripe out: positions at a fenced tile are missing at once, but for placeholders (R225, R230). -/
def stripePulled (s : State) (ssn : Nat) (a : Asm) : Asm :=
  let ps := a.todo.filter fun x => x.1 = ssn
  { a with
    todo := a.todo.filter (fun x => x.1 ≠ ssn)
    owed := a.owed ++ ps.filter fun x => !posFenced s a.tile a.note x
    missing := a.missing ++ ps.filter fun x => posFenced s a.tile a.note x && !isPlaceholder a.note x }

/-- Issues the PULLs of one stripe of a frame being assembled; its cells leave DEPTH (R301). -/
def pullStripe (a : Asm) (ssn : Nat) (s : State) : State :=
  let ps := a.todo.filter fun x => x.1 = ssn
  let lo := (ps.head?.getD (0, 0)).2
  let hi := (ps.getLast?.getD (0, 0)).2
  let s' := { s with fab := { s.fab with
    asms := s.fab.asms.map fun b => if sameFrame b.note a.note && b.tile = a.tile then stripePulled s ssn b else b } }
  let s' := depthSub a.note.leaf (ps.filter fun x => !isPlaceholder a.note x).length s'
  forEach ((patTiles a.note.pattern a.note.src).filter fun d => !knowsFenced s a.tile d) (fun d =>
    send a.tile d (.pull a.note.src a.note.leaf ssn lo hi a.note.pattern)) s'

/-- The next stripe of a frame may be pulled: 2 stripes of a (source, leaf), PULL_MAX stripes of the tile (R223). -/
def mayPull (s : State) (a : Asm) : Bool :=
  let fl := stripesInFlight s a.tile
  (fl.filter fun x => x.1 = a.note.src && x.2.1 = a.note.leaf).length < 2 && fl.length < pullMax s a.tile

/-- Issues the PULLs of a frame that the limits allow, stripe by stripe. -/
def pumpFrame (t : Nat) (n : Notice) : Nat → State → State
  | 0, s => s
  | k + 1, s =>
    match s.fab.asms.find? fun b => b.tile = t && sameFrame b.note n with
    | some b =>
      match b.todo with
      | x :: _ => if mayPull s b then pumpFrame t n k (pullStripe b x.1 s) else s
      | [] => s
    | none => s

/-- Issues the PULLs that the limits allow, for each frame being assembled in turn. -/
def pumpPulls (t : Nat) (s : State) : State :=
  forEach (s.fab.asms.filter (·.tile = t)) (fun a s => pumpFrame t a.note a.todo.length s) s

/-- Begins pulling a frame into a buffer for a port (1,023 for a replication leaf). -/
def beginPull (t p cls : Nat) (n : Notice) (user : PoolUser) (tag : Nat) (s : State) : Option State :=
  match allocFor t (pullLen n) user tag s with
  | none => none
  | some (s, h) =>
    let a : Asm := { tile := t, note := { n with pulled := true }, port := p, cls := cls, handle := h, todo := framePositions n }
    let s := { s with fab := { s.fab with
      notices := s.fab.notices.filter (fun m => !sameFrame m n), asms := s.fab.asms ++ [a] } }
    some (pumpPulls t s)

/-! ## Selection (R282 to R285) -/

/-- A child of a node in the choice of R283. `id` orders the children of a parent; key 2^20 + c is a replication queue. -/
structure Child where
  id : Nat
  green : Bool
  prio : Nat
  quantum : Nat
  deficit : Int
deriving DecidableEq, Repr

def slotOf (s : State) (p c : Nat) : Option Slot := tget (port s p).slots c

/-- The pool user of a pull for a port. -/
def pullUser (p : Nat) : PoolUser := if 512 ≤ p && p < 528 then .punt (p - 512) else .pull

/-- A frame can be pulled into a pool now; for a host port both limits of R250 apply. -/
def poolFor (s : State) (t p len : Nat) : Bool := (choosePool s t len (pullUser p)).isSome

/-- Nodes of a level whose parent is a node. -/
def childrenOf (s : State) (level n : Nat) : List Nat :=
  (s.sch.nodes.filter fun x => x.1 / 1048576 = level && x.2.cfg.parent = n + 1).map fun x => x.1 % 1048576

/-- A class of a port may take a selection: slot empty, gate open or about to open (R282). -/
def classReady (s : State) (p c : Nat) : Bool := (slotOf s p c).isNone && gateAdmits s p c

/-- A leaf is eligible (R282) and its frame finds a buffer (R251). -/
def leafReady (s : State) (p : Nat) (l : Nat) : Bool :=
  (match leafHead s l with
   | some n => poolFor s (portTile p) p (pullLen n)
   | none => false) &&
  portUp s p && !(port s p).hold && classReady s p (leafClass l) && nodeShade s 3 l ≠ .red

def subReady (s : State) (p : Nat) (sg : Nat) : Bool :=
  nodeShade s 2 sg ≠ .red && (childrenOf s 3 sg).any (leafReady s p)

def groupReady (s : State) (p : Nat) (g : Nat) : Bool :=
  nodeShade s 1 g ≠ .red && (childrenOf s 2 g).any (subReady s p)

def childNode (s : State) (t level n : Nat) : Child :=
  let x := node s level n
  { id := n, green := nodeShade s level n = .green, prio := x.cfg.prio, quantum := quantumOf s t x.cfg.weight, deficit := x.deficit }

/-- RQ_WEIGHT of a port's class (R281, R283). -/
def rqWeight (s : State) (p c : Nat) : Nat :=
  let q := if p < 512 then p % 64 else 64 + (p - 512) / 8
  max 1 (rfld s (if c < 4 then .schRqWeightLo else .schRqWeightHi) (portTile p) q (c % 4 * 8 + 7) (c % 4 * 8))

def rqChild (s : State) (p c : Nat) : Child :=
  { id := 1048576 + c, green := true, prio := c, quantum := quantumOf s (portTile p) (rqWeight s p c),
    deficit := tget (port s p).rqDeficit c }

def rqReady (s : State) (p : Nat) (c : Nat) : Bool :=
  ((port s p).rq.any fun x => x.1 = c) && portUp s p && !(port s p).hold && classReady s p c

/-- The band of R283: GREEN children if any, then those of the highest PRIO. -/
def bandOf (l : List Child) : List Child :=
  let g := l.filter (·.green)
  let l := if g.isEmpty then l else g
  l.filter fun c => l.all fun d => d.prio ≤ c.prio

/-- Replenishments until a deficit is positive (R283). -/
def roundsOf (l : List Child) : Nat :=
  match l.map fun c => ((-c.deficit) / (max 1 c.quantum : Nat) + 1).toNat with
  | [] => 0
  | a :: r => r.foldl min a

def replenished (l : List Child) : List Child :=
  if l.all (fun c => c.deficit ≤ 0) then
    l.map fun c => { c with deficit := min (c.quantum : Int) (c.deficit + ((roundsOf l * c.quantum : Nat) : Int)) }
  else l

/-- The child picked from a band, from its pointer in ascending number. -/
def pickFrom (ptr : Nat) (l : List Child) : Option Child :=
  let l := l.filter fun c => 0 < c.deficit
  match (l.filter fun c => ptr ≤ c.id).head? with
  | some c => some c
  | none => l.head?

/-- Writes back the deficits of a band's children. -/
def storeDeficits (p level : Nat) (l : List Child) (s : State) : State :=
  forEach l (fun c s =>
    if 1048576 ≤ c.id then setPort p (fun q => { q with rqDeficit := tput q.rqDeficit (c.id - 1048576) c.deficit }) s
    else setNode level c.id (fun n => { n with deficit := c.deficit }) s) s

/-- One choice at a parent among eligible children in ascending number: the state with deficits and pointer, and the pick. -/
def chooseAt (p level parentKey : Nat) (l : List Child) (s : State) : State × Option Nat :=
  let band := replenished (bandOf l)
  match band with
  | [] => (s, none)
  | c :: _ =>
    let key := parentKey * 8 + c.prio
    match pickFrom (tget s.sch.ptrs key) band with
    | none => (s, none)
    | some x =>
      let s := storeDeficits p level band s
      ({ s with sch := { s.sch with ptrs := tput s.sch.ptrs key x.id } }, some x.id)

/-- What a walk selects: a leaf, or a replication queue's class. -/
inductive Pick where
  | leaf (l : Nat)
  | rq (c : Nat)
deriving DecidableEq, Repr

/-- One walk from a port to a leaf or a replication queue (R283). -/
def walkPort (p : Nat) (s : State) : State × Option Pick :=
  let t := portTile p
  let groups := ((childrenOf s 1 p).filter (groupReady s p)).map (childNode s t 1)
  let queues := ((List.range 8).filter (rqReady s p)).map (rqChild s p)
  match chooseAt p 1 (nodeKey 0 p) (groups ++ queues) s with
  | (s, none) => (s, none)
  | (s, some g) =>
    if 1048576 ≤ g then (s, some (.rq (g - 1048576)))
    else
      match chooseAt p 2 (nodeKey 1 g) (((childrenOf s 2 g).filter (subReady s p)).map (childNode s t 2)) s with
      | (s, none) => (s, none)
      | (s, some sg) =>
        match chooseAt p 3 (nodeKey 2 sg) (((childrenOf s 3 sg).filter (leafReady s p)).map (childNode s t 3)) s with
        | (s, some l) => (s, some (.leaf l))
        | (s, none) => (s, none)

/-- A frame's age on the free-running count exceeds its leaf's maximum residence (R284). -/
def overAge (s : State) (l enq : Nat) : Bool :=
  let m := (node s 3 l).cfg.maxRes
  m ≠ 0 && m * 1000 < (s.tim.frc + 4294967296 - enq % 4294967296) % 4294967296

/-- Moves a replication copy into its class slot (R283, R285), dropping one that aged through a hold (R258). -/
def takeCopy (p c : Nat) (s : State) : State :=
  match (port s p).rq.find? fun x => x.1 = c with
  | none => s
  | some (_, sl) =>
    let rest := (port s p).rq.eraseP fun x => x.1 = c
    let s := setPort p (fun q => { q with rq := rest }) s
    if sl.held && overAge s sl.leaf sl.enq then dropCopy p 3 (16 + 8) sl s
    else
      setPort p (fun q => { q with
        slots := tput q.slots c (some { sl with ready := true }),
        rqDeficit := tupd q.rqDeficit c fun d => d - ((sl.len : Nat) : Int) }) (tileCnt (portTile p) (32 + 1) 1 s)

/-- Carries out a pick: the leaf's oldest frame is evicted for age (R284), or charged, given its slot and pulled (R285). -/
def takeLeaf (p l : Nat) (s : State) : State :=
  match leafHead s l with
  | none => s
  | some n =>
    if overAge s l n.enq then dropLeaf l 3 (16 + 8) (evictNote (portTile p) n s)
    else
      match beginPull (portTile p) p (leafClass l) n (pullUser p) p s with
      | none => s
      | some s' =>
        let h := match s'.fab.asms.find? fun a => sameFrame a.note n with
          | some a => a.handle
          | none => 0
        let sl : Slot := { fid := n.fid, src := n.src, leaf := l, handle := h, enq := n.enq }
        setPort p (fun q => { q with slots := tput q.slots (leafClass l) (some sl) })
          (tileCnt (portTile p) (32 + 1) 1 (chargePath l (pullCharge n) s'))

def takePick (p : Nat) (k : Pick) (s : State) : State :=
  match k with
  | .leaf l => takeLeaf p l s
  | .rq c => takeCopy p c s

/-- A parked express frame's turn has come: its class slot is empty and no frame of its leaf precedes it (R20, R221). -/
def unparkable (s : State) (p : Nat) (sl : Slot) : Bool :=
  (slotOf s p (leafClass sl.leaf)).isNone &&
  !(s.fab.notices.any fun n => n.leaf = sl.leaf && noticeBefore n { src := sl.src, enq := sl.enq })

/-- Parked express frames whose turn has come take their class slots (R285). -/
def unpark (p : Nat) (s : State) : State :=
  forEach (port s p).parked (fun sl s =>
    if unparkable s p sl then
      setPort p (fun q => { q with parked := q.parked.filter (fun x => x.fid ≠ sl.fid), slots := tput q.slots (leafClass sl.leaf) (some sl) }) s
    else s) s

/-- Selections for a port, as many as its slots and leaves allow; evictions for age take further walks. -/
def selectN (p : Nat) : Nat → State → State
  | 0, s => s
  | n + 1, s =>
    match walkPort p (unpark p s) with
    | (s, some k) => selectN p n (takePick p k s)
    | (_, none) => unpark p s

/-- Replication leaf of a slice and class in a tile (R280). -/
def replLeaf (s : State) (t sl c : Nat) : Nat := t * 131072 + (sl + 1) * (131072 / nSlices s) - 8 + c

/-- A frame whose leaf is passed over for want of a buffer is marked, and counted PULL_WAIT the first time (R251). -/
def passOver (t : Nat) (n : Notice) (s : State) : State :=
  iff_ (!n.waited) (fun s => tileCnt t (16 + 10) 1 { s with fab := { s.fab with
    notices := s.fab.notices.map fun m => if sameFrame m n then { m with waited := true } else m } }) s

/-- MC_RATE in bits a nanosecond. -/
def mcRate (s : State) (t : Nat) : Nat := clamp 100 2000 (rfld s .schCfg t 0 31 20)

/-- What the limiter of a tile has given out and not refilled, in bits (R292). -/
def mcGiven (s : State) (t : Nat) : Nat :=
  (tget s.fab.mcSpent t).1 - (s.tim.frc - (tget s.fab.mcSpent t).2) * mcRate s t

/-- The limiter gives bytes out. -/
def mcGive (t bytes : Nat) (s : State) : State :=
  { s with fab := { s.fab with mcSpent := tput s.fab.mcSpent t (mcGiven s t + bytes * 8, s.tim.frc) } }

/-- Heads of the replication leaves of a tile: strict class order, slices ascending. -/
def replHeads (s : State) (t : Nat) : List Notice :=
  ((List.range 8).reverse.flatMap fun c => (List.range (nSlices s)).map fun sl => replLeaf s t sl c).filterMap (leafHead s)

/-- Pulls replication leaves in order within the limiter; a leaf that finds no pool is passed over (R251, R292). -/
def pullRepl (t : Nat) : Nat → State → State
  | 0, s => s
  | k + 1, s =>
    let hs := replHeads s t
    let fits (n : Notice) : Bool := poolFor s t 1023 (pullLen n)
    let s := forEach (hs.takeWhile fun n => !fits n) (passOver t) s
    match hs.find? fits with
    | none => s
    | some n =>
      if 524288 < mcGiven s t + pullCharge n * 8 then s
      else
        match beginPull t 1023 (leafClass n.leaf) n .pull 4096 s with
        | none => s
        | some s => pullRepl t k (tileCnt t (32 + 3) 1 (mcGive t (pullCharge n) s))

def selectRepl (t : Nat) (s : State) : State := pullRepl t s.fab.notices.length s

/-- Leaves of a port that is up, not in hold, whose oldest frame finds no pool (R251, R258). -/
def passedOver (s : State) (p : Nat) : List Notice :=
  if portUp s p && !(port s p).hold then
    (s.sch.leaves.filter fun x => leafPort s x.1 = some p).filterMap fun x =>
      match leafHead s x.1 with
      | some n => if (slotOf s p (leafClass x.1)).isNone && !poolFor s (portTile p) p (pullLen n) then some n else none
      | none => none
  else []

/-- Selections for one port, and its frames passed over. -/
def selectOwn (p : Nat) (s : State) : State :=
  let s := selectN p (8 + (s.fab.notices.length + (port s p).rq.length)) s
  forEach (passedOver s p) (passOver (portTile p)) s

/-- Other ports of a tile with a frame passed over. -/
def waitingPorts (s : State) (t : Nat) : List Nat :=
  ((s.fab.notices.filter (·.waited)).filterMap fun n => leafPort s n.leaf).eraseDups.filter fun p => portTile p = t

/-- Frames passed over in a tile are tried again: a buffer may have become free (R251, R285). -/
def retryWaits (t : Nat) (s : State) : State :=
  forEach (waitingPorts s t) (fun p => selectOwn p)
    (iff_ (s.fab.notices.any fun n => n.waited && isReplLeaf s n.leaf && leafTile n.leaf = t) (selectRepl t) s)

/-- The scheduler selects for a port (R285); frames passed over in its tile are tried again. -/
def selectPort (p : Nat) (s : State) : State := retryWaits (portTile p) (selectOwn p s)

/-- Selects for the port above a leaf. -/
def selectLeaf (l : Nat) (s : State) : State :=
  match leafPort s l with
  | some p => selectPort p s
  | none => s

/-- Selects for every port that a tile schedules and that is up. -/
def selectTile (t : Nat) (s : State) : State :=
  forEach ((s.ports.filter fun x => portTile x.1 = t && x.2.up).map (·.1) ++ [512 + t, 520 + t]) (fun p => selectPort p) s

/-! ## Multicast pulls (R292) -/

/-- MC_LIMITER_REFILL: the limiter has refilled enough for the next replication-leaf pull, which is issued (R292). -/
def execMcLimiterRefill (tile : Nat) (s : State) : Res := .next (iff_ (tileRunning s tile) (selectRepl tile) s)

/-- The port above a node. -/
def nodePort (s : State) (level n : Nat) : Option Nat :=
  match level with
  | 1 => parent s 1 n
  | 2 => (parent s 2 n).bind (parent s 1)
  | 3 => leafPort s n
  | _ => none

/-- The refill brings the count that holds a node RED to zero: p where it has a PIR, else c (R282). -/
def outOfRed (s : State) (n : Node) : Node :=
  let r := refilled s n
  if 0 < n.cfg.pir then { r with p := max 0 r.p } else { r with c := max 0 r.c }

/-- SHAPER_LEAVES_RED: the scheduler selects for the port above the node (R282, R285). The refill that brings the count to 0
is time passed. -/
def execShaperLeavesRed (level n : Nat) (s : State) : Res :=
  .next <| match nodePort s level n with
    | some p => selectPort p (iff_ (nodeShade s level n = .red) (setNode level n (outOfRed s)) s)
    | none => s

/-- GATE_LEAD_OPENING: a closed class comes within GATE_LEAD of its opening, and the scheduler selects (R282). -/
def execGateLeadOpening (prt cls : Nat) (s : State) : Res :=
  .next <| iff_ (portExists s prt && !classOpen s prt cls) (selectPort prt) s

/-! ## Gate events (R293, R294, R296) -/

/-- The next entry of a list: entries of no length are passed, and the last is followed by entry 0. -/
def nextEntry (g : Gate) : Nat :=
  let after := (List.range g.active.count).filter fun i => g.entry < i && entryLen g.active i ≠ 0
  after.head?.getD 0

def setGate (p : Nat) (f : Gate → Gate) (s : State) : State := { s with sch := { s.sch with gates := tupd s.sch.gates p f } }
def setSgate (g : Nat) (f : Gate → Gate) (s : State) : State := { s with sch := { s.sch with sgates := tupd s.sch.sgates g f } }

/-- GATE_ENTRY_CHANGE: the next entry, unless the list waits to realign (R114). -/
def execGateEntryChange (prt : Nat) (s : State) : Res :=
  .next <| iff_ ((gateOf s prt).active.count ≠ 0 && !s.tim.realign.contains (1 + prt)) (fun s =>
    selectPort prt (setGate prt (fun g => { g with entry := nextEntry g }) s)) s

/-- The class whose frame a port transmits. -/
def txClass (s : State) (p : Nat) : Option Nat := (port s p).tx.map fun sl => leafClass sl.leaf

/-- A gate that a time step made wait lets go of its old state: the class of the frame under way stays open to the frame's end
(R295). -/
def keepTx (s : State) (p : Nat) (waits : Bool) (g : Gate) : Gate := if waits then { g with keep := txClass s p } else g

/-- The port of a stream gate whose frame under way it concerns. -/
def keepBound (s : State) (waits : Bool) (g : Gate) : Gate :=
  match g.bind with
  | some (p, c) => if waits && txClass s p = some c then { g with keep := some c } else g
  | none => g

/-- A schedule no longer waits to realign. -/
def alignedNow (k : Nat) (s : State) : State :=
  iff_ (s.tim.realign.contains k) (fun s => setRealign (s.tim.realign.filter (· ≠ k)) s) s

/-- A pending list takes over at entry 0; the old one becomes the shadow (R294). -/
def gateSwitched (g : Gate) : Gate :=
  match g.pending with
  | some l => { g with active := l, shadow := g.active, listBit := 1 - g.listBit, entry := 0, pending := none }
  | none => g

/-- GATE_SWITCH. -/
def execGateSwitch (prt : Nat) (s : State) : Res :=
  .next <| iff_ (gateOf s prt).pending.isSome (fun s =>
    selectPort prt (alignedNow (1 + prt) (setGate prt (fun g => gateSwitched (keepTx s prt (s.tim.realign.contains (1 + prt)) g)) s))) s

/-- The port that a stream gate is bound to may select (R297). -/
def selectBound (g : Nat) (s : State) : State :=
  match (sgateOf s g).bind with
  | some (p, _) => selectPort p s
  | none => s

/-- STREAM_GATE_ENTRY_CHANGE. -/
def execStreamGateEntryChange (g : Nat) (s : State) : Res :=
  .next <| iff_ ((sgateOf s g).active.count ≠ 0 && !s.tim.realign.contains (513 + g)) (fun s =>
    selectBound g (setSgate g (fun x => { x with entry := nextEntry x }) s)) s

/-- STREAM_GATE_SWITCH. -/
def execStreamGateSwitch (g : Nat) (s : State) : Res :=
  .next <| iff_ (sgateOf s g).pending.isSome (fun s =>
    selectBound g (alignedNow (513 + g) (setSgate g (fun x => gateSwitched (keepBound s (s.tim.realign.contains (513 + g)) x)) s))) s

/-! ## Policers (R290, R291) -/

def polKey (t i : Nat) : Nat := t * 262144 + i

/-- Both buckets refilled to the present, with the overflow of the first spilling where the mode says (R290). -/
def polRefilled (s : State) (p : Policer) (c : PolCount) : PolCount :=
  let dt := s.tim.frc - c.at_
  let full1 := p.burst1 * 65536
  let full2 := p.burst2 * 65536
  let raw := c.b1 + refillBy p.rate1 dt
  let excess := if p.mode = 0 || (p.mode = 2 && p.coupled) then raw - full1 else 0
  let b2 := c.b2 + (if p.mode = 0 then 0 else refillBy p.rate2 dt) + excess
  { b1 := min full1 raw, b2 := min full2 b2, at_ := s.tim.frc }

/-- The colour a meter gives and the counts it leaves (R290): 0 green, 1 yellow, 2 red. -/
def meterColour (p : Policer) (b colour : Nat) (c : PolCount) : Nat × PolCount :=
  let n := b * 65536
  let green := if p.mode = 1 then colour = 0 && n ≤ c.b2 && n ≤ c.b1 else colour = 0 && n ≤ c.b1
  if green then
    (0, if p.mode = 1 then { c with b1 := c.b1 - n, b2 := c.b2 - n } else { c with b1 := c.b1 - n })
  else if colour ≤ 1 && n ≤ c.b2 then (1, { c with b2 := c.b2 - n })
  else (2, c)

/-! ## FRER state (R300) -/

/-- A stream starts again: take-any, no history. -/
def frerFresh (cfg : FrerCfg) : Frer := { cfg := cfg }

def setStream (i : Nat) (f : Frer → Frer) (s : State) : State :=
  { s with sch := { s.sch with streams := tupd s.sch.streams i f } }

/-- FRER_RESET: no frame passed for RESET_MS. -/
def execFrerReset (stream : Nat) (s : State) : Res :=
  .next <| iff_ ((tget s.sch.streams stream).cfg.kind = 2 && !(tget s.sch.streams stream).takeAny)
    (fun s => streamCnt stream 3 (setStream stream (fun f => { f with takeAny := true, hist := [] }) s)) s

/-! ## The sampler (R301, R430, R432) -/

/-- The next attached leaf after the last one sampled, empty leaves passed over under SKIP_EMPTY. -/
def nextSample (s : State) (t : Nat) : Option Nat :=
  let skip := rfld s .schSample t 0 30 30 = 1
  let ls := ((s.sch.nodes.filter fun x => x.1 / 1048576 = 3 && x.2.cfg.parent ≠ 0).map (·.1 % 1048576)).filter fun l =>
    leafTile l = t && !(skip && (leafSt s l).depth = 0)
  match ls.find? fun l => tget s.sch.sampleAt t ≤ l % 131072 with
  | some l => some l
  | none => ls.head?

/-- Writes a telemetry record to a requester's telemetry ring, or loses it (R432). -/
def telRecord (req : Nat) (w0 w1 : Word) (body : List Word) (s : State) : State :=
  match kindRing s req 4 with
  | some r =>
    if ringFull (ringSt s req r) then ownerCnt req 12 1 s
    else ownerCnt req 11 1 (pushEntry req r (w0 :: w1 :: (timeWords s.tim.now ++ body)) s)
  | none => ownerCnt req 12 1 s

/-- DEPTH_SAMPLE. -/
def execDepthSample (tile : Nat) (s : State) : Res :=
  .next <| iff_ (tileRunning s tile && rfld s .schSample tile 0 31 31 = 1) (fun s =>
    match nextSample s tile with
    | some l =>
      telRecord (leafSlice s l) (pack [(23, 16, 0x01)]) (word l) [word (leafSt s l).depth, word (leafSt s l).delay]
        { s with sch := { s.sch with sampleAt := tput s.sch.sampleAt tile (l % 131072 + 1) } }
    | none => s) s

end Sys2Proof.Machine
end

