-- ==== Sys2Proof/Machine/Slabs.lean ====
section
/-! DEFINITION. Rule slabs (R175 to R186): layout, search with fallbacks, criticality groups, the self-test and the TCM
commands. -/
namespace Sys2Proof.Machine

/-- Key of a row: (global pipeline × 8 + slab) × 2,048 + row. -/
def rowKey (gp slab row : Nat) : Nat := (gp * 8 + slab) * 2048 + row

def tcmRow (s : State) (gp slab row : Nat) : TcmRow := tget s.tcm.rows (rowKey gp slab row)

/-- Rule table k of a pipeline (R176). -/
def ruleTable (s : State) (gp k : Nat) : RuleTable := tget (img s).slabs.tables (gp * 4 + k)

/-- The table a slab belongs to. -/
def slabTable (s : State) (gp slab : Nat) : Option (Nat × RuleTable) :=
  ((List.range 4).map fun k => (k, ruleTable s gp k)).find? fun x => x.2.en && x.2.slabs.contains slab

/-- Slabs in a unit of a width code. -/
def unitSize (w : Nat) : Nat := if w = 0 then 1 else if w = 1 then 2 else 4

/-- Head slab of the unit that holds a slab. -/
def headSlab (w slab : Nat) : Nat := slab - slab % unitSize w

/-- A pipeline searches, and its rows can be written. -/
def pipeRunning (s : State) (gp : Nat) : Bool := tileRunning s (gp / 8) && !isFenced s (unitId 2 gp)

/-- Number of ones in the low n bits. -/
def onesIn (n v : Nat) : Nat := (List.range n).foldl (fun a i => a + (v.testBit i).toNat) 0

/-- Even parity over bits [352:0] of a row (R175). -/
def rowParity (r : TcmRow) : Bool :=
  (onesIn 160 r.value.toNat + onesIn 160 r.mask.toNat + onesIn 16 r.prio + onesIn 16 r.act + r.valid.toNat) % 2 = 1

/-- A row as the slab stores it: VALUE bits under a 0 of MASK are 0, and PARITY is set (R175). -/
def withParity (r : TcmRow) : TcmRow :=
  let r := { r with value := r.value &&& r.mask }
  { r with parity := rowParity r }

def putRow (gp slab row : Nat) (r : TcmRow) (s : State) : State :=
  { s with tcm := { s.tcm with rows := tput s.tcm.rows (rowKey gp slab row) (if r = default then r else withParity r) } }

/-- The slice a row belongs to (R177). -/
def rowSlice (s : State) (row : Nat) : Nat := row / (2048 / nSlices s)

/-! ## Search -/

/-- Groups a throttle level searches (R183). -/
def levelGroups (lvl : Nat) : List Nat := (List.range 4).take (4 - lvl)

/-- The groups a tile searches now (R183, R185). -/
def groupsSearched (s : State) (t : Nat) : List Nat :=
  let sel := rget s .tcmBankSel t 0
  if fld sel 1 0 = 0 then
    (levelGroups (rfld s .tcmThrottle t 0 25 24)).filter fun g => !s.tcm.waking.contains (t * 4 + g)
  else (List.range 4).filter fun g => (fld sel 7 4).testBit g

/-- Slabs of a unit. -/
def unitSlabs (w head : Nat) : List Nat := (List.range (unitSize w)).map (head + ·)

/-- One unit's row matches a key of the unit's width for a frame (R176, R177). Bits [159:0] of the key meet the head slab. -/
def rowMatches (s : State) (gp w head row : Nat) (shared : Bool) (owned : Bool) (slice : Nat) (err : List (Nat × Nat)) (key : Nat) : Bool :=
  (tcmRow s gp head row).valid && (shared || (owned && rowSlice s row = slice)) &&
  ((List.range (unitSize w)).all fun i =>
    let r := tcmRow s gp (head + i) row
    !err.contains (head + i, row) && ((BitVec.ofNat 160 (key >>> (160 * i)) ^^^ r.value) &&& r.mask) = 0)

/-- A candidate of R178 and R181: priority, head slab, row, action, and the group whose fallback it is. -/
structure Cand where
  prio : Nat
  slab : Nat
  row : Nat
  act : Nat
  fallback : Option Nat
deriving DecidableEq, Repr

/-- The first candidate precedes the second: lower PRIORITY, then lower slab, then lower row. -/
def candBefore (a b : Cand) : Bool :=
  a.prio < b.prio || (a.prio = b.prio && (a.slab < b.slab || (a.slab = b.slab && a.row < b.row)))

/-- The groups of a unit that are not searched, or that hold a fenced slab of it (R181, R182, R184). -/
def unitSkips (s : State) (gp w head : Nat) : List Nat :=
  let on := groupsSearched s (gp / 8)
  ((unitSlabs w head).filter fun x => !on.contains (x / 2) || s.tcm.fenced.contains (gp * 8 + x)).map (· / 2)

/-- Fallback of a table for a group (R181). -/
def fallbackOf (rt : RuleTable) (g : Nat) : Nat × Nat :=
  match rt.fallback.find? fun x => x.1 = g with
  | some (_, some f) => f
  | _ => (0xFFFF, rt.missAct)

/-- Heads of a table's units. -/
def tableHeads (rt : RuleTable) : List Nat := rt.slabs.filter fun x => x % unitSize rt.width = 0

/-- The candidates of a table for a key. -/
def tableCands (s : State) (gp : Nat) (rt : RuleTable) (owned : Bool) (slice : Nat) (err : List (Nat × Nat)) (key : Nat) : List Cand :=
  (tableHeads rt).flatMap fun h =>
    match unitSkips s gp rt.width h with
    | [] =>
      (s.tcm.rows.filter fun x => rowKey gp h 0 ≤ x.1 && x.1 < rowKey gp h 2048
          && rowMatches s gp rt.width h (x.1 % 2048) rt.shared owned slice err key).map fun x =>
        { prio := x.2.prio, slab := h, row := x.1 % 2048, act := x.2.act, fallback := none }
    | gs => gs.eraseDups.map fun g =>
        { prio := (fallbackOf rt g).1, slab := 2 * g, row := 2048, act := (fallbackOf rt g).2, fallback := some g }

/-- The winner of a table (R178); `none` yields MISS_ACT. -/
def bestCand (l : List Cand) : Option Cand :=
  l.foldl (fun b x => match b with
    | some y => if candBefore x y then some x else b
    | none => some x) none

/-! ## Groups, throttle and self-test (R181 to R186) -/

/-- TCM_BANK_SEL. -/
def setBank (t mode groups : Nat) (s : State) : State := rput .tcmBankSel t 0 (pack [(7, 4, groups), (1, 0, mode)]) s

/-- The level rises to k when the reading reaches THk (R183); readings are in 0.125 degrees C. -/
def throttleRise (t : Nat) (reading : Int) (s : State) : State :=
  let th (hi lo : Nat) : Int := (rfld s .tcmThrottle t 0 hi lo : Nat) * 8
  let want := if th 23 16 ≤ reading then 3 else if th 15 8 ≤ reading then 2 else if th 7 0 ≤ reading then 1 else 0
  if rfld s .tcmThrottle t 0 25 24 < want then rset .tcmThrottle t 0 25 24 want s else s

/-- THROTTLE_FALL: the level falls by one and the group that returns wakes (R183). -/
def execThrottleFall (tile : Nat) (s : State) : Res :=
  let lvl := rfld s .tcmThrottle tile 0 25 24
  let th : Int := (rfld s .tcmThrottle tile 0 (lvl * 8 - 1) (lvl * 8 - 8) : Nat) * 8 - 32
  .next <| iff_ (tile < 8 && 0 < lvl && (tget s.sens tile).junction < th) (fun s =>
    let s := rset .tcmThrottle tile 0 25 24 (lvl - 1) s
    { s with tcm := { s.tcm with waking := (tile * 4 + (4 - lvl)) :: s.tcm.waking } }) s

/-- SLAB_GROUP_AWAKE (R183). -/
def execSlabGroupAwake (tile group : Nat) (s : State) : Res :=
  .next { s with tcm := { s.tcm with waking := s.tcm.waking.filter (· ≠ tile * 4 + group) } }

/-- A TCM_BANK_SEL write (R185): refused while TILE_GO is set; MODE TEST starts the self-test. -/
def bankSelWrite (t : Nat) (val : Word) (s : State) : State :=
  if tileGoBit s t then rset .tcmStat t 0 31 31 1 s
  else
    let old := rget s .tcmBankSel t 0
    let s' := setBank t (fld val 1 0) (fld val 7 4) s
    if fld val 1 0 = 2 && rfld s .tcmStat t 0 30 30 = 0 then
      rset .tcmStat t 0 30 30 1 { s' with tcm := { s'.tcm with saved := tput s'.tcm.saved t (some old) } }
    else s'

def execTcmBankSelWrite (tile : Nat) (val : Word) (s : State) : Res :=
  .next <| iff_ (hifUp s && tileRunning s tile) (bankSelWrite tile val) s

/-- Fences slabs that a self-test found failing (R184, R186). -/
def fenceSlabs (t : Nat) (l : List (Nat × Nat)) (s : State) : State :=
  let s := forEach l (fun x s => report (unitId 3 (x.1 * 8 + x.2)) 0x0206 0 0 s) s
  iff_ (!l.isEmpty) (rset .tcmStat t 0 29 29 1) s

/-- The rows of a tile's groups lose VALID. -/
def clearValid (t : Nat) (groups : List Nat) (s : State) : State :=
  { s with tcm := { s.tcm with rows := tmap (fun k (r : TcmRow) =>
      if k / 131072 = t && groups.contains (k / 2048 % 8 / 2) && r.valid then withParity { r with valid := false } else r) s.tcm.rows } }

/-- SLAB_SELF_TEST_END: tested rows have VALID 0, failing slabs are fenced, and the mode returns (R185, R186). -/
def execSlabSelfTestEnd (tile : Nat) (failed : List (Nat × Nat)) (s : State) : Res :=
  .next <| iff_ (tile < 8 && rfld s .tcmStat tile 0 30 30 = 1) (fun s =>
    let sel := rget s .tcmBankSel tile 0
    let tested := (List.range 4).filter fun g => !(fld sel 7 4).testBit g
    let s := clearValid tile tested s
    let s := match tget s.tcm.saved tile with
      | some w => if fld sel 1 0 = 2 then rput .tcmBankSel tile 0 w s else s
      | none => s
    fenceSlabs tile (failed.map fun x => (tile * 8 + x.1, x.2)) (rset .tcmStat tile 0 30 30 0 s)) s

/-- Loads slabs of pipelines from the image baseline (R71, R87, TCM.BASE). -/
def loadRows (f : Nat → Nat → Bool) (s : State) : State :=
  let old := tkeep (fun k _ => !f (k / 16384) (k / 2048 % 8)) s.tcm.rows
  let base := tkeep (fun k _ => f (k / 16384) (k / 2048 % 8)) (img s).slabs.rows
  { s with tcm := { s.tcm with rows := base.foldl (fun m x => tput m x.1 (withParity x.2)) old } }

/-! ## The TCM commands (R179, R180, R334) -/

/-- Global pipelines that the masks name. -/
def tcmPipes (c : Cmd) : List Nat :=
  (maskTiles (opf c 4 7 0)).flatMap fun t => (maskTiles (opf c 4 15 8)).map fun p => t * 8 + p

def tcmSlab (c : Cmd) : Nat := opf c 4 18 16
def tcmRowN (c : Cmd) : Nat := opf c 4 29 19

/-- The requester's rows in a pipeline: the manager's are all; a slice's lie in no SHARED table and in its range. -/
def ownsRow (s : State) (c : Cmd) (gp : Nat) : Bool :=
  c.req = mgr ||
    (rowSlice s (tcmRowN c) = c.req && (slabTable s gp (tcmSlab c)).all fun x => !x.2.shared)

/-- The slab heads its unit. -/
def isHead (s : State) (gp slab : Nat) : Bool := (slabTable s gp slab).any fun x => headSlab x.2.width slab = slab

/-- Checks of the masked commands; `head`: the slab must be a head. -/
def tcmChecks (c : Cmd) (s : State) (head : Bool) : List (Bool × Nat) :=
  let ps := tcmPipes c
  let run := ps.filter (pipeRunning s)
  [(ps.isEmpty || run.any (fun gp => (slabTable s gp (tcmSlab c)).isNone || (head && !isHead s gp (tcmSlab c))), stBAD_OPERAND),
   (ps.any fun gp => !ownsRow s c gp, stNO_PERMISSION),
   (run.isEmpty, stFENCED_UNIT)]

/-- Rewrites the row of a slab in every named running pipeline. -/
def tcmWriteAll (c : Cmd) (slab : Nat → Nat) (f : Nat → TcmRow → TcmRow) (s : State) : State :=
  forEach ((tcmPipes c).filter (pipeRunning s)) (fun gp s =>
    putRow gp (slab gp) (tcmRowN c) (f gp (tcmRow s gp (slab gp) (tcmRowN c))) s) s

/-- The head of the unit that holds the named slab. -/
def namedHead (s : State) (c : Cmd) (gp : Nat) : Nat :=
  match slabTable s gp (tcmSlab c) with
  | some x => headSlab x.2.width (tcmSlab c)
  | none => tcmSlab c

/-- TCM.WR: one slab's part of a rule; EXISTS when the unit is valid in a named running pipeline. -/
def execTcmWr (c : Cmd) (s : State) : Res :=
  .next <| runCmd c 0xC1 .any (tcmChecks c s false) (fun s =>
    if ((tcmPipes c).filter (pipeRunning s)).any (fun gp => (tcmRow s gp (namedHead s c gp) (tcmRowN c)).valid) then
      fin c stEXISTS [] s
    else
      fin c stOK [] (tcmWriteAll c (fun _ => tcmSlab c) (fun gp r =>
        let r := { r with value := BitVec.ofNat 160 (opBits c 6 5), mask := BitVec.ofNat 160 (opBits c 11 5) }
        if isHead s gp (tcmSlab c) then { r with prio := opf c 5 15 0, act := opf c 5 31 16 } else r) s)) s

/-- TCM.VAL. -/
def execTcmVal (c : Cmd) (s : State) : Res :=
  .next <| runCmd c 0xC2 .any (tcmChecks c s true) (fun s =>
    fin c stOK [] (tcmWriteAll c (fun _ => tcmSlab c) (fun _ r => { r with valid := opb c 4 30 }) s)) s

/-- TCM.ACT: PRIORITY and ACTION in one write, valid or not. -/
def execTcmAct (c : Cmd) (s : State) : Res :=
  .next <| runCmd c 0xC3 .any (tcmChecks c s true) (fun s =>
    fin c stOK [] (tcmWriteAll c (fun _ => tcmSlab c) (fun _ r => { r with prio := opf c 5 15 0, act := opf c 5 31 16 }) s)) s

/-- TCM.RD: one row. -/
def execTcmRd (c : Cmd) (s : State) : Res :=
  let gp := opf c 4 2 0 * 8 + opf c 4 10 8
  .next <| runCmd c 0xC4 .any
    [((slabTable s gp (tcmSlab c)).isNone, stBAD_OPERAND), (!ownsRow s c gp, stNO_PERMISSION), (!pipeRunning s gp, stFENCED_UNIT)]
    (fun s =>
      let r := tcmRow s gp (tcmSlab c) (tcmRowN c)
      fin c stOK ([(4, setBit (setBit (opw c 4) 30 r.valid) 31 r.parity), (5, pack [(15, 0, r.prio), (31, 16, r.act)])]
        ++ retBits 6 5 r.value.toNat ++ retBits 11 5 r.mask.toNat) s) s

/-- TCM.BASE: reloads a group's slabs from the image baseline. -/
def execTcmBase (c : Cmd) (s : State) : Res :=
  let run := (tcmPipes c).filter (pipeRunning s)
  .next <| runCmd c 0xC5 .manager [((tcmPipes c).isEmpty, stBAD_OPERAND), (run.isEmpty, stFENCED_UNIT)] (fun s =>
    fin c stOK [] (loadRows (fun gp slab => run.contains gp && slab / 2 = opf c 5 1 0) s)) s

end Sys2Proof.Machine
end

