-- ==== Sys2Proof/Machine/Action.lean ====
section
/-! DEFINITION. The action stage (08_actions.md): words, programs, header edits, next hops, groups, captures. -/
namespace Sys2Proof.Machine

/-- A header of the working vector. `tun`: a KIND 3 state recorded it. `base`: for a UDP header behind an IPv6 header, the sum of
what its checksum covers at the point from which edits count (R197). -/
structure Hd where
  id : Nat
  off : Nat
  len : Nat
  tun : Bool := false
  base : Option Nat := none
deriving DecidableEq, Repr, Inhabited

/-- A result register with HIT 1 (R188): a next-hop index, or a port from an exact-match hit of KIND 0. -/
inductive RegV where
  | nh (i : Nat)
  | prt (p : Nat)
deriving DecidableEq, Repr

/-- A destination set by a word. `base` is the leaf octet (`none`: the port has no default leaf base), `cls` the class of a
TRAP, `next` the next hop followed. -/
structure Dest where
  kind : Nat
  prt : Nat := 1023
  base : Option Nat := none
  cls : Option Nat := none
  mcg : Nat := 0
  next : Option Nat := none
deriving DecidableEq, Repr, Inhabited

/-- A run of the action stage. -/
structure Run where
  s : State
  bytes : List Byte
  hv : List Hd
  md : BitVec 256
  words : Nat := 0
  grown : Nat := 0
  dest : Option Dest := none
  ended : Bool := false
  dropped : Bool := false
  trunc : Bool := false
  sprinkled : Bool := false

/-- What a run works on: pipeline, frame as received, registers EXM0, EXM1, LPM0, LPM1, claims and PAR_DEPTH. -/
structure RunEnv where
  g : Nat
  f : Frame
  regs : List (Option RegV)
  claims : List Nat
  depth : Nat

/-! ## Bytes of headers -/

def byteAt (bs : List Byte) (i : Nat) : Nat := (bs.getD i 0).toNat

/-- One's-complement sum of 16-bit words. -/
def sum16 : List Byte → Nat
  | [] => 0
  | [a] => a.toNat * 256
  | a :: b :: l => a.toNat * 256 + b.toNat + sum16 l

def foldSum (x : Nat) : Nat :=
  let f (x : Nat) : Nat := x % 65536 + x / 65536
  f (f (f x))

/-- The headers as the vector words of R135. -/
def hvWords (l : List Hd) : List Word := l.map fun h => pack [(31, 24, h.id), (21, 12, h.len), (8, 0, h.off)]

/-- The header an HSEL names (R193). -/
def selHd (hv : List Hd) (hsel : Nat) : Option (Nat × Hd) :=
  let l := (hv.zipIdx.map fun x => (x.2, x.1)).filter fun x => x.2.id = hsel % 256
  match hsel / 256 with
  | 3 => l.getLast?
  | k => l[k]?

/-- Headers at or after an offset moved by d bytes. -/
def shiftFrom (off : Nat) (d : Int) (l : List Hd) : List Hd :=
  l.map fun h => if off ≤ h.off then { h with off := ((h.off : Int) + d).toNat } else h


/-- The first header of an identifier. -/
def firstHd (l : List Hd) (id : Nat) : Option Hd := if id = 0 then none else l.find? fun h => h.id = id

/-! ## Counting and ending -/

def rcount (e : RunEnv) (i : Nat) (r : Run) : Run := { r with s := pipeCnt e.g (16 + i) 1 r.s }

/-- The frame is discarded; execution ends (R190). -/
def rdrop (r : Run) : Run := { r with ended := true, dropped := true }

/-- Default leaf base of a port (R446). -/
def leafBase (s : State) (p : Nat) : Option Nat := tget (img s).ports.leafBase p

/-- A TRAP of a class: the host port of the slice that owns the ingress port (R194). -/
def rtrap (e : RunEnv) (cls : Nat) (r : Run) : Run :=
  match portOwner r.s e.f.port with
  | some sl => { r with dest := some { kind := 3, prt := 512 + sl, base := leafBase r.s (512 + sl), cls := some cls } }
  | none => rdrop (rcount e 9 r)

/-! ## Captures (R433, R434) -/

/-- The requester a capture goes to. -/
def captureOwner (s : State) (p : Nat) : Nat := (portOwner s p).getD mgr

/-- The four entries of a capture. -/
def captureEntries (g trigger : Nat) (data : List Byte) (md : BitVec 256) : List (List Word) :=
  let body (k n : Nat) : List Word := wordsOf 15 (((data.drop k).take n ++ List.replicate 60 0).take 60)
  [[pack [(23, 16, 0x20), (15, 8, data.length), (1, 0, trigger)], pack [(2, 0, g / 8), (5, 3, g % 8)], 0, 0]
     ++ (List.range 8).map fun i => word (md.toNat / 2 ^ (32 * i)),
   pack [(23, 16, 0x21), (1, 0, 1)] :: body 0 60,
   pack [(23, 16, 0x21), (1, 0, 2)] :: body 60 60,
   pack [(23, 16, 0x21), (1, 0, 3)] :: body 120 8]

/-- Takes a capture: four entries of the owner's sprinkle ring, through a buffer of the tile, or lost. -/
def capture (g p trigger : Nat) (bytes : List Byte) (md : BitVec 256) (s : State) : State :=
  let o := captureOwner s p
  let data := bytes.take 128
  match kindRing s o 5 with
  | none => ownerCnt o 10 1 s
  | some r =>
    if ringRoom (ringSt s o r) < 4 then ownerCnt o 10 1 s
    else
      match allocFor (g / 8) 160 (if o = mgr then .manager else .host o)
          (if o = mgr then 4 * 4096 + r else 3 * 4096 + o * 256 + r) s with
      | none => ownerCnt o 10 1 (tileCnt (g / 8) (16 + 13) 1 s)
      | some (s, h) =>
        ownerCnt o 9 1 (bufRelease h (forEach (captureEntries g trigger data md) (fun w => pushEntry o r w) s))

/-! ## Groups and next hops (R199 to R204, R310) -/

def nextHop (s : State) (i : Nat) : Nat := (tget s.act.nextHops i).toNat

def nhTarget (n : Nat) : Nat := gf n 19 0
def nhKind (n : Nat) : Nat := gf n 22 20
def nhPort (n : Nat) : Nat := gf n 32 23
def nhValid (n : Nat) : Bool := n.testBit 33

/-- The port that a KIND 1 or 5 next hop sends to. -/
def nhDest (n : Nat) : Nat := if nhKind n = 5 then 512 + nhTarget n % 16 else nhPort n

/-- A next hop is usable in a group (R204). -/
def usable (s : State) (i : Nat) : Bool :=
  let n := nextHop s i
  nhValid n && (nhKind n = 1 || nhKind n = 5) && portUp s (nhDest n) && !(port s (nhDest n)).fenced

/-- A VALID next hop of KIND 2, 3 or 4 that a group or member list meets (ACT_NEST). -/
def nested (s : State) (i : Nat) : Bool := nhValid (nextHop s i) && 2 ≤ nhKind (nextHop s i) && nhKind (nextHop s i) ≤ 4

/-- PRIMARY of a bucket, with the route overlay of R310. -/
def primaryOf (s : State) (g b : Nat) : Nat :=
  let p := (tget s.act.buckets (g * 256 + b)).1
  if activeFail s ≠ 0 && (img s).corridor.groups.contains g then
    (tget (img s).corridor.overlay (activeFail s * 16384 + g)).getD p
  else p

/-- The headers whose fields a hash takes: with INNER those after the last KIND 3 header, where there is one (R202). -/
def hashHds (hv : List Hd) (inner : Bool) : List Hd :=
  match inner, (hv.zipIdx.filter fun x => x.1.tun).getLast? with
  | true, some x => hv.drop (x.2 + 1)
  | _, _ => hv

/-- Fields of the hash tuple in the order of ACT_HASH_FLD (R202; log 118). -/
def hashFields (r : Run) (e : RunEnv) (hv : List Hd) : List Nat :=
  let b := (img r.s).action.bind
  let at_ (id off n : Nat) : Nat := ((firstHd hv id).map fun h => beAt r.bytes (h.off + off) n).getD 0
  let ip4 := (firstHd hv b.ip4).isSome
  let first (x y : Nat) : Nat := if x ≠ 0 then x else y
  let l4 (off : Nat) : Nat := first (at_ b.tcp off 2) (at_ b.udp off 2)
  let label := (((hv.filter fun h => h.id = b.mpls && b.mpls ≠ 0).getLast?).map fun h => beAt r.bytes h.off 3 / 16).getD 0
  [if ip4 then at_ b.ip4 12 4 else at_ b.ip6 8 16, if ip4 then at_ b.ip4 16 4 else at_ b.ip6 24 16,
   if ip4 then at_ b.ip4 9 1 else at_ b.ip6 6 1, l4 0, l4 2, if ip4 then 0 else at_ b.ip6 0 4 % 1048576, label,
   at_ b.eth 6 6, at_ b.eth 0 6, at_ b.vlan 0 2 % 4096, e.f.port, at_ b.vxlan 4 3]

/-- The canonical order of a steer group (R203). -/
def canonical (hasIp : Bool) (l : List Nat) : List Nat :=
  let g (i : Nat) : Nat := l.getD i 0
  if hasIp then
    if g 1 < g 0 || (g 0 = g 1 && g 4 < g 3) then (((l.set 0 (g 1)).set 1 (g 0)).set 3 (g 4)).set 4 (g 3) else l
  else if g 8 < g 7 then (l.set 7 (g 8)).set 8 (g 7) else l

/-- The frame has an IPv4 or IPv6 header among those whose fields a hash takes. -/
def hasIp (b : HashBind) (hv : List Hd) : Bool := (firstHd hv b.ip4).isSome || (firstHd hv b.ip6).isSome

/-- The bucket of a group for a frame (R204): a steer group's tuple is put in order as it stands, unselected fields 0. -/
def bucketIndex (r : Run) (e : RunEnv) (h : GroupHdr) : Nat :=
  let fw := (tget (img r.s).action.hashFld h.prof)
  let hv := hashHds r.hv (bit fw 13)
  let l := hashFields r e hv
  let l := (List.range 12).map fun i => if fw.toNat.testBit i then l.getD i 0 else 0
  let l := if h.steer then canonical (hasIp (img r.s).action.bind hv) l else l
  ((crcSeeded (tget (img r.s).action.hashSeed h.prof) (Config.tupleBytes l)).toNat >>> 24) % 256

/-- The destination of a KIND 1 or 5 next hop. -/
def setNext (e : RunEnv) (i : Nat) (r : Run) : Run :=
  let n := nextHop r.s i
  let r := { r with md := mdSet 230 213 i r.md }
  if nhKind n = 5 then
    if !sliceOn r.s (nhTarget n % 16) then rdrop (rcount e 10 r)
    else { r with dest := some { kind := 3, prt := nhDest n, base := leafBase r.s (nhDest n), next := some n } }
  else
    { r with dest := some { kind := 1, prt := nhPort n, base := some (nhTarget n / 8 * 8), next := some n } }

/-- FWD_NH follows a next hop (R200, R204). -/
def follow (e : RunEnv) (i : Nat) (r : Run) : Run :=
  let n := nextHop r.s i
  let r := { r with md := mdSet 230 213 i r.md }
  if !nhValid n then rdrop (rcount e 8 r)
  else
    match nhKind n with
    | 1 => setNext e i r
    | 5 => setNext e i r
    | 2 => { r with dest := some { kind := 2, mcg := nhTarget n % 65536 } }
    | 3 => group_ e (nhTarget n % 16384) r
    | 4 => group_ e (nhTarget n % 16384) r
    | _ => rdrop (rcount e 8 r)
where
  group_ (e : RunEnv) (g : Nat) (r : Run) : Run :=
    let h := tget r.s.act.groups g
    if !h.valid then rdrop (rcount e 8 r)
    else
      let b := bucketIndex r e h
      let p := primaryOf r.s g b
      let q := (tget r.s.act.buckets (g * 256 + b)).2
      let r := { r with md := mdSet 238 231 b r.md }
      let r := if nested r.s p then rcount e 11 r else r
      if usable r.s p then setNext e p r
      else
        let r := if nested r.s q then rcount e 11 r else r
        if usable r.s q then setNext e q r else rdrop { r with s := groupCnt false g 0 r.s }

/-- FWD_NH of an exact-match port: as a next hop of KIND PORT, with the port's default leaf base and no rewrite (R188). -/
def followPort (p : Nat) (r : Run) : Run := { r with dest := some { kind := 1, prt := p, base := leafBase r.s p } }

/-! ## Header edits (R194 to R197) -/

def rskip (e : RunEnv) (r : Run) : Run := rcount e 4 r

/-- Inserts bytes at an offset. -/
def insertAt (bs : List Byte) (off : Nat) (new : List Byte) : List Byte := bs.take off ++ new ++ bs.drop off

/-- Sum of what an IPv6 UDP checksum covers, but for the checksum itself, from an IPv6 and a UDP offset: addresses, length and next
header of the pseudo-header, the UDP header and its data. -/
def udp6Sum (bs : List Byte) (ip udp : Nat) : Nat :=
  let len := beAt bs (udp + 4) 2
  foldSum (sum16 ((bs.drop (ip + 8)).take 32) + len + 17 + sum16 ((bs.drop udp).take 6) + sum16 ((bs.drop (udp + 8)).take (len - 8)))

/-- A UDP header behind an IPv6 header whose checksum is not yet followed. -/
def udp6New (b : HashBind) (h u : Hd) : Bool := h.id = b.ip6 && u.id = b.udp && b.ip6 ≠ 0 && b.udp ≠ 0 && u.base.isNone

/-- Notes the sum of each UDP header that stands behind an IPv6 header and has none yet. -/
def sumHds (b : HashBind) (bs : List Byte) (l : List Hd) : List Hd :=
  l.zipIdx.map fun x =>
    match if x.2 = 0 then none else l[x.2 - 1]? with
    | some h => if udp6New b h x.1 then { x.1 with base := some (udp6Sum bs h.off x.1.off) } else x.1
    | none => x.1

/-- PUSH of a template before header index k, or after it. -/
def doPush (e : RunEnv) (tmpl k : Nat) (h : Hd) (after : Bool) (r : Run) : Run :=
  let t := tget (img r.s).action.templates tmpl
  if tmpl = 0 || t.bytes.isEmpty then rskip e r
  else if 256 < r.grown + t.bytes.length then rcount e 5 r
  else
    let off := if after then h.off + h.len else h.off
    let pos := if after then k + 1 else k
    let moved := shiftFrom off t.bytes.length r.hv
    let bs := insertAt r.bytes off t.bytes
    { r with
      bytes := bs, grown := r.grown + t.bytes.length,
      hv := sumHds (img r.s).action.bind bs
        (moved.take pos ++ { id := t.hdrId, off := off, len := t.bytes.length } :: moved.drop pos) }

/-- POP of n headers from index k. -/
def doPop (e : RunEnv) (n k : Nat) (h : Hd) (r : Run) : Run :=
  match r.hv[k + n - 1]? with
  | none => rskip e r
  | some l =>
    let len := l.off + l.len - h.off
    { r with
      bytes := r.bytes.take h.off ++ r.bytes.drop (h.off + len),
      hv := shiftFrom h.off (-(len : Int)) (r.hv.take k ++ r.hv.drop (k + n)) }

/-- The IPv4 checksum of a header recomputed. -/
def ip4Csum (bs : List Byte) (h : Hd) : List Byte :=
  let hd := patchBytes ((bs.drop h.off).take h.len) 10 [0, 0]
  patchBytes bs (h.off + 10) (beBytes 2 (65535 - foldSum (sum16 hd)))

/-- The UDP header that follows an IP header: zero under IPv4, updated incrementally under IPv6 for the edits since its checksum
was last in step (R118, R197; log 101). -/
def udpCsum (k : Nat) (h : Hd) (r : Run) : Run :=
  let b := (img r.s).action.bind
  match r.hv[k + 1]? with
  | none => r
  | some u =>
    if u.id ≠ b.udp || b.udp = 0 then r
    else if h.id = b.ip4 then { r with bytes := patchBytes r.bytes (u.off + 6) [0, 0] }
    else
      match u.base with
      | some old =>
        let new := udp6Sum r.bytes h.off u.off
        let c := foldSum (65535 - beAt r.bytes (u.off + 6) 2 + new + (65535 - old))
        { r with
          bytes := patchBytes r.bytes (u.off + 6) (beBytes 2 (65535 - c)),
          hv := r.hv.set (k + 1) { u with base := some new } }
      | none => r

/-- DECTTL (R196). -/
def decTtl (e : RunEnv) (form : Nat) (trap : Bool) (cls : Nat) (h : Hd) (r : Run) : Run :=
  let o := if form = 0 then 8 else if form = 1 then 7 else 3
  if h.len ≤ o then rskip e r
  else
    let ttl := byteAt r.bytes (h.off + o)
    if ttl ≤ 1 then
      if trap then { rtrap e cls r with ended := true } else rdrop (rcount e 7 r)
    else
      let bs := patchBytes r.bytes (h.off + o) [BitVec.ofNat 8 (ttl - 1)]
      if form = 0 then
        let c := foldSum (beAt bs (h.off + 10) 2 + 256)
        { r with bytes := if h.len < 12 then bs else patchBytes bs (h.off + 10) (beBytes 2 c) }
      else { r with bytes := bs }

/-- METER (R290). -/
def meter (e : RunEnv) (i : Nat) (r : Run) : Run :=
  let t := e.g / 8
  let p := tget r.s.sch.policers i
  let m := if mdGet r.md 138 138 = 1 then mdGet r.md 154 141
    else match e.claims.getLast? with
      | some c => c + 4
      | none => e.depth + 4
  if p.maxSdu ≠ 0 && p.maxSdu < m then rdrop { r with s := polCnt t i 3 r.s }
  else if p.sgate.any (fun g => !sgOpen r.s g) then rdrop { r with s := polCnt t i 4 r.s }
  else
    let r := match p.sgate with
      | some g =>
        if (sgateOf r.s g).active.count = 0 then r
        else match (entryNow (sgateOf r.s g)).ipv with
          | some c => { r with md := mdSet 210 208 c r.md }
          | none => r
      | none => r
    let b := (chargeOf r.s p.lenProf m).toNat
    let inC := if p.aware then mdGet r.md 212 211 else 0
    let (col, c) := meterColour p b inC (polRefilled r.s p (tget r.s.sch.polCounts (polKey t i)))
    { r with
      md := mdSet 212 211 col r.md,
      s := polCnt t i col { r.s with sch := { r.s.sch with polCounts := tput r.s.sch.polCounts (polKey t i) c } } }

/-- The metadata with what a destination adds (R198); a TRAP's leaf is of its own class. -/
def destMeta (d : Dest) (md : BitVec 256) : BitVec 256 :=
  let leaf := ((d.base.map fun b => b / 8 * 8 + d.cls.getD (mdGet md 210 208))).getD 0
  mdSet 169 160 d.prt (mdSet 189 170 leaf (mdSet 205 190 d.mcg (mdSet 207 206 d.kind md)))

/-- The metadata as it stands in a run. -/
def Run.meta (r : Run) : BitVec 256 := match r.dest with
  | some d => destMeta d r.md
  | none => r.md

/-- SPRINKLE of parameter k (R433): the pipeline's counter advances once for each frame that runs a SPRINKLE word. -/
def sprinkle (e : RunEnv) (k : Nat) (r : Run) : Run :=
  let n := tget r.s.act.sprinkle e.g
  let s := if r.sprinkled then r.s else { r.s with act := { r.s.act with sprinkle := tput r.s.act.sprinkle e.g ((n + 1) % 65536) } }
  let cnt := if r.sprinkled then (n + 65535) % 65536 else n
  let r := { r with s := s, sprinkled := true }
  if cnt % 2 ^ k = 0 && mdGet r.md 248 248 = 0 then
    let md := mdSet 248 248 1 r.md
    { r with md := md, s := capture e.g e.f.port 1 r.bytes r.meta r.s }
  else r

/-! ## Words and programs -/

/-- COND of a word (R193). -/
def condTrue (e : RunEnv) (r : Run) (c : Nat) : Bool :=
  let col := mdGet r.md 212 211
  let hit (k : Nat) : Bool := (e.regs.getD k none).isSome
  match c with
  | 0 => true
  | 1 => col = 0
  | 2 => col = 1
  | 3 => col = 2
  | 4 => col ≠ 0
  | 13 => mdGet r.md 105 101 ≠ 0
  | 14 => mdGet r.md 130 130 = 1
  | 15 => false
  | n => if n ≤ 8 then hit (n - 5) else !hit (n - 9)

/-- A word whose OP or operands the table of R194 does not allow. -/
def malformed (w : Nat) : Bool :=
  match gf w 63 58 with
  | 0x00 => gf w 43 0 ≠ 0
  | 0x0F => gf w 43 0 ≠ 0
  | 0x02 => gf w 15 10 = 0 || 32 < gf w 15 10
  | 0x03 => 3 ≤ gf w 43 40 || (gf w 43 40 = 0 && 7 < gf w 31 0) || (gf w 43 40 = 1 && 2 < gf w 31 0) || (gf w 43 40 = 2 && 63 < gf w 31 0)
  | 0x05 => gf w 43 40 = 0 || 8 < gf w 43 40
  | 0x06 => gf w 43 42 = 3
  | 0x0C => 5 ≤ gf w 43 41
  | n => 0x10 < n

/-- Words that name a header by HSEL. -/
def needsHd (op : Nat) : Bool := op = 1 || op = 2 || (4 ≤ op && op ≤ 7)

/-- A word that names a header, run on it. -/
def runHd (e : RunEnv) (w k : Nat) (h : Hd) (r : Run) : Run :=
  match gf w 63 58 with
  | 0x01 =>
    let n := gf w 33 32 + 1
    if h.len < gf w 42 34 + n then rskip e r
    else { r with bytes := patchBytes r.bytes (h.off + gf w 42 34) (beBytes n (gf w 31 0)) }
  | 0x02 =>
    match selHd r.hv (gf w 43 34) with
    | none => rskip e r
    | some (_, src) =>
      let n := gf w 15 10
      if src.len < gf w 33 25 + n || h.len < gf w 24 16 + n then rskip e r
      else { r with bytes := patchBytes r.bytes (h.off + gf w 24 16) ((r.bytes.drop (src.off + gf w 33 25)).take n) }
  | 0x04 => doPush e (gf w 43 30) k h (w.testBit 29) r
  | 0x05 => doPop e (gf w 43 40) k h r
  | 0x06 => decTtl e (gf w 43 42) (w.testBit 41) (gf w 40 38) h r
  | _ =>
    let r := if w.testBit 43 && 20 ≤ h.len then { r with bytes := ip4Csum r.bytes h } else r
    if w.testBit 42 then udpCsum k h r else r

/-- A word that names no header. -/
def runPlain (e : RunEnv) (w : Nat) (r : Run) : Run :=
  match gf w 63 58 with
  | 0x03 =>
    match gf w 43 40 with
    | 0 => { r with md := mdSet 210 208 (gf w 31 0) r.md }
    | 1 => { r with md := mdSet 212 211 (gf w 31 0) r.md }
    | _ => { r with md := mdSet 247 242 (gf w 31 0) r.md }
  | 0x08 => meter e (gf w 43 26) r
  | 0x09 => { r with s := actCnt (e.g / 8) (gf w 43 26) 1 (r.bytes.length + 4) (actCnt (e.g / 8) (gf w 43 26) 0 1 r.s) }
  | 0x0A => { r with md := mdSet 239 239 1 (mdSet 247 242 (gf w 43 38) r.md) }
  | 0x0B => sprinkle e (gf w 43 40) r
  | 0x0C =>
    match gf w 43 41 with
    | 0 => follow e (gf w 17 0) r
    | k =>
      match e.regs.getD (k - 1) none with
      | some (.nh i) => follow e i r
      | some (.prt p) => followPort p r
      | none => r
  | 0x0D => { r with dest := some { kind := 2, mcg := gf w 15 0 } }
  | 0x0E => rtrap e (gf w 2 0) r
  | 0x0F => rdrop r
  | 0x10 => { r with md := mdSet 240 240 ((w.testBit 43).toNat) (mdSet 241 241 ((w.testBit 42).toNat) r.md) }
  | _ => r

/-- One action word (R193, R194). -/
def runWord (e : RunEnv) (w : Nat) (r : Run) : Run :=
  if r.ended then r
  else if 64 ≤ r.words then { r with trunc := true }
  else
    let r := { r with words := r.words + 1 }
    if !condTrue e r (gf w 57 54) then r
    else if malformed w then rdrop (rcount e 3 r)
    else if needsHd (gf w 63 58) then
      match selHd r.hv (gf w 53 44) with
      | none => rskip e r
      | some (k, h) => runHd e w k h r
    else runPlain e w r

/-- A program by its action index (R192). -/
def runProg (e : RunEnv) (a : Nat) (r : Run) : Run :=
  if r.ended then r
  else
    let p := tget (img r.s).action.progs a
    if 8192 ≤ a || p.len = 0 then
      if 64 ≤ r.words then { r with trunc := true } else rdrop (rcount e 2 { r with words := r.words + 1 })
    else (List.range p.len).foldl (fun r i => runWord e (tget (img r.s).action.lib (p.start + i)).toNat r) r

/-- A miss action (R189). -/
def missAction (e : RunEnv) (m : Nat × Nat) (r : Run) : Run :=
  if r.ended then r
  else
    match m.1 with
    | 1 => rdrop r
    | 2 => rtrap e (m.2 % 8) r
    | 3 => { r with dest := some { kind := 2, mcg := m.2 % 65536 } }
    | _ => r

/-! ## Rewrites (R199, R200) -/

/-- The outermost VLAN tag of a frame. -/
def hasTag (bs : List Byte) : Bool := beAt bs 12 2 = 0x8100 || beAt bs 12 2 = 0x88A8

/-- L2_REWRITE of a next hop on a frame leaving by a port. -/
def l2Rewrite (n prt : Nat) (bs : List Byte) : List Byte :=
  let vid := gf n 46 35
  let bs := patchBytes bs 0 (beBytes 6 (gf n 95 48) ++ beBytes 6 (Config.portMac prt).toNat)
  if vid = 0 then (if hasTag bs then bs.take 12 ++ bs.drop 16 else bs)
  else if hasTag bs then patchBytes bs 14 (beBytes 2 (beAt bs 14 2 / 4096 * 4096 + vid))
  else insertAt bs 12 (beBytes 2 0x8100 ++ beBytes 2 vid)

/-- Offset of the outermost IP or MPLS header. -/
def ipOffset (s : State) (hv : List Hd) : Option Nat :=
  let b := (img s).action.bind
  (hv.find? fun h => h.id ≠ 0 && (h.id = b.ip4 || h.id = b.ip6 || h.id = b.mpls)).map (·.off)

/-- The rewrite and template of a next hop, applied to a frame's bytes without FCS. -/
def applyNext (s : State) (n prt : Nat) (ip : Option Nat) (bs : List Byte) : List Byte :=
  let t := (tget (img s).action.templates (gf n 109 96)).bytes
  let bs := match ip with
    | some o => if gf n 109 96 = 0 then bs else insertAt bs o t
    | none => bs
  if n.testBit 34 then l2Rewrite n prt bs else bs

/-- The same on the header vector: a template enters it at its place, and an L2 rewrite that pushes or pops a tag moves what
follows. -/
def nextHds (s : State) (n : Nat) (bs : List Byte) (hv : List Hd) : List Hd :=
  let t := tget (img s).action.templates (gf n 109 96)
  let hv := match ipOffset s hv with
    | some o =>
      if gf n 109 96 = 0 then hv
      else
        let moved := shiftFrom o t.bytes.length hv
        (moved.filter (·.off < o)) ++ { id := t.hdrId, off := o, len := t.bytes.length } :: moved.filter (o ≤ ·.off)
    | none => hv
  if !n.testBit 34 then hv
  else if gf n 46 35 = 0 then (if hasTag bs then shiftFrom 18 (-4) (hv.filter (·.off ≠ 14)) else hv)
  else if hasTag bs then hv
  else shiftFrom 14 4 hv

/-! ## The whole stage (R190, R191) -/

/-- Runs miss actions, the profile program and the rule tables' programs; then the rewrite and the size limit. -/
def runActions (e : RunEnv) (misses : List (Nat × Nat)) (profProg : Nat) (tables : List Nat) (r : Run) : Run :=
  let r := misses.foldl (fun r m => missAction e m r) r
  let r := runProg e profProg r
  let r := tables.foldl (fun r a => runProg e a r) r
  let r := if r.trunc then rcount e 0 r else r
  if r.dropped then r
  else
    match r.dest with
    | none => rdrop (rcount e 1 r)
    | some d =>
      let r := match d.next with
        | some n => { r with bytes := applyNext r.s n d.prt (ipOffset r.s r.hv) r.bytes, hv := nextHds r.s n r.bytes r.hv }
        | none => r
      if 10240 < r.bytes.length + 4 then rdrop (rcount e 6 r) else r

end Sys2Proof.Machine
end

