-- ==== Sys2Proof/Machine/Links.lean ====
section
/-! DEFINITION. Links, slots and the calendar: which slot stands now, what a link may carry in it (R211 to R213, R222, R234). -/
namespace Sys2Proof.Machine

/-- Slot kinds of R212. -/
def kindSpread : Nat := 1
def kindReturn : Nat := 2
def kindExpress : Nat := 3

/-- A bank that an image stages: its calendar and its tier map (R234). -/
def bankOf (i : Image) : CalBank := { slots := i.cal.slots, tiers := i.queues.tierMap }

/-- The bank in force: the pending image's once BANK_SWAP has taken it, else the running image's. -/
def activeBank (s : State) : CalBank :=
  match s.img.calSwapped, s.img.shadow with
  | true, some i => bankOf i
  | _, _ => bankOf (img s)

/-- Slots of 1.024 ns since a cycle began at module time 0, 15,625 to a cycle of 16,000 ns (R212); a calendar that waits to realign
keeps its old phase (R114). -/
def slotNow (s : State) : Nat :=
  let n := nowNs s + s.tim.calShift
  n / 16000 * 15625 + n % 16000 * 125 / 128

/-- Four bits of the slot word of a tile for its link to another tile. -/
def slotBits (s : State) (t dst slot : Nat) : Nat :=
  let j := (dst + 8 - t) % 8
  fld (tget (activeBank s).slots ((t * 9 + patternAt s t) * 15625 + slot % 15625)) (4 * j - 1) (4 * j - 4)

/-- Kind and tier of a slot on a link. -/
def slotKind (s : State) (t dst slot : Nat) : Nat := slotBits s t dst slot % 4
def slotTier (s : State) (t dst slot : Nat) : Nat := slotBits s t dst slot / 4

/-- The tier that a class has in the tier map (R213). -/
def classTier (s : State) (c : Nat) : Nat := tget (activeBank s).tiers c % 4

def linkKey (t dst kind : Nat) : Nat := (t * 8 + dst) * 4 + kind

/-- A slot of a kind lies on a link after one slot and before another. -/
def kindBetween (s : State) (t dst kind lo hi : Nat) : Bool :=
  (List.range (hi - lo - 1)).any fun k => slotKind s t dst (lo + 1 + k) = kind

/-- What a link has carried in the present slot of a kind. Words of a cell that did not fit continue in the next slot of the kind. -/
def linkNow (s : State) (t dst kind : Nat) : LinkUse :=
  let u := tget s.fab.links (linkKey t dst kind)
  let now := slotNow s
  if u.slot = now then u
  else if u.carried = 0 || now < u.slot || u.slot + 15625 < now || kindBetween s t dst kind u.slot now then { slot := now }
  else { slot := now, words := u.carried }

/-- A cell of some words may leave on a link now: in a slot of its kind with a word and a header free. A tile's own store is no
link. -/
def canSend (s : State) (t dst kind words : Nat) : Bool :=
  t = dst ||
    (slotKind s t dst (slotNow s) = kind && (linkNow s t dst kind).heads < 4 && (words = 0 || (linkNow s t dst kind).words < 16))

/-- The link carries a cell of some words. -/
def useLink (t dst kind words : Nat) (s : State) : State :=
  if t = dst then s
  else
    let u := linkNow s t dst kind
    let v : LinkUse :=
      { slot := u.slot, heads := u.heads + 1, words := min 16 (u.words + words), carried := u.carried + (u.words + words - 16) }
    { s with fab := { s.fab with links := tput s.fab.links (linkKey t dst kind) v } }

/-- A class may leave in the present slot on a link, where `ready` says which classes have a cell for it: a tiered slot serves its
own classes first (R213). -/
def tierAllows (s : State) (t dst : Nat) (ready : Nat → Bool) (c : Nat) : Bool :=
  let k := slotTier s t dst (slotNow s)
  t = dst || k = 0 || classTier s c = k || !((List.range 8).any fun d => ready d && classTier s d = k)

/-- A link delivers one control message in a slot; what a tile sends itself takes none. -/
def ctlFree (s : State) (src dst : Nat) : Bool := src = dst || tget s.fab.ctlSlot (src * 8 + dst) ≠ slotNow s + 1

/-- The present slot's control message is delivered. -/
def ctlTaken (src dst : Nat) (s : State) : State :=
  iff_ (src ≠ dst) (fun s => { s with fab := { s.fab with ctlSlot := tput s.fab.ctlSlot (src * 8 + dst) (slotNow s + 1) } }) s

end Sys2Proof.Machine
end

