-- ==== Sys2Proof/Machine/Store.lean ====
section
/-! DEFINITION. Step 5 in the source tile: route, admission, push-out, stripes and NOTICEs (R19 to R24, R214, R218, R219, R240,
R245 to R247). -/
namespace Sys2Proof.Machine

/-- Length after edits, FCS included. -/
def frameLen (f : Frame) : Nat := f.edited.length + 4

/-- Cells of a length. -/
def cellsOf (n : Nat) : Nat := ceilDiv n 256

/-- A class is parity-striped (log 20). -/
def parityClass (s : State) (c : Nat) : Bool := (img s).queues.parityClasses.contains c

/-- A frame is discarded in a tile: the tile's counter, its leaf's where it has one, and DROPS of the leaf's slice. -/
def discard (t tileIdx leaf : Nat) (leafIdx : Option Nat) (s : State) : State :=
  let s := ownerCnt (leafSlice s leaf) 4 1 (tileCnt t tileIdx 1 s)
  match leafIdx with
  | some i => leafDrop leaf i s
  | none => s

/-- Removes a frame from its source tile as discarded. -/
def gone (f : Frame) (s : State) : State := frameGone f.fid (dropFrame f.fid s)

/-! ## The express route (R19, R20, R220, R221) -/

/-- A frame that step 5 has taken waits in its landing buffer to be dealt (R20, R247). -/
def waitsAt5 (f : Frame) : Bool := match f.phase with
  | .pushout _ _ _ => true
  | .admitted => true
  | _ => false

/-- The leaf is empty as its source sees it. -/
def leafEmpty (s : State) (t l : Nat) : Bool :=
  (leafHeld s t l).isEmpty && !(leafSt s l).express && !(s.frames.any fun f => f.tile = t && f.leaf = l && waitsAt5 f) &&
  !(s.frames.any fun f => f.tile = t && f.deals.any fun d => d.leaf = l) &&
  !(s.fab.notices.any fun n => n.src = t && n.leaf = l) &&
  !(s.fab.wires.any fun w => match w.msg with
    | .notice n => n.src = t && n.leaf = l
    | _ => false)

/-- A port's transmitter is idle and no frame is queued in its slots (R219). -/
def txIdle (s : State) (p : Nat) : Bool :=
  portUp s p && (port s p).tx.isNone && !(port s p).reserved && (port s p).slots.isEmpty &&
  (port s p).parked.isEmpty && (port s p).rq.isEmpty && (portNotes s p).isEmpty

/-- What the source knows of a destination's transmitter. -/
def seenIdle (s : State) (t p : Nat) : Bool :=
  if portTile p = t then txIdle s p else (tget s.fab.idle (t * 8 + portTile p)).testBit (p % 64)

/-- Words of an express frame on a link (R211). -/
def expWords (f : Frame) : Nat := ceilDiv (frameLen f) 16

/-- Express frames of a directed link. -/
def onLink (s : State) (t d : Nat) : List Frame := s.frames.filter fun f => f.tile = t && (f.phase = .express || f.phase = .launched) && f.dst = d

/-- The express reserve of a link has room (R220). -/
def reserveRoom (s : State) (t d : Nat) (f : Frame) : Bool :=
  t = d ||
    ((onLink s t d).foldl (fun n x => n + portRate s x.egress) (portRate s f.egress) ≤ 400 &&
     (onLink s t d).foldl (fun n x => n + expWords x) (expWords f) ≤ 768)

/-- Every condition of R19 but the reserve; a sag stops express transmission (R59). A frame that a slice injects has HOST_RATE as its
ingress rate; the manager's port 1,023 has no rate, so its frames go stored (DESIGN CHOICE, log 63). -/
def expressBut (s : State) (f : Frame) : Bool :=
  s.pwr.sagStep = 0 && f.mcg.isNone && f.port < 528 && f.egress < 512 && portTile f.egress = f.dst && leafEmpty s f.tile f.leaf && seenIdle s f.tile f.egress &&
  portRate s f.egress ≤ portRate s f.port && 0 < portRate s f.egress &&
  openFor s f.egress f.cls (ceilDiv (10240 * 8) (portRate s f.egress)) && !f.strict

/-! ## Stripes (R214, R215, R218, R240) -/

def stripeKey (t leaf : Nat) : Nat := t * 1048576 + leaf

/-- Exclusive or of cells, each padded to 256 B (R218). -/
def xorCells (l : List (List Byte)) : List Byte :=
  l.foldl (fun a c => xorBytes a ((c ++ List.replicate 256 0).take 256)) (List.replicate 256 0)

/-- A cell of a frame at a position. -/
def mkCell (f : Frame) (leaf pattern ssn pos : Nat) (pstripe : Bool) : Cell :=
  { fid := f.fid, src := f.tile, leaf := leaf, ssn := ssn, pos := pos, pattern := pattern, cls := f.cls, enq := f.enq, pstripe := pstripe }

/-- The first-cell extension (R218). -/
def withExt (f : Frame) (c : Cell) : Cell :=
  { c with
    first := true, ts := f.ts, port := f.egress, frameLen := frameLen f, colour := f.colour, oneStep := f.oneStep, tc := f.tc,
    mc := f.mcg.isSome, mcGroup := f.mcg.getD 0, carry := f.carry }

/-- The data of a frame's cells: the edited frame with its own FCS, as far as the source knows it (R195 recomputes it at egress). -/
def frameData (f : Frame) : List (List Byte) := cutCells (cellsOf (frameLen f)) (f.edited ++ fcsOf f.edited)

/-- The cells of a frame dealt from (ssn, pos) on, in position order. -/
def plainCells (f : Frame) (leaf pattern ssn pos : Nat) : List Cell :=
  (frameData f).zipIdx.map fun x =>
    let c := { mkCell f leaf pattern ((ssn + (pos + x.2) / patLen pattern) % 65536) ((pos + x.2) % patLen pattern) false with
      data := x.1, last := x.2 + 1 = cellsOf (frameLen f) }
    sealed (if x.2 = 0 then withExt f c else c)

/-- The parity cell of a stripe: the exclusive or of its data cells' data, FIRST, LAST, BYTES and extension, which only a frame's
first cell has (R218). -/
def parityCell (f : Frame) (leaf pattern ssn pos : Nat) (firstStripe lastStripe : Bool) (mine : List (List Byte)) : Cell :=
  let c := { mkCell f leaf pattern ssn pos true with
    parity := true, data := xorCells mine, bytesX := mine.foldl (fun x d => Nat.xor x (d.length - 1)) 0, last := lastStripe }
  sealed (if firstStripe then withExt f c else c)

/-- The cells of a parity-striped frame: whole stripes, placeholders in empty data positions, parity last (R218, R240). -/
def parityCells (f : Frame) (leaf pattern ssn : Nat) : List Cell :=
  let data := frameData f
  let per := patLen pattern - 1
  let stripes := ceilDiv data.length per
  (List.range stripes).flatMap fun j =>
    let mine := (data.drop (j * per)).take per
    let at_ (k : Nat) : Cell := mkCell f leaf pattern ((ssn + j) % 65536) k true
    ((List.range per).map fun k =>
      sealed (match mine[k]? with
        | some d =>
          let c := { at_ k with data := d, last := j * per + k + 1 = data.length }
          if j = 0 && k = 0 then withExt f c else c
        | none => { at_ k with holder := true })) ++
    [parityCell f leaf pattern ((ssn + j) % 65536) per (j = 0) (j + 1 = stripes) mine]

/-- Deals a frame to one destination leaf: positions, cells and the NOTICE (R214, R219, R222). -/
def dealTo (f : Frame) (dst leaf : Nat) (s : State) : Deal × State :=
  let t := f.tile
  let pat := patternAt s t
  let st := tget s.fab.stripes (stripeKey t leaf)
  let par := parityClass s f.cls
  let cells := if par then parityCells f leaf pat st.ssn else plainCells f leaf pat st.ssn st.pos
  let stripes := ceilDiv (cellsOf (frameLen f)) (patLen pat - 1)
  let next : Stripe := if par then { ssn := (st.ssn + stripes) % 65536, pos := 0 }
    else { ssn := (st.ssn + (st.pos + cells.length) / patLen pat) % 65536, pos := (st.pos + cells.length) % patLen pat }
  let n : Notice := {
    fid := f.fid, src := t, leaf := leaf, ssn := st.ssn, pos := if par then 0 else st.pos,
    cells := if par then cellsOf (frameLen f) + stripes else cells.length, pattern := pat, enq := f.enq, pstripe := par }
  let s := { s with fab := { s.fab with stripes := tput s.fab.stripes (stripeKey t leaf) next } }
  ({ dst := dst, leaf := leaf, cells := cells }, send t dst (.notice n) s)

/-- Open stripes of a tile close: the next cell of each leaf opens a new stripe (R230, R233, R235). -/
def closeStripes (t : Nat) (s : State) : State :=
  { s with fab := { s.fab with stripes := tmap (fun k (x : Stripe) =>
      if k / 1048576 = t && x.pos ≠ 0 then { ssn := (x.ssn + 1) % 65536, pos := 0 } else x) s.fab.stripes } }

/-! ## Admission (R245) -/

/-- The slice that a frame's cells are charged to (R241). -/
def frameSlice (s : State) (f : Frame) : Nat :=
  match f.mcg with
  | some g => ownedBy s 65536 g
  | none => leafSlice s f.leaf

/-- Destinations of a frame: tile and leaf. A multicast frame goes to its group's tiles that are not fenced (R206). -/
def frameDests (s : State) (f : Frame) : List (Nat × Nat) :=
  match f.mcg with
  | some g =>
    (((tget s.act.mcast g).destTiles).filter (tileRunning s)).map fun d => (d, replLeaf s d (ownedBy s 65536 g) f.cls)
  | none => [(f.dst, f.leaf)]

/-- The charge of a frame at every tile (R245). -/
def admitCharge (s : State) (f : Frame) : Nat :=
  let p := patLen (patternAt s f.tile)
  let c := cellsOf (frameLen f)
  (if parityClass s f.cls then ceilDiv c (p - 1) else ceilDiv c p) * (frameDests s f).length

/-- Deals a frame that is admitted to the store: every destination is dealt its cells and its NOTICE is sent. -/
def dealFrame (f : Frame) (s : State) : State :=
  let (ds, s) := (frameDests s f).foldl (fun (a : List Deal × State) d =>
    let x := dealTo f d.1 d.2 a.2
    (a.1 ++ [x.1], x.2)) ([], s)
  setFrame f.fid (fun _ => { f with phase := .stored, deals := ds }) s

/-- An earlier frame of the tile waits for a leaf of a frame, so that it cannot be dealt yet (R20; log 108). -/
def behind (s : State) (f : Frame) : Bool :=
  (s.frames.takeWhile fun g => g.fid ≠ f.fid).any fun g =>
    g.tile = f.tile && waitsAt5 g && (frameDests s g).any fun d => (frameDests s f).any fun e => e.2 = d.2

/-- Admits a frame to the store. -/
def admitFrame (f : Frame) (s : State) : State :=
  if behind s f then setFrame f.fid (fun _ => { f with phase := .admitted }) s else dealFrame f s

/-- Admitted frames of a tile that wait for none any more are dealt, in order. -/
def dealAdmitted (t : Nat) (s : State) : State :=
  forEach (s.frames.filter fun f => f.tile = t && f.phase = .admitted) (fun f s => if behind s f then s else dealFrame f s) s

/-- The leaf of a class with the largest holding of a slice at a tile, ties to the lower leaf; `none` for an empty class (R247). -/
def trackedLeaf (s : State) (t sl c : Nat) : Option Nat :=
  let ls := ((s.fab.held.filter fun h => h.tile = t && h.slice = sl && h.cell.cls = c).map (·.cell.leaf)).eraseDups
  let n (l : Nat) : Nat := (leafHeld s t l).length
  ls.foldl (fun b l => match b with
    | some m => if n m < n l || (n m = n l && l < m) then some l else b
    | none => some l) none

/-- The victim leaf, with its class, of the lowest non-empty class from one class on, below another (R247). -/
def nextVictim (s : State) (t sl lo k : Nat) : Option (Nat × Nat) :=
  ((List.range k).drop lo).findSome? fun c => (trackedLeaf s t sl c).map fun l => (l, c)

/-- Sends an EVICT_REQ for a leaf; a fenced tile's fence answers with EVICT_NACK (R231, R248). -/
def evictReq (f : Frame) (l : Nat) (s : State) : State :=
  let s := tileCnt f.tile (16 + 1) 1 s
  if tileRunning s (leafTile l) then send f.tile (leafTile l) (.evictReq l f.cls) s
  else tileCnt f.tile 11 1 (send f.tile f.tile (.evictNack l) s)

/-- A push-out attempt with the lowest non-empty class from `lo` on, or the drop of R247 step 6. -/
def pushOut (f : Frame) (attempts lo : Nat) (s : State) : State :=
  match if attempts < 4 then nextVictim s f.tile (frameSlice s f) lo f.cls else none with
  | none => dealAdmitted f.tile (discard f.tile (16 + 3) f.leaf none (gone f s))
  | some (l, c) => evictReq f l (setFrame f.fid (fun _ => { f with phase := .pushout (attempts + 1) l c }) s)

/-- The test of R245 for a stored frame. -/
def admission (f : Frame) (s : State) : State :=
  let sl := frameSlice s f
  if sliceOcc s f.tile sl + admitCharge s f ≤ rfld s .bufSliceLimit f.tile 0 26 0 then admitFrame f s
  else if 0 < f.cls then pushOut f 0 0 (setFrame f.fid (fun _ => f) s)
  else discard f.tile 16 f.leaf (some 0) (gone f s)

/-! ## 802.1CB generation (R299) -/

/-- Offset after the source MAC and every VLAN tag. -/
def afterTags (bs : List Byte) : Nat → Nat → Nat
  | 0, o => o
  | n + 1, o => if beAt bs o 2 = 0x8100 || beAt bs o 2 = 0x88A8 then afterTags bs n (o + 4) else o

/-- The generating stream that a frame is bound to. -/
def genStream (s : State) (f : Frame) : Option Nat :=
  (s.sch.streams.find? fun x =>
    x.2.cfg.kind = 1 && (match f.mcg with
      | some g => x.2.cfg.multicast && x.2.cfg.binding = g
      | none => !x.2.cfg.multicast && x.2.cfg.binding / 8 = f.leaf / 8)).map (·.1)

/-- Tags a frame bound to a generating stream; `grown` is what the frame's pushes added. -/
def generate (f : Frame) (grown : Nat) (s : State) : Frame × State :=
  match genStream s f with
  | none => (f, s)
  | some i =>
    if i / 8192 ≠ f.tile then (f, streamCnt i 5 s)
    else
      let st := tget s.sch.streams i
      let s := setStream i (fun x => { x with seq := (x.seq + 1) % 65536 }) s
      if 256 < grown + 6 || 10240 < frameLen f + 6 then (f, streamCnt i 4 s)
      else
        let o := afterTags f.edited 8 12
        ({ f with
           edited := insertAt f.edited o (beBytes 2 0xF1C1 ++ beBytes 2 0 ++ beBytes 2 st.seq),
           carry := { f.carry with ipOff := f.carry.ipOff.map fun x => if o ≤ x then x + 6 else x } }, s)

/-! ## Step 5 -/

/-- A handed-over buffer takes the tag of the frame's egress owner (R382). -/
def retagTx (fid tag : Nat) (s : State) : State :=
  forEach (s.hif.txBufs.filter fun x => x.1 = fid) (fun x => setBuf x.2 fun b => { b with tag := tag }) s

/-- Chooses a stored or express route for a frame with its destination (R19, R22, R231). -/
def route (f : Frame) (s : State) : State :=
  if f.mcg.isNone && !tileRunning s f.dst then
    ownerCnt (leafSlice s f.leaf) 4 1 (tileCnt f.tile 7 (cellsOf (frameLen f)) (gone f s))
  else if expressBut s f then
    if reserveRoom s f.tile f.dst f then
      setPort f.egress (fun q => { q with reserved := true })
        (setLeaf f.leaf (fun l => { l with express := true }) (setFrame f.fid (fun _ => { f with phase := .express }) s))
    else admission f (leafDrop f.leaf 6 s)
  else admission f s

/-- A unicast frame reaches step 5 with a leaf: an unattached or replication leaf discards it (R280). -/
def toLeaf (f : Frame) (grown : Nat) (s : State) : State :=
  if (leafPort s f.leaf).isNone || isReplLeaf s f.leaf then discard f.tile 32 f.leaf (some 4) (gone f s)
  else
    let (f, s) := generate f grown s
    route f (retagTx f.fid f.egress s)

/-- Member ports of an omitted tile count MC_DROP_FENCED at the source (R206). -/
def memberPort (s : State) (m : Member) : Nat := nhDest (nextHop s m.nh)

def countOmitted (t g : Nat) (s : State) : State :=
  let mg := tget s.act.mcast g
  let out := mg.destTiles.filter fun d => !tileRunning s d
  forEach (mg.members.filter fun m => out.contains (portTile (memberPort s m))) (fun m s => mcCnt t (memberPort s m) 4 s) s

/-- A multicast frame reaches step 5. -/
def toGroup (f : Frame) (g grown : Nat) (s : State) : State :=
  let s := countOmitted f.tile g s
  let f := { f with mcg := some g, leaf := replLeaf s f.tile (ownedBy s 65536 g) f.cls }
  if (frameDests s f).isEmpty then mcCnt f.tile 1023 5 (gone f s)
  else
    let (f, s) := generate f grown s
    admission f (retagTx f.fid 4096 s)

/-- The frames of a tile stand in the order of their step 5. -/
def toEnd (f : Frame) (s : State) : State := { s with frames := (s.frames.filter fun g => g.fid ≠ f.fid) ++ [f] }

/-- The destination chosen for a frame takes effect (R200). `grown`: what its pushes added. -/
def step5 (f : Frame) (d : Dest) (cls grown : Nat) (s : State) : State :=
  let f := { f with enq := s.tim.frc % 4294967296, cls := cls, carry := { f.carry with frcEnq := s.tim.frc } }
  let s := toEnd f s
  if d.kind = 2 then toGroup f d.mcg grown s
  else
    match d.base with
    | none => tileCnt f.tile 32 1 (gone f s)
    | some b =>
      let leaf := b / 8 * 8 + cls
      toLeaf { f with leaf := leaf, dst := leafTile leaf, egress := d.prt } grown s

/-- A mirror copy (R208): the edited frame, cut to the session's length, by the session's next hop on the stored route. It is
tested after its frame (R245). -/
def mirrorCopy (f : Frame) (sess cls : Nat) (hv : List Hd) (bytes : List Byte) (s : State) : State :=
  let m := tget s.act.mirrors sess
  let n := nextHop s m.nh
  if !nhValid n || (nhKind n ≠ 1 && nhKind n ≠ 5) then s
  else
    let base := if nhKind n = 5 then leafBase s (nhDest n) else some (nhTarget n)
    match base with
    | none => tileCnt f.tile 32 1 s
    | some b =>
      let leaf := b / 8 * 8 + cls
      let c : Frame := { f with
        fid := f.fid + 4294967296, edited := (applyNext s n (nhDest n) (ipOffset s hv) bytes).take (m.len - 4), cls := cls, leaf := leaf,
        dst := leafTile leaf, egress := nhDest n, enq := s.tim.frc % 4294967296, landing := 0, phase := .arrived, deals := [], mcg := none,
        carry := { f.carry with
          md := destMeta { kind := if nhKind n = 5 then 3 else 1, prt := nhDest n, base := some b, cls := some cls } f.carry.md,
          ptp := if m.len - 4 < bytes.length then none else f.carry.ptp, frcEnq := s.tim.frc } }
      if (leafPort s leaf).isNone || isReplLeaf s leaf then discard f.tile 32 leaf (some 4) s
      else if !tileRunning s c.dst then tileCnt f.tile 7 (cellsOf (frameLen c)) s
      else admission c (toEnd c s)

end Sys2Proof.Machine
end

