-- ==== Sys2Proof/Machine/Ingress.lean ====
section
/-! DEFINITION. Frames at the ingress MAC and in the pipeline: arrival, MACsec, parsing, lookups, learning, actions, the tail
(R18, R96, R100, R128, R131 to R134, R144, R151, R155 to R161, R169, R188 to R191, R237). -/
namespace Sys2Proof.Machine

/-! ## Learning (R155 to R161) -/

/-- Learn-filter entries an owner may hold (R145, R159). -/
def learnShare (s : State) (owner : Nat) : Nat := if owner = mgr then 512 else 7680 / nSlices s

/-- The words of a learn notice (R161). -/
def learnWords (l : Learn) : List Word :=
  let two := 2 ≤ l.seen && l.portB ≠ 0x3FF
  [pack [(30, 29, l.kind), (28, 28, two.toNat), (27, 24, l.table), (23, 20, l.slice), (19, 16, l.seen), (2, 0, l.tile)],
   pack [(9, 0, l.portA), (25, 16, if two then l.portB else 0x3FF), (26, 26, l.stored.isSome.toNat)]]
  ++ timeWords l.tsA ++ (if two then timeWords l.tsB else [0, 0, 0])
  ++ (List.range 4).map (fun i => word (l.key.toNat / 2 ^ (32 * i))) ++ [l.stored.getD 0]

def sameLearn (tile table slice : Nat) (key : BitVec 128) (l : Learn) : Bool :=
  l.tile = tile && l.table = table && l.slice = slice && l.key = key

def setLearn (l : List Learn) (s : State) : State := { s with exm := { s.exm with learn := l } }

/-- Posts an entry's notice, or loses it and releases the entry (R158, R160). -/
def postLearn (l : Learn) (s : State) : State :=
  let same := sameLearn l.tile l.table l.slice l.key
  let lost := ownerCnt l.owner 8 1 (exmCnt l.tile l.table 3
    (rset .exmLearnStat l.tile 0 l.owner l.owner 1 (setLearn (s.exm.learn.filter fun x => !same x) s)))
  match kindRing s l.owner 3 with
  | none => lost
  | some r =>
    if ringFull (ringSt s l.owner r) then lost
    else
      pushEntry l.owner r (learnWords l) (ownerCnt l.owner 7 1 (exmCnt l.tile l.table 2
        (setLearn (s.exm.learn.map fun x => if same x then { x with posted := true } else x) s)))

/-- Notes a frame's port and stamp in a PENDING entry (R158). -/
def seePort (p : Nat) (ts : Time80) (l : Learn) : Learn :=
  let ports := if l.ports.contains p then l.ports else p :: l.ports
  let l := { l with ports := ports, seen := min 15 ports.length }
  let before (a b : Time80) : Bool := a.toNs < b.toNs
  if p = l.portA then { l with tsA := if before ts l.tsA then ts else l.tsA }
  else if before ts l.tsA then { l with portA := p, tsA := ts, portB := l.portA, tsB := l.tsA }
  else if p = l.portB then { l with tsB := if before ts l.tsB then ts else l.tsB }
  else if l.portB = 0x3FF || before ts l.tsB then { l with portB := p, tsB := ts }
  else l

/-- A trigger for a key (R155 to R159). The oldest POSTED entry is the one created first (DESIGN CHOICE, log 107). -/
def learnTrigger (tile table slice owner : Nat) (key : BitVec 128) (kind p : Nat) (ts : Time80) (stored : Option Word) (s : State) : State :=
  let same := sameLearn tile table slice key
  match s.exm.learn.find? same with
  | some _ =>
    setLearn (s.exm.learn.map fun l =>
      if same l && !l.posted then
        let l := seePort p ts l
        if ts.toNs < l.firstTs.toNs then { l with kind := kind, stored := stored, firstTs := ts } else l
      else l) s
  | none =>
    let mine := s.exm.learn.filter fun l => l.tile = tile && l.owner = owner
    let room : Bool := mine.length < learnShare s owner
    match room, mine.find? (·.posted) with
    | false, none => exmCnt tile table 4 s
    | _, old =>
      let kept := match room, old with
        | false, some o => s.exm.learn.filter fun l => !sameLearn o.tile o.table o.slice o.key l
        | _, _ => s.exm.learn
      let l : Learn := {
        tile := tile, table := table, slice := slice, key := key, owner := owner, kind := kind, firstTs := ts, portA := p, tsA := ts,
        ports := [p], stored := stored }
      let s := setLearn (kept ++ [l]) s
      if rfld s .exmLearn tile 0 15 0 = 0 then postLearn l s else s

/-- RACE_WINDOW_CLOSE (R158). -/
def execRaceWindowClose (tile table slice : Nat) (key : BitVec 128) (s : State) : Res :=
  .next <| match s.exm.learn.find? fun l => sameLearn tile table slice key l && !l.posted with
    | some l => postLearn l s
    | none => s

/-- FILTER_HOLD_EXPIRY (R157). -/
def execFilterHoldExpiry (tile table slice : Nat) (key : BitVec 128) (s : State) : Res :=
  .next (setLearn (s.exm.learn.filter fun l => !(sameLearn tile table slice key l && l.posted)) s)

/-! ## Arrival (R18 steps 1 to 3, R92, R96, R97, R100, R237) -/

/-- The receive association that a SecTAG names. -/
def rxSa (s : State) (p : Nat) (sci : BitVec 64) (an : Nat) : Option (Nat × Sa) :=
  (List.range 8).findSome? fun ch =>
    match tget s.chans (saKey p 1 ch 0), tget s.sas (saKey p 1 ch an) with
    | some x, some a => if x.sci = sci then some (saKey p 1 ch an, a) else none
    | _, _ => none

/-- What MACsec makes of a frame on a port: the counter of the drop, or the association it came under (R100). -/
def macsecCheck (s : State) (p : Nat) (f : RxFrame) : Except Nat (Option Nat) :=
  if macsecMode s p = 0 then .ok none
  else
    match if f.badTag then none else f.secTag with
    | none => if f.badTag then .error 53 else if beAt f.bytes 12 2 = 0x888E then .ok none else .error 52
    | some (sci, an, pn) =>
      match rxSa s p sci an with
      | none => .error 50
      | some (k, a) => if pn + ((tget s.chans (k / 4 * 4)).getD {}).window < a.pn then .error 51 else .ok (some k)

/-- The lowest acceptable PN of an association rises with a frame received under it. -/
def bumpRx (k pn : Nat) (s : State) : State :=
  { s with sas := tupd s.sas k fun a => a.map fun a => { a with pn := max a.pn (pn + 1) } }

/-- A frame as the MAC records it. -/
def newFrame (s : State) (fid p : Nat) (f : RxFrame) (sa : Option Nat) : Frame :=
  { fid := fid, port := p, tile := portTile p, pipe := p / 8, bytes := f.bytes, fcsGood := f.fcsGood, codeErr := f.codeErr, icvGood := f.icvGood,
    secured := sa.isSome, strict := macsecMode s p = 2, ts := s.tim.now, landing := 1, carry := { frcIn := s.tim.frc } }

/-- A fabric-role port in QUARANTINE (R309). -/
def quarantined (s : State) (p : Nat) : Bool := isFabric s p && (tget s.cfb.adj p).state = 4

/-- A frame that is dropped as it arrives: only its tail is still counted. -/
def arrivesDropped (i : Nat) (fr : Frame) (s : State) : State :=
  portCnt fr.port i 1 { s with frames := s.frames ++ [{ fr with phase := .dropped, landing := 0 }] }

/-- A MAC control frame (R92). -/
def macControl (f : RxFrame) : Bool := beAt f.bytes 12 2 = 0x8808

/-- A frame reaches a port that is up. -/
def arrive (fid p : Nat) (f : RxFrame) (s : State) : State :=
  let s := wakePipe (p / 8) s
  let sa := macsecCheck s p f
  if macControl f && f.secTag.isNone then arrivesDropped 8 (newFrame s fid p f none) s
  else match sa with
    | .error i => arrivesDropped i (newFrame s fid p f none) s
    | .ok sa =>
      let fr := newFrame s fid p f sa
      let s := match sa, f.secTag with
        | some k, some (_, _, pn) => if f.icvGood then bumpRx k pn s else s
        | _, _ => s
      if macControl f then arrivesDropped 8 fr s
      else if 2048 ≤ landingUsed s (p / 8) then arrivesDropped 10 fr s
      else { s with frames := s.frames ++ [fr] }

/-- FRAME_ARRIVAL. A frame that CFB takes is a row of its own and meets no parser (R307); a quarantined port discards every other
(R309). -/
def execFrameArrival (fid p : Nat) (f : RxFrame) (s : State) : Res :=
  .next <|
    if p < 512 && cfbTakes s p f.bytes then s
    else if p < 512 && quarantined s p && (port s p).aligned then fabCnt p 7 s
    else iff_ (p < 512 && portUp s p && (frame? s fid).isNone && fid < 4294967296) (arrive fid p f) s

/-! ## The tail (R96, R128) -/

/-- Counters of a frame's destination address: unicast, multicast, broadcast from an index. -/
def castIdx (base : Nat) (bs : List Byte) : Nat :=
  if beAt bs 0 6 = 281474976710655 then base + 2 else if byteAt bs 0 % 2 = 1 then base + 1 else base

/-- What the MAC finds wrong with a frame at its tail, as the port counter it raises (R96; a code error: log 98). -/
def tailFault (f : Frame) : Option Nat :=
  if f.bytes.length < 64 then some 6
  else if 10240 < f.bytes.length then some 7
  else if f.codeErr then some 9
  else if !f.fcsGood then some 5
  else if !f.icvGood then some 49
  else none

/-- The parser took FCS octets for header bytes (R128). -/
def shortTail (f : Frame) : Bool := f.bytes.length - 4 < f.parseEnd

/-- Leaves that hold a frame. -/
def frameLeaves (s : State) (fid : Nat) : List Nat := (s.fab.notices.filter fun n => n.fid = fid).map (·.leaf)

/-- The schedulers of leaves select: one of each leaf's frames may have become the next (R285). -/
def selectLeaves (l : List Nat) : State → State :=
  forEach l fun l s => if isReplLeaf s l then selectRepl (leafTile l) s else selectLeaf l s

/-- Removes every trace of a stored frame that was bad at its tail, before any of its cells is pulled (R96). -/
def purge (fid : Nat) (s : State) : State :=
  let mine (c : Cell) : Bool := c.fid = fid
  let ns := s.fab.notices.filter fun n => n.fid = fid
  let tile := (frame? s fid).map (·.tile)
  let s := forEach ns (fun n => depthSub n.leaf n.cells) s
  (tile.elim id dealAdmitted) { s with
    frames := s.frames.filter (fun f => f.fid ≠ fid),
    fab := { s.fab with
      notices := s.fab.notices.filter (fun n => n.fid ≠ fid), held := s.fab.held.filter (fun h => !mine h.cell),
      wires := s.fab.wires.filter fun w => match w.msg with
        | .spread c => !mine c
        | .notice n => n.fid ≠ fid
        | _ => true } }

/-- A good tail releases the holds that waited for it: pulls of a stored frame, the end of an express frame (R96, R221). -/
def tailGood (f : Frame) (s : State) : State :=
  let mark (sl : Slot) : Slot := if sl.fid = f.fid then { sl with ready := true } else sl
  match f.phase with
  | .launched =>
    let s := { s with fab := { s.fab with wires := s.fab.wires.map fun w => match w.msg with
        | .express sl p n => { w with msg := .express (mark sl) p n }
        | _ => w } }
    let s := setPort f.egress (fun q =>
      { q with tx := q.tx.map mark, slots := tmap (fun _ x => x.map mark) q.slots, parked := q.parked.map mark }) s
    if expressFlies s f.fid then setFrame f.fid (fun g => { g with tailSeen := true }) s
    else { s with frames := s.frames.filter fun g => g.fid ≠ f.fid }
  | .stored =>
    let s := setFrame f.fid (fun g => { g with tailSeen := true }) s
    let s := if f.deals.isEmpty then { s with frames := s.frames.filter fun g => g.fid ≠ f.fid } else s
    selectLeaves (frameLeaves s f.fid) s
  | .dropped => { s with frames := s.frames.filter fun g => g.fid ≠ f.fid }
  | _ => setFrame f.fid (fun g => { g with tailSeen := true }) s

/-- What a bad tail does to a frame, by where it stands. -/
def tailBad (f : Frame) (s : State) : State :=
  match f.phase with
  | .express => expressBad f s
  | .launched => expressBad f s
  | _ => selectLeaves (frameLeaves s f.fid) (purge f.fid s)

/-- The tail of a frame and of its mirror copy, which shares it. -/
def forTail (fid : Nat) (g : Frame → State → State) (s : State) : State :=
  let one (i : Nat) (s : State) : State := match frame? s i with
    | some f => g f s
    | none => s
  one (fid + 4294967296) (one fid s)

/-- Counters that every received frame advances at its tail. -/
def rxCount (f : Frame) (s : State) : State :=
  let o := portReq s f.port
  ownerCnt o 1 f.bytes.length (ownerCnt o 0 1 (portCnt f.port 1 f.bytes.length (portCnt f.port 0 1 s)))

/-- Landing cells that a frame needs when its last data arrives (R237): all of them before it begins to leave, the cells still to be
dealt of a stored frame, one for data of an express frame that passes on to its link. -/
def landingNeed (f : Frame) : Nat :=
  match f.phase with
  | .dropped => 0
  | .launched => if f.present < f.bytes.length then 1 else 0
  | .stored => min (cellsOf f.bytes.length) ((f.deals.map fun d => d.cells.length).foldl max 0)
  | _ => cellsOf f.bytes.length

/-- Landing cells that it keeps: an express frame on its way passes its last data on. -/
def landingKept (f : Frame) : Nat := if f.phase = .launched then 0 else landingNeed f

/-- The landing buffer of a frame's pipeline has no room for a number of its cells. -/
def overflows (s : State) (f : Frame) (need : Nat) : Bool := f.landing < need && 2048 < landingUsed s f.pipe - f.landing + need

/-- The tail of a frame: the MAC's finding, the parser's, then the landing buffer. -/
def tailOf (f : Frame) (s : State) : State :=
  let s := iff_ (shortTail f) (pipeCnt f.pipe 10 1) (rxCount f s)
  match tailFault f with
  | some i => forTail f.fid tailBad (portCnt f.port i 1 s)
  | none =>
    if shortTail f then forTail f.fid tailBad s
    else if overflows s f (landingNeed f) then forTail f.fid tailBad (portCnt f.port 10 1 s)
    else
      let s := portCnt f.port (castIdx 2 f.bytes) 1 s
      let s := iff_ f.secured (portCnt f.port 48 1) s
      forTail f.fid tailGood (setFrame f.fid (fun g => { g with landing := landingKept g }) s)

/-- FRAME_TAIL. -/
def execFrameTail (fid : Nat) (s : State) : Res :=
  .next <| match frame? s fid with
    | none => s
    | some f => iff_ (!f.tailSeen) (tailOf f) s

/-! ## Lookups (R143, R144, R151, R165, R169, R177) -/

/-- The working headers of a parsed frame. -/
def hdsOf (b : HashBind) (bs : List Byte) (r : Parsed) : List Hd :=
  sumHds b bs ((r.hv.zip r.tuns).map fun x => { id := fld x.1 31 24, off := fld x.1 8 0, len := fld x.1 21 12, tun := x.2 })

/-- A key built from its parts, first part most significant; `none` where a header is lacking (R134; log 12). -/
def buildKey (hv : List Hd) (bs : List Byte) (md : BitVec 256) : List KeyPart → Option (Nat × Nat)
  | [] => some (0, 0)
  | part :: rest => do
    let (v, w) ← buildKey hv bs md rest
    match part with
    | .hdr hsel off width =>
      let (_, h) ← selHd hv hsel
      let x ← bitsAt bs bs.length (h.off * 8 + off) width
      pure (v + x * 2 ^ w, w + width)
    | .md lo width => pure (v + (md.toNat >>> lo) % 2 ^ width * 2 ^ w, w + width)

/-- Visible tables and roots for a frame: SHARED, or owned (R143, R165). -/
def frameOwned (md : BitVec 256) : Bool := mdGet md 94 94 = 1
def frameOf (md : BitVec 256) : Nat := mdGet md 93 90

/-- Writes LAST_HIT in the frame's own tile (R151). -/
def stampHit (t k : Nat) (s : State) : State :=
  { s with exm := { s.exm with entries := tupd s.exm.entries k fun e =>
      if e.valid then { e with lastHit := (e.lastHit ++ List.replicate (8 - e.lastHit.length) 0).set t (exmTick s (exmProf s e.table)) } else e } }

/-- A PENDING filter entry notes a source hit on the port its table entry holds (R158). -/
def noteHeld (tile table slice : Nat) (key : BitVec 128) (p : Nat) (ts : Time80) (s : State) : State :=
  setLearn (s.exm.learn.map fun l => if sameLearn tile table slice key l && !l.posted then seePort p ts l else l) s

/-- A hit's LAST_HIT write, at once or on its way (R153). -/
def noteHit (t k tick : Nat) (late : Bool) (s : State) : State :=
  if late then { s with exm := { s.exm with late := s.exm.late ++ [(t, k, tick)] } } else stampHit t k s

/-- One exact-match lookup of a frame (R143, R144, R151, R155): the register it yields and the state after it. `ue`: words of
the tile's store found uncorrectable now (R142); `late`: its LAST_HIT write arrives later; `gap`: it falls in the restore window
of an aging delete and misses (R153). -/
def exmLookup (f : Frame) (hv : List Hd) (md : BitVec 256) (l : ExmLookup) (ue : List Nat) (late gap : Bool) (s : State) :
    Option RegV × State :=
  let t := f.tile
  let p := exmProf s l.table
  let slice := frameOf md
  if !p.en then (none, s)
  else
    match buildKey hv f.bytes md l.key with
    | none => (none, exmCnt t l.table 1 s)
    | some (k, _) =>
      if !p.shared && !frameOwned md then (none, exmCnt t l.table 1 s)
      else
        let key := BitVec.ofNat 128 k
        let owner := portReq s f.port
        let s := exmErrors t ue (landHits s)
        match (exmFind s l.table slice key (exmBad s t)).filter fun x => !gap || x.2.static || x.2.ageExempt with
        | none =>
          let s := exmCnt t l.table 1 s
          (none, if l.source && learnOn p then learnTrigger t l.table slice owner key 0 f.port f.ts none s else s)
        | some (i, e) =>
          let s := exmCnt t l.table 0 s
          let isPort := !bit e.result 31
          let prt := fld e.result 17 0
          let away := l.source && isPort && prt ≠ f.port
          let s := iff_ (!away) (noteHit t i (exmTick s p) late) s
          let s := if away && learnOn p then
              learnTrigger t l.table slice owner key (if e.static then 2 else 1) f.port f.ts (some e.result) s
            else if l.source && isPort && learnOn p then noteHeld t l.table slice key f.port f.ts s else s
          (some (if isPort then .prt prt else .nh prt), s)

/-- One trie lookup of a frame (R165, R169, R174). `ue`: words found uncorrectable now. -/
def lpmLookup (f : Frame) (hv : List Hd) (md : BitVec 256) (l : LpmLookup) (ue : List (Nat × Nat)) (s : State) :
    Option RegV × State :=
  let t := f.tile
  let c := rootCfg s l.root
  if !c.en then (none, s)
  else
    let s := lpmCnt t 0 s
    let miss : Option RegV × State := (none, lpmCnt t 1 s)
    match buildKey hv f.bytes md l.addr with
    | none => miss
    | some (a, _) =>
      if !c.shared && !(frameOwned md && frameOf md = c.slice) then miss
      else
        match lookTrie t l.root (a % 2 ^ rootWidth s l.root) ue s with
        | (some x, s) => (some (.nh x.1), s)
        | (none, s) => (none, lpmCnt t 1 s)

/-- The rule tables of a pipeline searched for a frame: the state with its counters, and each table's action (R176 to R181). -/
def searchTables (f : Frame) (hv : List Hd) (md : BitVec 256) (err : List (Nat × Nat)) (s : State) : State × List Nat :=
  (List.range 4).foldl (fun (a : State × List Nat) k =>
    let rt := ruleTable a.1 f.pipe k
    if !rt.en then a
    else
      let key := buildKey hv f.bytes md rt.key
      let cands := tableCands a.1 f.pipe rt (frameOwned md && key.isSome) (frameOf md) err ((key.map (·.1)).getD 0)
      let cands := if key.isSome then cands else cands.filter fun c => c.fallback.isSome
      match bestCand cands with
      | none => (pipeCnt f.pipe (37 + 2 * k) 1 a.1, a.2 ++ [rt.missAct])
      | some c =>
        match c.fallback with
        | some g => (pipeCnt f.pipe (48 + g) 1 a.1, a.2 ++ [c.act])
        | none => (pipeCnt f.pipe (36 + 2 * k) 1 a.1, a.2 ++ [c.act])) (s, [])

/-! ## Step 4 and step 5 (R18, R131, R190, R208) -/

/-- The pipeline can take a frame's step 4 now. -/
def canParse (s : State) (f : Frame) (present : Nat) : Bool :=
  let w := profWord s f.tile (profileOf s f.port)
  f.phase = .arrived && pipeRunning s f.pipe && 64 ≤ f.bytes.length && present ≤ f.bytes.length &&
  min (parDepth w) f.bytes.length ≤ present && (!f.strict || f.tailSeen) && !s.ps.proof.contains f.pipe && !s.ps.chill.contains f.tile && s.ps.module ≤ 1

/-- Counters of a parse (R139). -/
def countParse (f : Frame) (r : Parsed) (s : State) : State :=
  let s := pipeCnt f.pipe 0 1 s
  let s := forEach ((List.range 5).filter fun e => r.exc.testBit e) (fun e => pipeCnt f.pipe (1 + e) 1) s
  iff_ r.ptp (pipeCnt f.pipe 11 1) s

/-- A frame that the parser's exception traps: the leaf of the trap class under the owner's host port (R131, R133). -/
def trapFrame (f : Frame) (cls : Nat) (md : BitVec 256) (s : State) : State :=
  match portOwner s f.port with
  | none => pipeCnt f.pipe 9 1 (gone f s)
  | some sl =>
    let d : Dest := { kind := 3, prt := 512 + sl, base := leafBase s (512 + sl), cls := some cls }
    let md := destMeta d (mdSet 210 208 cls md)
    step5 { f with edited := (f.bytes.take 10240).dropLast.dropLast.dropLast.dropLast, carry := { f.carry with md := md } } d cls 0
      (pipeCnt f.pipe 7 1 s)

/-- Lookups of a frame in the order EXM0, EXM1, LPM0, LPM1: registers, miss actions of those that missed, and the state. -/
def runLookups (f : Frame) (hv : List Hd) (md : BitVec 256) (x : Findings) (s : State) :
    List (Option RegV) × List (Nat × Nat) × State :=
  let tpl := tget (img s).exm.templates (profileOf s f.port)
  let es := (tpl.exm.take 2).zipIdx.foldl (fun (a : List (Option RegV) × List (Nat × Nat) × State) l =>
    let mine := (x.exmUe.filter fun u => u.1 = l.2).map (·.2)
    let y := exmLookup f hv md l.1 mine (x.exmLate.contains l.2) (x.exmGap.contains l.2) a.2.2
    let p := exmProf s l.1.table
    (a.1 ++ [y.1], if y.1.isNone && p.en then a.2.1 ++ [(p.missKind, p.missOper)] else a.2.1, y.2)) ([], [], s)
  let es := (es.1 ++ List.replicate (2 - es.1.length) none, es.2.1, es.2.2)
  (tpl.lpm.take 2).zipIdx.foldl (fun (a : List (Option RegV) × List (Nat × Nat) × State) l =>
    let y := lpmLookup f hv md l.1 ((x.lpmUe.filter fun u => u.1 = l.2).map (·.2)) a.2.2
    let c := rootCfg s l.1.root
    (a.1 ++ [y.1], if y.1.isNone && c.en then a.2.1 ++ [(c.missKind, c.missOper)] else a.2.1, y.2)) es


/-- Where an event message's PTP header starts, counted from the end so that edits before it do not move it, and the UDP header
that it follows (R117, R118; log 22). -/
def ptpPlace (s : State) (r : Parsed) (hv : List Hd) (body : List Byte) : Option (Nat × Nat) :=
  let b := (img s).action.bind
  let udp : Bool := (hv.getLast?).any fun h => b.udp ≠ 0 && h.id = b.udp
  let ip4 : Bool := (hv.dropLast.getLast?).any fun h => b.ip4 ≠ 0 && h.id = b.ip4
  if r.ptp then some (body.length - r.parseEnd, if !udp then 0 else if ip4 then 4 else 6) else none

/-- Lookups, tables, actions, mirror copy and step 5 of a frame that the parser forwards. -/
def forwardFrame (f : Frame) (r : Parsed) (md : BitVec 256) (x : Findings) (s : State) : State :=
  let hv := hdsOf (img s).action.bind f.bytes r
  let (regs, misses, s) := runLookups f hv md x s
  let (s, acts) := searchTables f hv md x.slabErr s
  let s := forEach x.slabErr (fun e => report (unitId 3 (f.pipe * 8 + e.1)) 0x0206 0 e.2) s
  let env : RunEnv := {
    g := f.pipe, f := f, regs := regs, claims := r.claims, depth := parDepth (profWord s f.tile (profileOf s f.port)) }
  let prog := tget (img s).action.profProg (profileOf s f.port)
  let body := (f.bytes.take 10240).dropLast.dropLast.dropLast.dropLast
  let o := runActions env misses prog acts { s := s, bytes := body, hv := hv, md := md }
  let d := o.dest.getD { kind := 0 }
  let f := { f with
    colour := mdGet o.md 212 211, oneStep := mdGet o.md 240 240 = 1, tc := mdGet o.md 241 241 = 1,
    edited := o.bytes, carry := { f.carry with md := o.md, ipOff := ipOffset o.s o.hv, ptp := ptpPlace o.s r o.hv body } }
  let s := if o.dropped then gone f o.s
    else step5 { f with carry := { f.carry with md := destMeta d o.md } } d (d.cls.getD (mdGet o.md 210 208)) o.grown o.s
  iff_ (mdGet o.md 239 239 = 1) (mirrorCopy f (mdGet o.md 247 242) (mdGet o.md 210 208) o.hv o.bytes) s

/-- HEADER_CELLS_PRESENT. At a graph parity error the fence comes first, so that the frame counts RX_DROP_LANDING too, and it does
not count PAR_FRAMES (DESIGN CHOICE, log 117). -/
def execHeaderCellsPresent (fid present : Nat) (x : Findings) (s : State) : Res :=
  .next <| match frame? s fid with
    | none => s
    | some f =>
      let present := if f.tailSeen then f.bytes.length else present
      if !canParse s f present then s
      else if overflows s f (cellsOf present) then gone f (portCnt f.port 10 1 s)
      else if x.graphErr then
        pipeCnt f.pipe 6 1 (gone f (report (unitId 2 f.pipe) 0x0204 0 0 (rset .parStat f.tile 0 (8 + f.pipe % 8) (8 + f.pipe % 8) 1 s)))
      else
        let prof := profileOf s f.port
        let r := parseFrame s f.tile prof present f.bytes
        let md := parsedMeta s f present r
        let w := profWord s f.tile prof
        let f := { f with parseEnd := r.parseEnd, present := present, landing := max f.landing (cellsOf present) }
        let s := countParse f r (setFrame fid (fun _ => f) s)
        match (actingExc r.exc).map (excAction w) with
        | some 1 => pipeCnt f.pipe 6 1 (gone f s)
        | some 2 => trapFrame f (fld w 21 19) md s
        | some 3 =>
          let body := f.bytes.dropLast.dropLast.dropLast.dropLast
          pipeCnt f.pipe 8 1 (gone f (capture f.pipe f.port 0 body md s))
        | _ => forwardFrame f r md x s

end Sys2Proof.Machine
end

