-- ==== Sys2Proof/Machine/Plait.lean ====
section
/-! DEFINITION. The plait: express frames on links, cells at their intermediates, NOTICEs, PULLs, returns, eviction, PORT_IDLE,
link failures, fences and the bank swap (R211 to R236, R239 to R242, R247, R248). -/
namespace Sys2Proof.Machine

/-! ## Links -/

/-- Takes the oldest message of a kind off the link from a tile to a tile. -/
def takeWire (src dst : Nat) (k : Msg → Bool) (s : State) : Option (Wire × State) :=
  let mine (w : Wire) : Bool := w.src = src && w.dst = dst && k w.msg
  match s.fab.wires.find? mine with
  | none => none
  | some w => some (w, { s with fab := { s.fab with wires := s.fab.wires.eraseP mine } })

/-! The kinds of message. -/

def isExpress (m : Msg) : Bool := match m with
  | .express _ _ _ => true
  | _ => false

def isSpread (m : Msg) : Bool := match m with
  | .spread _ => true
  | _ => false

def isNotice (m : Msg) : Bool := match m with
  | .notice _ => true
  | _ => false

def isPull (m : Msg) : Bool := match m with
  | .pull _ _ _ _ _ _ => true
  | _ => false

def isEvictReq (m : Msg) : Bool := match m with
  | .evictReq _ _ => true
  | _ => false

def isEvict (m : Msg) : Bool := match m with
  | .evict _ => true
  | _ => false

def isNack (m : Msg) : Bool := match m with
  | .evictNack _ => true
  | _ => false

def isPortIdle (m : Msg) : Bool := match m with
  | .portIdle _ => true
  | _ => false

def isReturn (m : Msg) : Bool := match m with
  | .ret _ => true
  | .null _ _ => true
  | _ => false

/-- Control messages, of which a link delivers one in a slot (R211). -/
def isControl (m : Msg) : Bool := !(isExpress m || isSpread m || isReturn m)

/-- A message or cell whose CRC fails is discarded and counted; the link keeps the instants of the last 1 ms (R219, R227). -/
def linkCrc (src dst : Nat) (s : State) : State :=
  let recent := (tget s.fab.crcFails (dst * 8 + src)).filter fun x => s.tim.frc < x + 1000000
  tileCnt dst 6 1 { s with fab := { s.fab with
    crcFails := if src = dst then s.fab.crcFails else tput s.fab.crcFails (dst * 8 + src) (recent ++ [s.tim.frc]) } }

/-- A message arrives whole: its bits were not disturbed, and its CRC is that of what it holds (R211, R219). -/
def crcGood (crcOk : Bool) (w : Wire) : Bool := crcOk && decide (w.crc = msgCrc w.msg)

/-- Receives the oldest message of a kind at a running tile: `f` acts on it, `bad` on one with a bad CRC. A tile out of service takes
nothing, and a control message waits for a slot. -/
def receiveOr (src dst : Nat) (crcOk : Bool) (k : Msg → Bool) (bad f : Msg → State → State) (s : State) : State :=
  match takeWire src dst k s with
  | none => s
  | some (w, s') =>
    if !tileRunning s dst then s'
    else if isControl w.msg && !ctlFree s src dst then s
    else
      let s' := iff_ (isControl w.msg) (ctlTaken src dst) s'
      if crcGood crcOk w then f w.msg s' else bad w.msg (linkCrc src dst s')

/-- Receives a message; one with a bad CRC only counts. -/
def receive (src dst : Nat) (crcOk : Bool) (k : Msg → Bool) (f : Msg → State → State) (s : State) : State :=
  receiveOr src dst crcOk k (fun _ s => s) f s

/-! ## Express frames (R220 to R222) -/

/-- The slot record of an express frame. -/
def expressSlot (f : Frame) : Slot :=
  { fid := f.fid, src := f.tile, leaf := f.leaf, len := frameLen f, enq := f.enq, ts := f.ts, ready := f.tailSeen, express := true,
    oneStep := f.oneStep, tc := f.tc, data := f.edited, carry := f.carry }

/-- Two slots have passed since a frame's step 5 (R222). -/
def twoSlotsOn (s : State) (f : Frame) : Bool := 2048 ≤ (s.tim.frc - f.carry.frcEnq) * 1000

/-- EXPRESS_LAUNCH: the first word leaves in an EXPRESS slot, or in the tile itself; the reserve of R220 carries the rest. -/
def execExpressLaunch (fid : Nat) (s : State) : Res :=
  .next <| match frame? s fid with
    | some f =>
      let w := min 16 (expWords f)
      if s.pwr.sagStep = 0 && f.phase = .express && tileRunning s f.tile && tileRunning s f.dst && twoSlotsOn s f &&
          canSend s f.tile f.dst kindExpress w then
        send f.tile f.dst (.express (expressSlot f) f.egress (expWords f))
          (setFrame fid (fun g => { g with phase := .launched, landing := 0 }) (useLink f.tile f.dst kindExpress w s))
      else s
    | none => s

/-- A frame that waits at a port is one of a leaf that R223 serves before an express frame. -/
def slotEarlier (y sl : Slot) : Bool :=
  y.leaf = sl.leaf && noticeBefore { src := y.src, enq := y.enq } { src := sl.src, enq := sl.enq }

/-- A frame of a leaf that R223 serves before an express frame waits at its destination. -/
def leafEarlier (s : State) (sl : Slot) (p : Nat) : Bool :=
  (s.fab.notices.any fun n => n.leaf = sl.leaf && noticeBefore n { src := sl.src, enq := sl.enq }) ||
  (s.fab.asms.any fun a => a.note.leaf = sl.leaf && noticeBefore a.note { src := sl.src, enq := sl.enq }) ||
  ((port s p).slots.any fun x => x.2.any fun y => slotEarlier y sl) || (port s p).parked.any fun y => slotEarlier y sl

/-- A frame's first bit leaves: DELAY, its egress stamp, and the association it goes under (R101, R117, R301). The first frame
forwarded ends start-up (R85). -/
def startTx (p : Nat) (sl : Slot) (s : State) : State :=
  let age := min 4294967295 (s.tim.frc - sl.carry.frcEnq)
  firstForwarded (setPort p (fun q => { q with tx := some { sl with outTs := s.tim.now, outFrc := s.tim.frc, txAn := q.txAn } })
    (setLeaf sl.leaf (fun l => { l with delay := age }) s))

/-- Parks an express frame in the pools of its destination, or drops it (R221, R251). -/
def parkExpress (p t : Nat) (sl : Slot) (s : State) : State :=
  match allocFor t sl.len .parked p s with
  | some (s, h) =>
    let s := writeMem (bufAddr h 0) sl.data s
    selectPort p (tileCnt t 13 1 (setPort p (fun q => { q with parked := q.parked ++ [{ sl with handle := h, parked := true }] }) s))
  | none => selectPort p (discard t 14 sl.leaf none (setLeaf sl.leaf (fun l => { l with express := false }) (frameGone sl.fid s)))

/-- The source keeps nothing of an express frame whose tail has left with it. -/
def endLaunched (fid : Nat) (s : State) : State :=
  { s with frames := s.frames.filter fun g => g.fid ≠ fid || !g.tailSeen }

/-- An earlier NOTICE is on its way to a tile: it arrives before an express frame does (R222). -/
def noticeComes (s : State) (dst : Nat) (sl : Slot) : Bool := s.fab.wires.any fun w => w.dst = dst && match w.msg with
  | .notice n => noticeBefore n { src := sl.src, enq := sl.enq }
  | _ => false

/-- An express frame's first word arrives (R221); one for a port that is down is dropped. -/
def arriveExpress (dst : Nat) (m : Msg) (s : State) : State :=
  match m with
  | .express sl p _ =>
    let s := setPort p (fun q => { q with reserved := false }) (endLaunched sl.fid s)
    if !portUp s p then
      dropLeaf sl.leaf 2 (16 + 7) (setLeaf sl.leaf (fun l => { l with express := false }) (frameGone sl.fid s))
    else if (port s p).tx.isNone && !leafEarlier s sl p then selectPort p (startTx p sl s)
    else parkExpress p dst sl s
  | _ => s

/-- A cell of an express frame has a bad CRC: the frame ends (log 116). -/
def badExpress (m : Msg) (s : State) : State :=
  match m with
  | .express sl _ _ => match frame? s sl.fid with
    | some f => expressLost f s
    | none => s
  | _ => s

/-- EXPRESS_ARRIVAL. -/
def execExpressArrival (src : LinkEnd) (dst : Nat) (s : State) : Res :=
  .next <|
    let early (w : Wire) : Bool := w.src = src.tile && w.dst = dst && match w.msg with
      | .express sl _ _ => noticeComes s dst sl
      | _ => false
    match s.fab.wires.find? fun w => w.src = src.tile && w.dst = dst && isExpress w.msg with
    | some w => if early w then s else receiveOr src.tile dst src.crcOk isExpress badExpress (arriveExpress dst) s
    | none => s

/-! ## Cells to their intermediates (R214, R229, R237, R239 to R242) -/

/-- A cell may leave: all but the end of a frame leave before the frame's tail has proved good. -/
def cellReady (f : Frame) (d : Deal) : Bool := !d.cells.isEmpty && (f.tailSeen || (d.cells.drop 1).any (·.last))

/-- The tile to which a deal's next cell goes. -/
def dealDest (d : Deal) : Option Nat := d.cells.head?.map fun c => patTile c.pattern c.src c.pos

/-- A class has a cell that may leave on a link. -/
def spreadWaits (s : State) (t dst c : Nat) : Bool :=
  s.frames.any fun f => f.tile = t && f.phase = .stored && f.cls = c && f.deals.any fun d => cellReady f d && dealDest d = some dst

/-- The link of a deal's next cell can take it in this slot (R212, R213); a cell for a tile that is out takes none. -/
def linkTakes (s : State) (f : Frame) (d : Deal) : Bool :=
  match d.cells with
  | c :: _ =>
    let dst := patTile c.pattern c.src c.pos
    !tileRunning s dst || (canSend s f.tile dst kindSpread (cellWords c) && tierAllows s f.tile dst (spreadWaits s f.tile dst) f.cls)
  | [] => false

/-- Landing cells that a frame's deals still need. -/
def landingLeft (l : List Deal) : Nat :=
  (l.map fun d => (d.cells.filter fun c => !c.holder && !c.parity).length).foldl max 0

/-- Deals the next cell of a frame's destination. -/
def spreadCell (f : Frame) (d : Deal) (c : Cell) (s : State) : State :=
  let dest := patTile c.pattern c.src c.pos
  let rest := f.deals.map fun x => if x = d then { x with cells := x.cells.drop 1 } else x
  let left := rest.all fun x => x.cells.isEmpty
  let s := { s with frames := (s.frames.map fun g =>
      if g.fid = f.fid then { g with deals := rest, landing := min f.landing (landingLeft rest) } else g).filter fun g =>
        g.fid ≠ f.fid || !left || !g.tailSeen }
  let s := iff_ c.holder (tileCnt f.tile (16 + 6) 1) s
  if !tileRunning s dest then tileCnt f.tile 7 1 s
  else iff_ (dest ≠ f.tile) (tileCnt f.tile 0 1) (send f.tile dest (.spread c) (useLink f.tile dest kindSpread (cellWords c) s))

/-- CELL_SPREAD. -/
def execCellSpread (fid : Nat) (s : State) : Res :=
  .next <| match frame? s fid with
    | some f =>
      if f.phase = .stored && tileRunning s f.tile then
        match f.deals.find? fun d => cellReady f d && linkTakes s f d with
        | some d => match d.cells with
          | c :: _ => spreadCell f d c s
          | [] => s
        | none => s
      else s
    | none => s

/-- A cell is one of a frame's: its source, leaf and position. -/
def inNote (n : Notice) (c : Cell) : Bool :=
  n.src = c.src && n.leaf = c.leaf && (framePositions n).contains (c.ssn, c.pos)

/-- Adds a held cell. -/
def addHeld (h : Held) (s : State) : State :=
  guardPeak h.tile h.slice { s with fab := { s.fab with held := s.fab.held ++ [h] } }

/-- A cell index of a tile at which the spill writer places a cell: not in use, and in a logical rank with storage (R262). -/
def dramFree (s : State) (t i : Nat) : Bool :=
  !rankGone s t i && s.fab.held.all fun h => h.tile ≠ t || h.place.idx ≠ some i

/-- No channel of a tile has storage in the logical rank of an index. -/
def lrankGone (s : State) (t i : Nat) : Bool := (List.range 8).all fun l => rankGone s t (i / 8 * 8 + l)

/-- The first free index from i on, round the tile's cells. -/
def nextIndex (s : State) (t : Nat) : Nat → Nat → Nat
  | 0, i => i % 67108864
  | n + 1, i =>
    let i := i % 67108864
    if lrankGone s t i then nextIndex s t n ((i / 8388608 + 1) * 8388608)
    else if dramFree s t i then i else nextIndex s t n (i + 1)

/-- The index that the spill writer uses next; each held cell and each lost rank can pass over eight indices at most. -/
def spillIndex (s : State) (t : Nat) : Nat := nextIndex s t (8 * s.fab.held.length + 32) (tget s.fab.dramNext t)

/-- A held cell lies on the die: in its SRAM share, or waiting there for the write buffer. -/
def onDie (h : Held) : Bool := match h.place with
  | .sram => true
  | .waiting _ => true
  | _ => false

/-- No SRAM cell of a tile is free (R239). -/
def sramGone (s : State) (t : Nat) : Bool := 65536 ≤ (s.fab.held.filter fun h => h.tile = t && onDie h).length

/-- A slice's DRAM share at a tile is full, or its write path is held with no SRAM cell free (R242, R266). -/
def dramShareFull (s : State) (t sl : Nat) : Bool :=
  tileCells s t / nSlices s ≤ (s.fab.held.filter fun h => h.tile = t && h.slice = sl && h.place ≠ .sram).length ||
  (writeHeld s t && sramGone s t)

/-- A slice's SRAM share at a tile is full. -/
def sramShareFull (s : State) (t sl : Nat) : Bool :=
  65536 / nSlices s ≤ (s.fab.held.filter fun h => h.tile = t && h.slice = sl && h.place = .sram).length || sramGone s t

/-- Places a cell at an intermediate (R239, R242, R266). -/
def placeCell (t : Nat) (c : Cell) (s : State) : State :=
  let sl := leafSlice s c.leaf
  let mine := leafHeld s t c.leaf
  let spill : Bool :=
    mine.any (fun h => h.place ≠ .sram) || max 1 (rfld s .bufSpill t 0 11 0) ≤ mine.length || sramShareFull s t sl
  if spill && !dramShareFull s t sl then
    let i := spillIndex s t
    pumpDram t (tileCnt t (16 + 5) 1 (addHeld { tile := t, cell := c, place := .waiting i, slice := sl }
      { s with fab := { s.fab with dramNext := tput s.fab.dramNext t ((i + 1) % 67108864) } }))
  else if sramShareFull s t sl then tileCnt t (16 + 4) 1 s
  else addHeld { tile := t, cell := c, place := .sram, slice := sl } s

/-- A SPREAD cell arrives; one of a leaf that a fence has flushed is dropped (R231). -/
def arriveCell (dst : Nat) (m : Msg) (s : State) : State :=
  match m with
  | .spread c =>
    if knowsFenced s dst (leafTile c.leaf) then countFlushed dst c.fid c.leaf s
    else if s.fab.filters.any (fun x => x.tile = dst && inNote x.note c) then tileCnt dst 12 1 s
    else placeCell dst c s
  | _ => s

/-- CELL_ARRIVAL. -/
def execCellArrival (src dst : Nat) (crcOk : Bool) (s : State) : Res :=
  .next (receive src dst crcOk isSpread (arriveCell dst) s)

/-- The oldest spill write of a tile in flight. -/
def oldestSpill (s : State) (t : Nat) : Option (Held × Nat) :=
  (s.fab.held.filter (·.tile = t)).findSome? fun h => match h.place with
    | .spilling i => some (h, i)
    | _ => none

/-- A spill write ends: the cell lies in DRAM, lost where its command failed twice (R269). One that is pulled waits to be read. -/
def spillWritten (t : Nat) (h : Held) (i : Nat) (lost : Bool) (s : State) : State :=
  let s := if lost then s else writeMem (dramAddr t i 0) ((h.cell.data ++ List.replicate 256 0).take 256) s
  { s with fab := { s.fab with
      held := s.fab.held.map (fun x => if x = h then { x with place := .dram i, poison := x.poison || lost } else x)
      reads := if h.pulled then s.fab.reads ++ [(t, i)] else s.fab.reads } }

/-- SPILL_WRITE_DONE: the oldest spill write of the tile completes (R265). -/
def execSpillWriteDone (w : SpillWrite) (s : State) : Res :=
  .next <| match oldestSpill s w.tile with
    | none => s
    | some (h, i) =>
      pumpDram w.tile (spillWritten w.tile h i (writeCell w.tile i true w.x s).1 (writeCell w.tile i true w.x s).2)

/-! ## NOTICE, PULL, RETURN (R219, R223 to R225) -/

/-- A NOTICE is recorded; one for a port that stays down after its hold is evicted at once (R258). -/
def arriveNotice (dst : Nat) (m : Msg) (s : State) : State :=
  match m with
  | .notice n =>
    let s := { s with fab := { s.fab with notices := s.fab.notices ++ [n] } }
    let s := setLeaf n.leaf (fun l => { l with depth := min 134217727 (l.depth + n.cells) }) s
    if isReplLeaf s n.leaf then selectRepl dst s
    else
      match leafPort s n.leaf with
      | some p =>
        if !portUp s p && (port s p).holdDone && !(port s p).hold then dropLeaf n.leaf 2 (16 + 7) (evictNote dst n s)
        else selectPort p s
      | none => s
  | _ => s

/-- NOTICE_RECEIVE. -/
def execNoticeReceive (src dst : Nat) (crcOk : Bool) (s : State) : Res :=
  .next (receive src dst crcOk isNotice (arriveNotice dst) s)

/-- A PULL marks the cell of its position that the tile holds, or makes a NULL due (R224). A PULL of a fenced tile is
cancelled (R231). -/
def arrivePull (src dst : Nat) (m : Msg) (s : State) : State :=
  match m with
  | .pull ps leaf ssn lo hi pat =>
    if !tileRunning s src then tileCnt dst 8 1 s
    else
      match (List.range (patLen pat)).find? fun k => patTile pat ps k = dst && lo ≤ k && k ≤ hi with
      | none => s
      | some k =>
        let at_ (h : Held) : Bool := h.tile = dst && h.cell.src = ps && h.cell.leaf = leaf && h.cell.ssn = ssn && h.cell.pos = k
        if s.fab.held.any at_ then
          let due := (s.fab.held.filter at_).filterMap fun h => match h.place with
            | .dram i => if h.poison then none else some (dst, i)
            | _ => none
          pumpDram dst { s with fab := { s.fab with
            held := s.fab.held.map (fun h => if at_ h then { h with pulled := true } else h), reads := s.fab.reads ++ due } }
        else
          let c : Cell := { src := ps, leaf := leaf, ssn := ssn, pos := k, pattern := pat }
          { s with fab := { s.fab with nulls := s.fab.nulls ++ [{ tile := dst, dst := src, cell := c }] } }
  | _ => s

/-- PULL_RECEIVE: `src` is the destination tile that pulls, `dst` the intermediate. -/
def execPullReceive (src dst : Nat) (crcOk : Bool) (s : State) : Res :=
  .next (receive src dst crcOk isPull (arrivePull src dst) s)

/-- A pulled cell can leave for its destination: from SRAM, or once it has been read from DRAM; one known as poison needs no
read. -/
def canReturn (t dst : Nat) (h : Held) : Bool :=
  h.tile = t && h.pulled && leafTile h.cell.leaf = dst && match h.place with
    | .dram _ => h.poison
    | .reading _ => false
    | _ => true

/-- What answers a PULL for a held cell: its RETURN, or a NULL for a placeholder or poison (R224, R239, R240). -/
def answerOf (h : Held) : Msg := if h.cell.holder || h.poison then .null h.cell h.poison else .ret h.cell

/-- Words of an answer. -/
def answerWords (h : Held) : Nat := if h.cell.holder || h.poison then 0 else cellWords h.cell

/-- The oldest cell due to a destination that the slot's tier serves (R213). -/
def dueCell (s : State) (t dst : Nat) : Option Held :=
  let due := s.fab.held.filter (canReturn t dst)
  due.find? fun h => tierAllows s t dst (fun c => due.any fun x => x.cell.cls = c) h.cell.cls

/-- RETURN_SEND: the oldest cell due to the destination, then the oldest NULL, in a RETURN slot; the cell is freed (R224, R240,
R241). -/
def execReturnSend (tile dst : Nat) (s : State) : Res :=
  .next <| if !(tileRunning s tile && tileRunning s dst) then s
    else match dueCell s tile dst with
    | some h =>
      if !canSend s tile dst kindReturn (answerWords h) then s
      else
        let s := useLink tile dst kindReturn (answerWords h) { s with fab := { s.fab with held := s.fab.held.erase h } }
        iff_ (tile ≠ dst && answerWords h ≠ 0) (tileCnt tile 1 1) (send tile dst (answerOf h) s)
    | none =>
      match s.fab.nulls.find? fun n => n.tile = tile && n.dst = dst with
      | some n =>
        if !canSend s tile dst kindReturn 0 then s
        else send tile dst (.null n.cell false) (useLink tile dst kindReturn 0
          { s with fab := { s.fab with nulls := s.fab.nulls.eraseP fun n => n.tile = tile && n.dst = dst } })
      | none => s

/-- The assembly that waits for a position. -/
def asmOwed (t src leaf ssn pos : Nat) (a : Asm) : Bool :=
  a.tile = t && a.note.src = src && a.note.leaf = leaf && a.owed.contains (ssn, pos)

def setAsm (k : Asm → Bool) (f : Asm → Asm) (s : State) : State :=
  { s with fab := { s.fab with asms := s.fab.asms.map fun a => if k a then f a else a } }

/-- A position is answered or counted missing; the tile may issue further PULLs. -/
def settle (t : Nat) (x : Nat × Nat) (k : Asm → Bool) (f : Asm → Asm) (s : State) : State :=
  pumpPulls t (setAsm k (fun a => f { a with owed := a.owed.filter (· ≠ x) }) s)

/-- A frame's first cell is known: its length is, and the charge is corrected (R286). -/
def firstKnown (a : Asm) (c : Cell) (s : State) : State :=
  iff_ (c.first && a.port ≠ 1023 && !a.corrected) (creditPath a.note.leaf (pullCharge a.note - c.frameLen)) s

/-- An assembly takes a cell. -/
def withCell (c : Cell) (a : Asm) : Asm :=
  { a with got := a.got ++ [c], corrected := a.corrected || (c.first && !c.parity),
           frameLen := if c.first && !c.parity then some c.frameLen else a.frameLen }

/-- A RETURN or NULL reaches the reorder window (R224, R225); a first cell brings the frame's length (R286). -/
def arriveReturn (dst : Nat) (m : Msg) (s : State) : State :=
  match m with
  | .ret c =>
    let k := asmOwed dst c.src c.leaf c.ssn c.pos
    match s.fab.asms.find? k with
    | none => tileCnt dst 5 1 s
    | some a => settle dst (c.ssn, c.pos) k (withCell c) (iff_ (!c.parity) (firstKnown a c) s)
  | .null c _ =>
    let k := asmOwed dst c.src c.leaf c.ssn c.pos
    match s.fab.asms.find? k with
    | none => tileCnt dst 5 1 s
    | some a =>
      let lost := !isPlaceholder a.note (c.ssn, c.pos)
      settle dst (c.ssn, c.pos) k (fun a => { a with missing := if lost then a.missing ++ [(c.ssn, c.pos)] else a.missing }) s
  | _ => s

/-- A position counts as missing from now on. -/
def missPosition (t src leaf ssn pos : Nat) (s : State) : State :=
  settle t (ssn, pos) (asmOwed t src leaf ssn pos) (fun a =>
    if isPlaceholder a.note (ssn, pos) then a else { a with missing := a.missing ++ [(ssn, pos)] }) s

/-- A returned cell that fails its CRC counts as missing at once (R225). -/
def badReturn (dst : Nat) (m : Msg) (s : State) : State :=
  match m with
  | .ret c => missPosition dst c.src c.leaf c.ssn c.pos s
  | .null c _ => missPosition dst c.src c.leaf c.ssn c.pos s
  | _ => s

/-- RETURN_ARRIVAL. -/
def execReturnArrival (src dst : Nat) (crcOk : Bool) (s : State) : Res :=
  .next (receiveOr src dst crcOk isReturn (badReturn dst) (arriveReturn dst) s)

/-- RESEQ_TIMEOUT. -/
def execReseqTimeout (tile src leaf ssn pos : Nat) (s : State) : Res :=
  .next <| iff_ (s.fab.asms.any (asmOwed tile src leaf ssn pos))
    (fun s => tileCnt tile 4 1 (missPosition tile src leaf ssn pos s)) s

/-! ## Eviction (R228, R229, R247, R248) -/

/-- The newest frame of a leaf with no PULL issued (R228). -/
def newestNotice (s : State) (l : Nat) : Option Notice :=
  (s.fab.notices.filter fun n => n.leaf = l && !n.pulled).foldl (fun b n => match b with
    | some m => if noticeBefore m n then some n else b
    | none => some n) none

/-- An EVICT_REQ chooses its victim or is refused (R228); a frame of the arriving class or above is never one (R248). -/
def arriveEvictReq (src dst : Nat) (m : Msg) (s : State) : State :=
  match m with
  | .evictReq l cls =>
    match if leafClass l < cls then newestNotice s l else none with
    | some n => dropLeaf l 1 (16 + 2) (evictNote dst n s)
    | none => tileCnt dst 11 1 (send dst src (.evictNack l) s)
  | _ => s

/-- EVICT_REQ_RECEIVE. -/
def execEvictReqReceive (src dst : Nat) (crcOk : Bool) (s : State) : Res :=
  .next (receive src dst crcOk isEvictReq (arriveEvictReq src dst) s)

/-- An EVICT frees the victim's cells and enters the filter, where a full filter loses its oldest entry (R229). -/
def arriveEvict (dst : Nat) (m : Msg) (s : State) : State :=
  match m with
  | .evict n =>
    let mine := s.fab.filters.filter fun x => x.tile = dst
    let kept := if 64 ≤ mine.length then s.fab.filters.eraseP fun x => x.tile = dst else s.fab.filters
    { s with fab := { s.fab with
        held := s.fab.held.filter (fun h => !(h.tile = dst && inNote n h.cell)), filters := kept ++ [{ tile := dst, note := n }] } }
  | _ => s

/-- EVICT_RECEIVE. -/
def execEvictReceive (src dst : Nat) (crcOk : Bool) (s : State) : Res :=
  .next (receive src dst crcOk isEvict (arriveEvict dst) s)

/-- A frame waits for push-out with a leaf's victim tried last. -/
def triedLeaf (t l : Nat) (f : Frame) : Bool := f.tile = t && match f.phase with
  | .pushout _ v _ => v = l
  | _ => false

/-- An EVICT_NACK makes the source try the next class for the oldest frame that waits on that victim leaf (R247; log 115). -/
def arriveNack (dst : Nat) (m : Msg) (s : State) : State :=
  match m with
  | .evictNack l =>
    match s.frames.find? (triedLeaf dst l) with
    | some f => match f.phase with
      | .pushout n _ c => pushOut f n (c + 1) s
      | _ => s
    | none => s
  | _ => s

/-- EVICT_NACK_RECEIVE. -/
def execEvictNackReceive (src dst : Nat) (crcOk : Bool) (s : State) : Res :=
  .next (receive src dst crcOk isNack (arriveNack dst) s)

/-- PUSHOUT_TIMEOUT: the push-out has succeeded and the frame is taken into the store (R247). -/
def execPushoutTimeout (fid : Nat) (s : State) : Res :=
  .next <| match frame? s fid with
    | some f => match f.phase with
      | .pushout _ _ _ => dealAdmitted f.tile (admitFrame f s)
      | _ => s
    | none => s

/-- EVICTION_FILTER_EXPIRY: the oldest entry's hold ends. -/
def execEvictionFilterExpiry (tile : Nat) (s : State) : Res :=
  .next { s with fab := { s.fab with filters := s.fab.filters.eraseP fun x => x.tile = tile } }

/-! ## PORT_IDLE (R219, R221) -/

/-- The bits of a tile's PORT_IDLE. -/
def idleBits (s : State) (t : Nat) : Nat :=
  (List.range 64).foldl (fun n l => n + (portExists s (t * 64 + l) && txIdle s (t * 64 + l)).toNat * 2 ^ l) 0

/-- PORT_IDLE_SEND. -/
def execPortIdleSend (tile : Nat) (s : State) : Res :=
  .next <| iff_ (tileRunning s tile) (fun s =>
    forEach ((runningTiles s).filter (· ≠ tile)) (fun d => send tile d (.portIdle (idleBits s tile))) s) s

/-- The bits received last from a tile are kept. -/
def arriveIdle (src dst : Nat) (m : Msg) (s : State) : State :=
  match m with
  | .portIdle b => { s with fab := { s.fab with idle := tput s.fab.idle (dst * 8 + src) b } }
  | _ => s

/-- PORT_IDLE_RECEIVE. -/
def execPortIdleReceive (src dst : Nat) (crcOk : Bool) (s : State) : Res :=
  .next (receive src dst crcOk isPortIdle (arriveIdle src dst) s)

/-! ## Failed links and fences (R227, R230, R231) -/

/-- LINK_DECLARED_FAILED. -/
def execLinkDeclaredFailed (rx tx : Nat) (s : State) : Res :=
  .next <| iff_ (rx ≠ tx && tileRunning s rx &&
      16 ≤ ((tget s.fab.crcFails (rx * 8 + tx)).filter fun x => s.tim.frc < x + 1000000).length)
    (fun s => report (unitId 9 (rx * 8 + tx)) 0x0207 0 0 (rset .latLinkErr rx 0 tx tx 1 s)) s

/-- Express frames of a source tile that a fence of tile f ends (R231). -/
def expressToFenced (t f : Nat) (s : State) : State :=
  forEach (s.frames.filter fun x => x.tile = t && x.dst = f && (x.phase = .express || x.phase = .launched)) (fun x s =>
    let s := freeExpress x (tileCnt t 7 (cellsOf (frameLen x)) (ownerCnt (leafSlice s x.leaf) 4 1 s))
    gone x s) s

/-- Cells of stored frames still to be dealt to a fenced destination. -/
def dealsToFenced (t f : Nat) (s : State) : State :=
  forEach (s.frames.filter fun x => x.tile = t && x.deals.any fun d => d.dst = f && !d.cells.isEmpty) (fun x s =>
    let n := ((x.deals.filter fun d => d.dst = f).map fun d => d.cells.length).foldl (· + ·) 0
    let rest := x.deals.filter fun d => d.dst ≠ f
    let left := rest.all fun d => d.cells.isEmpty
    let s := forEach (x.deals.filter fun d => d.dst = f) (fun d s => countFlushed t x.fid d.leaf s) s
    tileCnt t 7 n { s with frames := (s.frames.map fun g =>
      if g.fid = x.fid then { g with deals := rest, landing := if left then 0 else g.landing } else g).filter fun g =>
        g.fid ≠ x.fid || !left || !g.tailSeen }) s

/-- Express frames from a fenced tile that have started at this tile are cut, and parked ones without their tail dropped. -/
def expressFromFenced (t f : Nat) (s : State) : State :=
  forEach ((s.ports.map (·.1)).filter fun p => portTile p = t) (fun p s =>
    let bad (sl : Slot) : Bool := sl.express && sl.src = f && !sl.ready
    let q := port s p
    let s := match q.tx with
      | some sl =>
        if bad sl then
          setLeaf sl.leaf (fun l => { l with express := false })
            (portCnt p 22 1 (emit (.abort p) (setPort p (fun q => { q with tx := none }) s)))
        else s
      | none => s
    let lost := (q.slots.filterMap (·.2) ++ q.parked).filter bad
    let s := forEach lost (fun sl s => setLeaf sl.leaf (fun l => { l with express := false }) (slotRelease sl s)) s
    setPort p (fun q => { q with
      slots := tmap (fun _ x => if x.any bad then none else x) q.slots, parked := q.parked.filter fun sl => !bad sl }) s) s

/-- Reservations at a tile's ports, and express marks of its leaves, whose express frame is gone are released. -/
def settleExpress (t : Nat) (s : State) : State :=
  let flies (k : Slot → Nat → Bool) : Bool := s.fab.wires.any fun w => match w.msg with
    | .express sl p _ => k sl p
    | _ => false
  let coming (p : Nat) : Bool :=
    flies (fun _ q => q = p) || s.frames.any fun f => f.phase = .express && f.egress = p
  let here (l : Nat) : Bool := s.ports.any fun x =>
    x.2.tx.any (fun sl => sl.express && sl.leaf = l) ||
    (x.2.slots.any fun y => y.2.any fun sl => sl.express && sl.leaf = l) || x.2.parked.any fun sl => sl.leaf = l
  let live (l : Nat) : Bool :=
    here l || flies (fun sl _ => sl.leaf = l) || s.frames.any fun f => f.phase = .express && f.leaf = l
  { s with
    ports := tmap (fun p q => if portTile p = t then { q with reserved := q.reserved && coming p } else q) s.ports,
    sch := { s.sch with leaves := tmap (fun l (x : Leaf) =>
      if leafTile l = t then { x with express := x.express && live l } else x) s.sch.leaves } }

/-- Positions pulled that a fenced tile held count as missing (R230 step 3); those not pulled yet do so at their PULL. -/
def missFenced (f : Nat) (a : Asm) : Asm :=
  let at_ (x : Nat × Nat) : Bool := patTile a.note.pattern a.note.src x.2 = f
  { a with
    owed := a.owed.filter (fun x => !at_ x), missing := a.missing ++ a.owed.filter fun x => at_ x && !isPlaceholder a.note x }

/-- Messages between a tile and a fenced tile end: PULLs are cancelled, EVICT_REQs answered EVICT_NACK, cells dropped. -/
def linksFenced (t f : Nat) (s : State) : State :=
  let between (w : Wire) : Bool := (w.src = t && w.dst = f) || (w.src = f && w.dst = t)
  let cut := s.fab.wires.filter between
  let s := { s with fab := { s.fab with wires := s.fab.wires.filter fun w => !between w } }
  forEach cut (fun w s => match w.msg with
    | .pull _ _ _ _ _ _ => if w.src = f then tileCnt t 8 1 s else s
    | .spread _ => if w.dst = f then tileCnt t 7 1 s else s
    | .evictReq l _ => if w.dst = f then tileCnt t 11 1 (send t t (.evictNack l) s) else s
    | _ => s) s

/-- Cells that an intermediate holds for a fenced tile's leaves are freed, their frames counted, and the PULLs of them cancelled
(R231, R259). -/
def freeFenced (t f : Nat) (s : State) : State :=
  let mine (h : Held) : Bool := h.tile = t && leafTile h.cell.leaf = f
  let due (n : NullDue) : Bool := n.tile = t && n.dst = f
  let cells := s.fab.held.filter mine
  let asked := (cells.filter (·.pulled)).length + (s.fab.nulls.filter due).length
  let s := { s with fab := { s.fab with
    held := s.fab.held.filter (fun h => !mine h), nulls := s.fab.nulls.filter (fun n => !due n),
    reads := s.fab.reads.filter fun x => x.1 ≠ t || !(cells.any fun h => h.place.idx = some x.2) } }
  pumpDram t (tileCnt t 8 asked (forEach cells (fun h s => countFlushed t h.cell.fid h.cell.leaf s) s))

/-- A tile acts on FENCE(f) (R230 steps 3 to 5). -/
def fenceAt (t f : Nat) (s : State) : State :=
  let s := rset .latCalStat t 0 11 8 f (rset .latCalStat t 0 (24 + f) (24 + f) 0 (rset .latCalStat t 0 (16 + f) (16 + f) 1 s))
  let s := linksFenced t f (closeStripes t s)
  let s := freeFenced t f (setAsm (fun a => a.tile = t) (missFenced f) s)
  let s := expressFromFenced t f (dealsToFenced t f (expressToFenced t f s))
  let s := { s with fab := { s.fab with idle := tput s.fab.idle (t * 8 + f) 0 } }
  selectTile t (pumpPulls t (settleExpress t s))

/-- FENCE_RECEIVE. -/
def execFenceReceive (tile f : Nat) (s : State) : Res :=
  .next <| iff_ (tileRunning s tile && tile ≠ f && f < 8 && !tileRunning s f && rfld s .latCalStat tile 0 (16 + f) (16 + f) = 0)
    (fenceAt tile f) s

/-! ## The bank swap (R235) -/

/-- A bank swap is scheduled at a tile. -/
def swapPending (s : State) (t : Nat) : Bool := rfld s .latCalStat t 0 1 1 = 1

/-- A tile's banks swap; open stripes close. -/
def swapBank (t : Nat) (s : State) : State :=
  closeStripes t (rset .latCalStat t 0 0 0 (1 - rfld s .latCalStat t 0 0 0) (rset .latCalStat t 0 1 1 0 s))

/-- BANK_SWAP. -/
def execBankSwap (s : State) : Res :=
  .next <| iff_ (s.img.shadow.isSome && (runningTiles s).any (swapPending s)) (fun s =>
    { forEach (runningTiles s) swapBank s with img := { s.img with calSwapped := true, other := bankOf (img s) } }) s

end Sys2Proof.Machine
end

