-- ==== Sys2Proof/Machine/Egress.lean ====
section
/-! DEFINITION. The destination's side of a frame: stripe recovery, frame elimination, replication, transmission, PTP edits,
MACsec transmit and delivery to packet RX rings (R100, R102, R117, R118, R205, R206, R226, R285, R286, R300, R383, R384). -/
namespace Sys2Proof.Machine

/-! ## Stripe recovery (R218, R226) -/

/-- Positions of a stripe that count as missing in a parity-striped frame, data positions only. -/
def missData (a : Asm) (ssn : Nat) : List (Nat × Nat) :=
  a.missing.filter fun x => x.1 = ssn && (dataIndex a.note x).isSome

/-- The parity cell of a stripe that arrived. -/
def parityOf (a : Asm) (ssn : Nat) : Option Cell := a.got.find? fun c => c.ssn = ssn && c.parity

/-- Stripes of an assembly with a missing position. -/
def brokenStripes (a : Asm) : List Nat := (a.missing.map (·.1)).eraseDups

/-- A stripe resolves: nothing of its data is missing, or one data cell is rebuilt from its parity. -/
def stripeWhole (a : Asm) (ssn : Nat) : Bool :=
  a.note.pstripe && ((missData a ssn).isEmpty || ((missData a ssn).length = 1 && (parityOf a ssn).isSome))

/-- The data cell rebuilt from a stripe's parity and its other data cells: data, FIRST, LAST and BYTES by exclusive or, and the
extension where it is a first cell, since no other cell of the stripe has one then. -/
def rebuilt (a : Asm) (x : Nat × Nat) (p : Cell) : Cell :=
  let others := a.got.filter fun c => c.ssn = x.1 && !c.parity
  let n := others.foldl (fun v c => Nat.xor v (c.data.length - 1)) p.bytesX + 1
  { p with
    parity := false, pos := x.2, first := xor p.first (others.any (·.first)), last := xor p.last (others.any (·.last)),
    data := (xorCells (p.data :: others.map (·.data))).take n, bytesX := 0 }

/-- Cells that parity gives back. -/
def recovered (a : Asm) : List Cell :=
  (brokenStripes a).filterMap fun j =>
    match missData a j, parityOf a j with
    | [x], some p => some (rebuilt a x p)
    | _, _ => none

/-- Data cells of an assembly in position order. -/
def orderedCells (a : Asm) : List Cell :=
  let cs := (a.got ++ recovered a).filter fun c => !c.parity && !c.holder
  (framePositions a.note).filterMap fun x => cs.find? fun c => (c.ssn, c.pos) = x

/-- A frame has lost a data cell for good. -/
def asmLost (a : Asm) : Bool := !((brokenStripes a).all (stripeWhole a))

/-! ## 802.1CB recovery (R300) -/

/-- The stream that recovers a leaf. -/
def recStream (s : State) (l : Nat) : Option Nat :=
  (s.sch.streams.find? fun x => x.2.cfg.kind = 2 && x.2.cfg.binding = l).map (·.1)

/-- The R-TAG's sequence number in a frame, with the tag's offset. -/
def rTag (bs : List Byte) : Option (Nat × Nat) :=
  let o := afterTags bs 8 12
  if beAt bs o 2 = 0xF1C1 then some (beAt bs (o + 4) 2, o) else none

/-- A recovery algorithm's step on a sequence number (IEEE 802.1CB): whether the frame passes, and the state after it. -/
def frerStep (f : Frer) (n : Nat) : Bool × Frer :=
  if f.takeAny then (true, { f with takeAny := false, seq := n, hist := [n] })
  else if f.cfg.matchAlg then (decide (n ≠ f.seq), { f with seq := n })
  else
    let h : Int := (f.cfg.history : Nat)
    let d := sext 16 (n + 65536 - f.seq)
    if h ≤ d || d ≤ -h then (false, f)
    else if d ≤ 0 then (!f.hist.contains n, if f.hist.contains n then f else { f with hist := n :: f.hist })
    else (true, { f with seq := n, hist := n :: f.hist.filter fun m => sext 16 (n + 65536 - m) < h })

/-- Recovery of a frame of a leaf: its bytes where it passes, `none` where it is eliminated. -/
def frerRecover (l : Nat) (bs : List Byte) (s : State) : Option (List Byte) × State :=
  match recStream s l with
  | none => (some bs, s)
  | some i =>
    match rTag bs with
    | none => (some bs, streamCnt i 2 s)
    | some (n, o) =>
      let x := frerStep (tget s.sch.streams i) n
      let s := setStream i (fun _ => x.2) s
      if x.1 then (some (if x.2.cfg.strip then bs.take o ++ bs.drop (o + 6) else bs), streamCnt i 0 s)
      else (none, streamCnt i 1 s)

/-- The charges of an eliminated frame go back to every node charged. -/
def refundPath (l len : Nat) (s : State) : State :=
  let give (n : Node) : Node := creditNode s (leafTile l) (chargeOf s n.cfg.lenProf len).toNat n
  match leafPath s l with
  | some (sg, g, _) => setNode 1 g give (setNode 2 sg give (setNode 3 l give s))
  | none => s

/-! ## Replication (R205, R206) -/

/-- Member copies that a tile makes of a frame that came in on a port: members of another tile or pruned make none. -/
def localMembers (s : State) (t g inPort : Nat) : List Member :=
  (tget s.act.mcast g).members.filter fun m =>
    portTile (memberPort s m) = t && !(m.srcPrune && memberPort s m = inPort)

/-- One copy: dropped at once with its counter, or queued (R206 steps 3 and 4). -/
def replicateTo (t : Nat) (sl : Slot) (cls : Nat) (m : Member) (s : State) : State :=
  let p := memberPort s m
  let lose (i : Nat) : State := copyGone { sl with express := false } (mcCnt t p i s)
  if !nhValid (nextHop s m.nh) || (nhKind (nextHop s m.nh) ≠ 1 && nhKind (nextHop s m.nh) ≠ 5) then
    copyGone { sl with express := false } (groupCnt true sl.mcg 0 s)
  else if (port s p).fenced then lose 4
  else if !portUp s p then lose 1
  else if gatedClosed s p cls then lose 3
  else if max 1 (rfld s .actMcQlim t 0 15 0) ≤ ((port s p).rq.filter fun x => x.1 = cls).length then lose 2
  else mcCnt t p 0 (setPort p (fun q => { q with rq := q.rq ++ [(cls, { sl with nh := m.nh })] }) s)

/-- Replicates a reassembled multicast frame. -/
def replicate (t cls inPort : Nat) (sl : Slot) (s : State) : State :=
  let ms := localMembers s t sl.mcg inPort
  if ms.isEmpty then bufRelease sl.handle (mcCnt t 1023 5 (frameGone sl.fid s))
  else
    let s := setBuf sl.handle (fun b => { b with count := ms.length, tag := 4096 }) s
    let s := forEach ms (replicateTo t sl cls) s
    forEach ((ms.map (memberPort s)).eraseDups) selectPort s

/-! ## Reassembly (R206, R224 to R226, R258) -/

/-- The frame leaves the list of assemblies, and its port's class slot where it holds one. -/
def endAsm (a : Asm) (s : State) : State :=
  let s := { s with fab := { s.fab with asms := s.fab.asms.filter fun b => !(b.tile = a.tile && sameFrame b.note a.note) } }
  let mine (sl : Slot) : Bool := sl.fid = a.note.fid && sl.handle = a.handle
  let clear (x : Option Slot) : Option Slot := if x.any mine then none else x
  if a.port = 1023 then s else setPort a.port (fun q => { q with slots := tupd q.slots a.cls clear }) s

/-- An assembled frame is discarded and its buffer freed. -/
def dropAsm (a : Asm) (leafIdx tileIdx : Nat) (s : State) : State :=
  dropLeaf a.note.leaf leafIdx tileIdx (bufRelease a.handle (frameGone a.note.fid (endAsm a s)))

/-- The slot record of a whole frame. -/
def asmSlot (a : Asm) (c : Cell) (body : List Byte) : Slot :=
  { fid := a.note.fid, src := a.note.src, leaf := a.note.leaf, handle := a.handle, len := body.length + 4, enq := a.note.enq,
    ts := c.ts, ready := true, copy := a.port = 1023, oneStep := c.oneStep, tc := c.tc, data := body, mcg := c.mcGroup,
    carry := c.carry }

/-- A whole frame lies in its buffer: elimination, then its slot or its copies. -/
def deliverAsm (a : Asm) (cells : List Cell) (s : State) : State :=
  let c := cells.head?.getD {}
  let len := (cells.flatMap (·.data)).take c.frameLen
  let body := len.take (c.frameLen - 4)
  match frerRecover a.note.leaf body s with
  | (none, s) => refundPath a.note.leaf c.frameLen (bufRelease a.handle (frameGone a.note.fid (endAsm a s)))
  | (some bs, s) =>
    let s := writeMem (bufAddr a.handle 0) bs s
    let sl := asmSlot a c bs
    if a.port = 1023 then replicate a.tile a.cls (mdGet c.carry.md 89 80) sl (endAsm a s)
    else
      setPort a.port (fun q => { q with slots := tput q.slots a.cls (some sl) }) (endAsm a s)

/-- Work that the end of an assembly makes possible. -/
def afterAsm (a : Asm) (s : State) : State :=
  let s := pumpPulls a.tile s
  if a.port = 1023 then retryWaits a.tile (selectRepl a.tile s) else selectPort a.port s

/-- Every position of an assembly is answered and no frame of its leaf pulled earlier is still open: frames are pulled, and so
released, in the order of R223 (R224). -/
def asmDone (s : State) (a : Asm) : Bool :=
  a.owed.isEmpty && a.todo.isEmpty &&
  (s.fab.asms.find? fun b => b.tile = a.tile && b.note.leaf = a.note.leaf).any fun b => sameFrame b.note a.note

/-- A frame's first cell that parity gives back corrects its charge (R218, R286). -/
def lateFirst (a : Asm) (s : State) : State :=
  match (recovered a).find? (·.first) with
  | some c => firstKnown a c s
  | none => s

/-- REASSEMBLY_COMPLETE: the frame is named by its source, leaf and first cell. -/
def execReassemblyComplete (tile src leaf ssn pos : Nat) (s : State) : Res :=
  .next <| match s.fab.asms.find? fun a =>
      a.tile = tile && a.note.src = src && a.note.leaf = leaf && a.note.ssn = ssn && a.note.pos = pos with
    | none => s
    | some a =>
      if !(asmDone s a && tileRunning s tile) then s
      else afterAsm a <|
        let s := lateFirst a (iff_ (!(recovered a).isEmpty) (tileCnt tile 2 (recovered a).length) s)
        if asmLost a then dropAsm a 5 3 s
        else if a.drop then dropAsm a 2 (16 + 7) s
        else deliverAsm a (orderedCells a) s

/-! ## Transmission (R285) -/

/-- Time a slot's frame takes at its port's rate, preamble and gap included. -/
def wireTime (s : State) (p : Nat) (sl : Slot) : Nat := ceilDiv ((sl.len + 20) * 8) (max 1 (portRate s p))

/-- A slot's whole frame can leave before its gate closes. -/
def canFinish (s : State) (p c : Nat) : Bool :=
  match slotOf s p c with
  | some sl => sl.ready && openFor s p c (wireTime s p sl)
  | none => false

/-- A class whose whole frame waits for its gate. -/
def gateWaits (s : State) (p c : Nat) : Bool :=
  match slotOf s p c with
  | some sl => sl.ready && !sl.waited && !openFor s p c (wireTime s p sl)
  | none => false

/-- Counts the frames that wait in their slots, each once. -/
def countWaits (p : Nat) (s : State) : State :=
  forEach ((List.range 8).filter (gateWaits s p)) (fun c s =>
    tileCnt (portTile p) (32 + 2) 1
      (setPort p (fun q => { q with slots := tupd q.slots c fun x => x.map fun sl => { sl with waited := true } }) s)) s

/-- A port's transmitter may start a frame. -/
def txFree (s : State) (p : Nat) : Bool := portUp s p && (port s p).tx.isNone && !(port s p).reserved

/-- FRAME_TX_START. -/
def execFrameTxStart (p : Nat) (s : State) : Res :=
  .next <| iff_ (txFree s p) (fun s =>
    let s := countWaits p s
    match (List.range 8).reverse.find? (canFinish s p) with
    | none => s
    | some c =>
      match slotOf s p c with
      | some sl =>
        selectPort p (startTx p sl (setPort p (fun q => { q with slots := tput q.slots c none }) s))
      | none => s) s

/-! ## PTP edits (R117, R118) -/

/-- 2^63 − 1, where a correction saturates. -/
def corrMax : Int := 9223372036854775807

/-- The correction field with a residence time added. -/
def corrected (bs : List Byte) (o residence : Nat) : List Byte :=
  let c := sext 64 (beAt bs (o + 8) 8) + ((residence * 65536 : Nat) : Int)
  patchBytes bs (o + 8) (beBytes 8 (twos 64 (min corrMax c)))

/-- The egress stamp written into originTimestamp. -/
def stamped (bs : List Byte) (o : Nat) (t : Time80) : List Byte := patchBytes bs (o + 34) (beBytes 6 t.sec ++ beBytes 4 t.ns)

/-- The UDP checksum after an edit at or past its header: zero under IPv4, updated incrementally under IPv6. -/
def ptpUdp (l4 o : Nat) (old new : List Byte) : List Byte :=
  if l4 = 4 then patchBytes new (o - 2) [0, 0]
  else if l4 = 6 then
    let a := foldSum (sum16 (old.drop o))
    let b := foldSum (sum16 (new.drop o))
    patchBytes new (o - 2) (beBytes 2 (65535 - foldSum (65535 - beAt old (o - 2) 2 + b + (65535 - a))))
  else new

/-- PRT's edits of a PTP frame. -/
def ptpEdit (sl : Slot) (bs : List Byte) : List Byte :=
  match sl.carry.ptp with
  | none => bs
  | some (left, l4) =>
    if !(sl.oneStep || sl.tc) || bs.length < left then bs
    else
      let o := bs.length - left
      let a := if sl.oneStep && 44 ≤ left then stamped bs o sl.outTs else bs
      let b := if sl.tc && 16 ≤ left then corrected a o (sl.outFrc - sl.carry.frcIn) else a
      ptpUdp l4 o bs b

/-! ## MACsec transmit (R100, R102) -/

/-- Values that a transmit association's packet number may take. -/
def pnSpan (a : Sa) : Nat := if a.xpn then 18446744073709551616 else 4294967296

def pnThreshold (a : Sa) : Nat := if a.xpn then 0xC000000000000000 else 0xC0000000

/-- What MACsec makes of an egress frame: `none` it is dropped with the counter given; else the state with its counts. -/
def macsecTx (p an : Nat) (injected : Bool) (bs : List Byte) (s : State) : Option Nat × State :=
  if macsecMode s p = 0 then (none, s)
  else if injected && beAt bs 12 2 = 0x888E then (none, portCnt p 55 1 s)
  else
    let k := saKey p 0 0 an
    match tget s.sas k with
    | none => (some 23, s)
    | some a =>
      if pnSpan a ≤ a.pn then (some 24, s)
      else
        let due : Bool := pnThreshold a ≤ a.pn + 1 && !a.noticed
        let s := { s with sas := tput s.sas k (some { a with pn := a.pn + 1, noticed := a.noticed || due }) }
        (none, portCnt p 54 1 (iff_ due (post (portReq s p) 0x11 p [word an]) s))

/-! ## Packet RX (R383, R384) -/


/-- Delivers a frame without its FCS into a ring's next descriptor, or drops it. A host that cannot be written completes
SQUASHED. -/
def deliverRx (req r : Nat) (bs : List Byte) (md : BitVec 256) (s : State) : State :=
  let g := ringSt s req r
  match if g.en && !g.resetting then headEntry g else none with
  | none => ringCnt req r 3 1 s
  | some d =>
    let cap := fld (d.getD 4 0) 13 0
    let data := bs.take cap
    let addr := (d.getD 6 0).toNat + (d.getD 7 0).toNat * 4294967296
    let w5 := pack [(13, 0, bs.length), (16, 16, (decide (cap < bs.length)).toNat)]
    let ret := (5, w5) :: (List.range 8).map fun i => (8 + i, word (md.toNat / 2 ^ (32 * i)))
    if linkUp s then
      ownerCnt req 5 1 (ringCnt req r 2 data.length (ringCnt req r 1 1 (completeWith req r d 0 ret (emitHost (.hostWrite req addr data) s))))
    else completeWith req r d 0x08 ret s

/-- The packet RX ring of a slice that takes a class: the lowest enabled one, else the lowest. -/
def rxRing (s : State) (sl c : Nat) : Option Nat :=
  let takes (g : Ring) : Bool := g.kind = 2 && g.classMask.testBit c
  match findRing s sl fun g => takes g && g.en with
  | some r => some r
  | none => findRing s sl takes

/-- A frame leaves a host port. -/
def toHost (p : Nat) (sl : Slot) (bs : List Byte) (s : State) : State :=
  match rxRing s (p - 512) (leafClass sl.leaf) with
  | some r => deliverRx (p - 512) r bs sl.carry.md s
  | none => ringCnt (p - 512) 0 7 1 s

/-! ## The end of a frame (R20, R254, R285) -/

/-- Bytes a slot puts on the wire, FCS apart: a copy's own rewrite and template, then PTP (R206, R117). -/
def wireBytes (s : State) (p : Nat) (sl : Slot) : List Byte :=
  ptpEdit sl (if sl.copy then applyNext s (nextHop s sl.nh) p sl.carry.ipOff sl.data else sl.data)

/-- Counters of a transmitted frame (R98, R422, R423). -/
def txCount (p : Nat) (sl : Slot) (bs : List Byte) (s : State) : State :=
  let n := bs.length + 4
  let o := leafSlice s sl.leaf
  let s := leafCnt sl.leaf 1 n (leafCnt sl.leaf 0 1 (ownerCnt o 3 n (ownerCnt o 2 1 s)))
  if 512 ≤ p then s
  else
    let s := portCnt p (castIdx 18 bs) 1 (portCnt p 17 n (portCnt p 16 1 s))
    iff_ sl.express (portCnt p 21 1) s

/-- A transmit descriptor flagged TS completes with the egress stamp, or NOT_FOUND where the frame was dropped (R382). -/
def txStamp (sl : Slot) (sent : Bool) (s : State) : State :=
  if sent then frameOver sl.fid 0 (retTime 2 sl.outTs) s else frameGone sl.fid s

/-- The transmitter's frame has left: buffer, leaf and slot are free again. -/
def endTx (p : Nat) (sl : Slot) (s : State) : State :=
  let s := iff_ sl.express (setLeaf sl.leaf fun l => { l with express := false }) (slotRelease sl s)
  selectPort p (endKeep p (setPort p (fun q => { q with tx := none }) s))

/-- FRAME_TX_END. -/
def execFrameTxEnd (p : Nat) (s : State) : Res :=
  .next <| match (port s p).tx with
    | none => s
    | some sl =>
      if !sl.ready then s
      else
        let bs := wireBytes s p sl
        if 512 ≤ p then endTx p sl (txStamp sl true (toHost p sl bs (txCount p sl bs s)))
        else
          match macsecTx p sl.txAn (mdGet sl.carry.md 140 140 = 1) bs s with
          | (some i, s) => endTx p sl (txStamp sl false (ownerCnt (leafSlice s sl.leaf) 4 1 (portCnt p i 1 s)))
          | (none, s) => endTx p sl (txStamp sl true (txCount p sl bs (emit (.frame p (bs ++ fcsOf bs)) s)))

end Sys2Proof.Machine
end

