-- ==== Sys2Proof/Machine/Time.lean ====
section
/-! DEFINITION. The time base: its tick, slews, steps and realignment, PPS_OUT, TOD and the timing inputs (R14, R111 to R116). -/
namespace Sys2Proof.Machine

/-! ## Advance (R111, R113) -/

/-- Units of 2^-40 × 10^-4 ns in a nanosecond. -/
def nsUnits : Int := 10000 * 1099511627776

/-- The last instant of module time. -/
def maxNs : Nat := 281474976710656 * 1000000000 - 1

/-- TIM_ADJ.FREQ in units of 2^-40. -/
def freqAdj (s : State) : Int := sext 32 (rget s .timAdj 0 0).toNat

/-- TIM_STAT.RUNNING. -/
def timeRuns (s : State) : Bool := pbit s .timStat 0

/-- Module time moved by an amount in fine units; it never wraps and never falls below 0 (R113). -/
def addUnits (u : Int) (s : State) : State :=
  let a := s.tim.acc + u
  let n := (nowNs s : Int) + a.ediv nsUnits
  { s with tim := { s.tim with now := Time80.ofNs (min maxNs n.toNat), acc := a.emod nsUnits } }

/-- The part of a slew that one nanosecond takes, in units of 10^-4 ns. -/
def slewPart (left : Int) : Int := if left = 0 then 0 else if 0 < left then 1 else -1

/-- FREQ_OUT rises on each multiple of 100 ns of module time that the nanosecond reaches (R115). -/
def freqStep (before : Nat) (s : State) : State :=
  { s with tim := { s.tim with freqAge := if nowNs s / 100 = before / 100 then s.tim.freqAge + 1 else 0 } }

/-- One nanosecond of the oscillator: the free-running count and module time advance (R111, R113; log 5). -/
def tick (s : State) : State :=
  let p := slewPart s.tim.slewLeft
  let before := nowNs s
  let s := freqStep before (addUnits ((1099511627776 + freqAdj s) * 10000 + p * 1099511627776) s)
  let s := { s with tim := { s.tim with frc := s.tim.frc + 1, slewLeft := s.tim.slewLeft - p } }
  iff_ (p ≠ 0 && s.tim.slewLeft = 0) (pset .timStat 4 false) s

/-- SLEW_END: the rest of the change is made and SLEWING clears. -/
def execSlewEnd (s : State) : Res :=
  .next <| iff_ (pbit s .timStat 4) (fun s =>
    let s := addUnits (s.tim.slewLeft * 1099511627776) s
    pset .timStat 4 false { s with tim := { s.tim with slewLeft := 0 } }) s

/-! ## Steps and realignment (R113, R114) -/


/-- Schedules that realign after a step: 0 the calendar while it runs, 1 + port, 513 + stream gate. -/
def schedules (s : State) : List Nat :=
  (if calRuns s then [0] else []) ++
  ((s.sch.gates.filter fun x => x.2.active.count ≠ 0).map fun x => 1 + x.1) ++
  ((s.sch.sgates.filter fun x => x.2.active.count ≠ 0).map fun x => 513 + x.1)

/-- A schedule's next boundary at or after an instant. -/
def boundary (s : State) (sched now : Nat) : Nat :=
  if sched = 0 then calBoundary now
  else if sched < 513 then nextCycle (gateOf s (sched - 1)).active now
  else nextCycle (sgateOf s (sched - 513)).active now

/-- A schedule takes its new phase: the calendar closes the open stripes, a list begins entry 0; no frame under way is cut (R114,
R295). -/
def realignOne (sched : Nat) (s : State) : State :=
  if sched = 0 then forEach (runningTiles s) closeStripes { s with tim := { s.tim with calShift := 0 } }
  else if sched < 513 then
    selectPort (sched - 1) (setGate (sched - 1) (fun g => { keepTx s (sched - 1) true g with entry := 0 }) s)
  else selectBound (sched - 513) (setSgate (sched - 513) (fun g => { keepBound s true g with entry := 0 }) s)

/-- Module time steps to an instant. A named time that the step passes takes effect at the next calendar boundary; a later step back
makes it wait again. -/
def stepTime (n : Nat) (s : State) : State :=
  let phase := ((nowNs s : Int) + (s.tim.calShift : Nat) - (n : Nat)).emod 16000 |>.toNat
  let s := { s with tim := { s.tim with
    calShift := if calRuns s then phase else 0,
    now := Time80.ofNs n, acc := 0, slewLeft := 0, ppsStep := true, todStepped := true, stepTo := n } }
  let s := pset .timStat 4 false (pset .timStat 2 true s)
  let now := (schedules s).filter fun k => boundary s k n = n
  let later := (schedules s).filter fun k => boundary s k n ≠ n
  forEach now realignOne (setRealign later s)

/-- TIM_STEP_LIMIT in ns. -/
def stepLimit (s : State) : Nat := min 999999999 (rfld s .timStepLimit 0 0 29 0)

/-- BAD_WRITE. -/
def badTime : State → State := pset .timStat 3 true

/-- An accepted new time: slewed within the step limit, else stepped; a slew in progress is discarded. A write that is refused
(BAD_WRITE) lets a slew run on (DESIGN CHOICE, log 94). -/
def newTime (n : Nat) (s : State) : State :=
  let d : Int := (n : Int) - (nowNs s : Int)
  if d.natAbs ≤ stepLimit s then
    pset .timStat 4 (d ≠ 0) { s with tim := { s.tim with slewLeft := d * 10000 } }
  else stepTime n s

/-- TIM_CMD SET; one that is refused leaves a slew running (log 94). -/
def timSetCmd (s : State) : State :=
  let ns := (rget s .timSetNs 0 0).toNat
  let sec := (rget s .timSetSecLo 0 0).toNat + rfld s .timSetSecHi 0 0 15 0 * 4294967296
  if 999999999 < ns then badTime s else newTime (sec * 1000000000 + ns) s

/-- TIM_CMD OFFSET. -/
def timOffsetCmd (s : State) : State :=
  let n := (nowNs s : Int) + sext 32 (rget s .timSetNs 0 0).toNat
  if n < 0 || (maxNs : Int) < n then badTime s else newTime n.toNat s

/-- A write of TIM_ADJ stores the value, or the limit it passes. -/
def timAdjSet (val : Word) (s : State) : State :=
  let v := sext 32 val.toNat
  let lim : Int := 109951163
  if lim < v then badTime (rput .timAdj 0 0 (word (twos 32 lim)) s)
  else if v < -lim then badTime (rput .timAdj 0 0 (word (twos 32 (-lim))) s)
  else rput .timAdj 0 0 val s

/-- A read of TIM_NOW_NS captures the time (R112). -/
def captureNow (s : State) : State :=
  rput .timNowSecHi 0 0 (word (s.tim.now.sec / 4294967296 % 65536)) (rput .timNowSecLo 0 0 (word s.tim.now.sec) s)

/-- TIM_SET. -/
def execTimSet (s : State) : Res := .next (iff_ (hifUp s && timeRuns s) timSetCmd s)

/-- TIM_OFFSET. -/
def execTimOffset (s : State) : Res := .next (iff_ (hifUp s && timeRuns s) timOffsetCmd s)

/-- TIM_ADJ_WRITE. -/
def execTimAdjWrite (val : Word) (s : State) : Res := .next (iff_ (hifUp s) (timAdjSet val) s)

/-- TIM_NOW_CAPTURE. -/
def execTimNowCapture (s : State) : Res :=
  .next (readReaches (fun s => emit (.readData (word s.tim.now.ns)) (captureNow s)) s)

/-- SCHEDULE_REALIGN. -/
def execScheduleRealign (sched : Nat) (s : State) : Res :=
  .next (iff_ (s.tim.realign.contains sched) (fun s => realignOne sched (setRealign (s.tim.realign.filter (· ≠ sched)) s)) s)

/-! ## PPS_OUT and TOD (R115, R116) -/

/-- The whole second that the next edge marks. -/
def edgeSecond (s : State) : Nat := if s.tim.now.ns = 0 then s.tim.now.sec else s.tim.now.sec + 1

/-- After a step, an edge less than 200 ms after the previous one is skipped. -/
def edgeSkipped (s : State) : Bool := s.tim.ppsStep && s.tim.lastPps.any fun x => s.tim.frc < x + 200000000

/-- PPS_OUT_EDGE. -/
def execPpsOutEdge (s : State) : Res :=
  .next <|
    if !timeRuns s then s
    else if edgeSkipped s then { s with tim := { s.tim with ppsStep := false } }
    else emit (.ppsOut true) { s with tim := { s.tim with
      ppsHigh := true, ppsStep := false, lastPps := some s.tim.frc, ppsSec := edgeSecond s } }

/-- PPS_OUT_FALL. -/
def execPpsOutFall (s : State) : Res :=
  .next (iff_ s.tim.ppsHigh (fun s => emit (.ppsOut false) { s with tim := { s.tim with ppsHigh := false } }) s)

/-- The characters of a string, as bytes. -/
def asciiBytes (l : List Char) : List Byte := l.map fun c => BitVec.ofNat 8 c.toNat

/-- The line of TOD_TXD: the second that the edge marked in decimal, and two hex digits of flags, a step since the previous line and
OSC_WARM clear. -/
def todLine (s : State) : List Byte :=
  let f := s.tim.todStepped.toNat + (!pbit s .timStat 6).toNat * 2
  asciiBytes ("TOD,".toList ++ Nat.toDigits 10 s.tim.ppsSec ++ [',', '0', Nat.digitChar f, '\r', '\n'])

/-- TOD_LINE. -/
def execTodLine (s : State) : Res :=
  .next <| iff_ (timeRuns s && s.tim.lastPps.isSome) (fun s =>
    emit (.tod (todLine s)) { s with tim := { s.tim with todStepped := false } }) s

/-! ## The timing outputs: `true` is high -/

/-- PPS_OUT (R72, R115). -/
def ppsOutPin (s : State) : Bool := s.pwr.powered && timeRuns s && s.tim.ppsHigh

/-- FREQ_OUT, high for half of its period (R72, R115; log 95). -/
def freqOutPin (s : State) : Bool := s.pwr.powered && timeRuns s && s.tim.freqAge < 50

/-- PPS_IN_EDGE. -/
def execPpsInEdge (s : State) : Res := .next (iff_ (timeRuns s) (post mgr 0x28 0 []) s)

/-- FREQ_IN_PHASE. -/
def execFreqInPhase (ps : Word) (s : State) : Res := .next (iff_ (timeRuns s && pbit s .timStat 5) (post mgr 0x29 0 [ps]) s)


/-- TOD_RX_BYTE: bytes beyond a 256 B backlog are discarded. -/
def execTodRxByte (bytes : List Byte) (s : State) : Res :=
  .next <| iff_ (timeRuns s) (fun s =>
    postTod 8 { s with tim := { s.tim with todBacklog := (s.tim.todBacklog ++ bytes).take 256 } }) s

/-- OSC_WARM. -/
def execOscWarm (s : State) : Res := .next (iff_ s.pwr.powered (pset .timStat 6 true) s)

/-- FREQ_IN_OK_CHANGE. -/
def execFreqInOkChange (ok : Bool) (s : State) : Res := .next (iff_ s.pwr.powered (pset .timStat 5 ok) s)

end Sys2Proof.Machine
end

