-- ==== Sys2Proof/Machine/Corridor.lean ====
section
/-! DEFINITION. The corridor fabric: hellos, adjacencies, failure IDs, management frames, the leave lead, FAB commands
(R304 to R320). -/
namespace Sys2Proof.Machine

/-! ## Identity and settings (R304, R306) -/

def helloUs (s : State) : Nat := max 10 (rfld s .cfbTimers 0 0 31 16)
def holdMult (s : State) : Nat := max 2 (rfld s .cfbTimers 0 0 15 12)

/-! ## Hellos (R306 to R308) -/

/-- Payload bytes of a hello. -/
def helloBytes (h : Hello) : List Byte :=
  beBytes 1 1 ++ beBytes 1 h.version ++ beBytes 1 h.fabricId ++ beBytes 1 (h.leaving.toNat + 2 * h.quarantining.toNat) ++
  beBytes 8 h.serial ++ beBytes 8 h.imageSeq ++ beBytes 2 h.port ++ beBytes 1 h.role ++ beBytes 1 h.holdMult ++
  beBytes 2 h.interval ++ beBytes 8 h.seenSerial ++ beBytes 2 h.seenPort ++ beBytes 1 h.seenId ++ List.replicate 9 0

/-- The hello that a port sends. -/
def helloOf (s : State) (p : Nat) : Hello :=
  let l := ((adjOf s p).last).getD { serial := 0, port := 0, fabricId := 0 }
  { fabricId := ownId s, leaving := s.cfb.leaving, quarantining := (adjOf s p).state = 4, serial := s.serial,
    imageSeq := (img s).seq.toNat, port := p, role := ((planAdj s p).getD {}).role, holdMult := holdMult s, interval := helloUs s,
    seenSerial := l.serial, seenPort := l.port, seenId := l.fabricId }

/-- A fabric-role port whose alignment holds and whose lanes are not squelched, outside the sag sequence. -/
def helloAllowed (s : State) (p : Nat) : Bool :=
  isFabric s p && portExists s p && (port s p).aligned && !portHeld s p && s.pwr.sagStep = 0


/-- The frame that carries a hello, without its FCS (R306). -/
def helloFrame (s : State) (p : Nat) : List Byte :=
  beBytes 6 0x0180C200000E ++ beBytes 6 (Config.portMac p).toNat ++ beBytes 2 (cfbEtype s) ++ helloBytes (helloOf s p)

/-- HELLO_TIMER. -/
def execHelloTimer (p : Nat) (s : State) : Res :=
  .next (iff_ (helloAllowed s p) (fun s => emit (.hello p (helloFrame s p)) (fabCnt p 0 s)) s)

/-- A hello matches the planned adjacency, or its sender is admitted (R308, R309). -/
def helloMatches (s : State) (p : Nat) (h : Hello) : Bool :=
  let a := (planAdj s p).getD {}
  (adjOf s p).admitted = some h.serial ||
  (h.fabricId = a.partnerId && (a.partnerSerial = 0 || a.partnerSerial = h.serial) &&
    (a.partnerPort = 1023 || a.partnerPort = h.port) && h.fabricId ≠ 255 && h.fabricId ≠ ownId s)

/-- The state that a valid hello gives its adjacency. A module without a fabric ID never reaches UP (R304). -/
def judged (s : State) (p : Nat) (h : Hello) : Nat :=
  if !helloMatches s p h then 4
  else if h.seenSerial = s.serial && h.seenPort = p && ownId s ≠ 255 then 3
  else 2

/-- A valid hello is recorded, with the notices its fields raise (R308). -/
def noteHello (p : Nat) (h : Hello) (s : State) : State :=
  let old := (adjOf s p).last
  let dup : Bool := h.fabricId = ownId s && ownId s ≠ 255
  let s := iff_ dup (fun s => post mgr 0x31 p (wordsOf 2 (leBytes 8 h.serial)) (pset .cfbStat 29 true s)) s
  let s := iff_ (old.any fun o => o.imageSeq ≠ h.imageSeq) (post mgr 0x32 p (wordsOf 2 (leBytes 8 h.imageSeq))) s
  setAdj p (fun a => { a with last := some h }) s

/-- The first hello with LEAVING of a partner that is not quarantined (R311, R316). -/
def firstLeaving (s : State) (p : Nat) (h : Hello) : Bool :=
  let a := adjOf s p
  h.leaving && judged s p h ≠ 4 && (a.state ≤ 1 || a.state = 4 || !a.last.any fun o => o.leaving)

/-! ## Link state (R93) -/

/-- Conditions of R93 other than alignment and the hello. -/
def portAllowed (s : State) (p : Nat) : Bool := p < 512 && portExists s p && hasPortNode s p && !portHeld s p

/-- Every condition of R93. -/
def portCanUp (s : State) (p : Nat) : Bool :=
  portAllowed s p && (port s p).aligned && (port s p).alignHeld && (!isFabric s p || (adjOf s p).state = 3)

/-- A port comes up: a hold ends and pulling resumes (R257, R258). -/
def portComesUp (p : Nat) (s : State) : State :=
  selectPort p (setPort p (fun q =>
    { q with up := true, remoteFault := false, hold := false, holdDone := false,
             rq := if q.hold then q.rq.map fun x => (x.1, { x.2 with held := true }) else q.rq }) s)

/-- A port that is down comes up once every condition holds. -/
def upIfReady (p : Nat) (s : State) : State := iff_ (portCanUp s p && !(port s p).up) (portComesUp p) s

/-- A hello that CFB takes and finds valid; it may be the last thing that its port waited for. -/
def takeHello (p : Nat) (h : Hello) (s : State) : State :=
  let st := judged s p h
  let leaves := firstLeaving s p h
  let s := upIfReady p (adjTo p st (noteHello p h (fabCnt p 1 s)))
  iff_ leaves (localFail p (moduleFail ((planAdj s p).getD {}).partnerId)) s

/-- HELLO_RECEIVE. -/
def execHelloReceive (p : Nat) (h : Hello) (s : State) : Res :=
  .next <| iff_ (isFabric s p && portExists s p && (port s p).aligned) (fun s =>
    if h.version ≠ 1 || h.payloadLen < 46 then fabCnt p 2 s else takeHello p h s) s

/-- HOLD_TIME_EXPIRY. -/
def execHoldTimeExpiry (p : Nat) (s : State) : Res :=
  .next (iff_ (isFabric s p && (adjOf s p).state ≠ 1) (adjLost p) s)

/-- FAIL_ADV_REPEAT: an originator of the failure in force repeats it. -/
def execFailAdvRepeat (s : State) : Res :=
  .next (iff_ (activeFail s ≠ 0 && s.cfb.originated.contains (activeFail s))
    (fun s => sendMgmt (upFabric s) 2 (beBytes 2 (activeFail s)) s) s)

/-- This module announces the repair that an adjacency's return makes (R312). -/
def announces (s : State) (p : Nat) : Bool :=
  let a := (planAdj s p).getD {}
  activeFail s ≠ 0 && (adjOf s p).state = 3 &&
  ((activeFail s = a.linkFailId && ownId s < a.partnerId) ||
   (activeFail s = moduleFail (ownId s) && (fabricPorts s).all fun q => (adjOf s q).state = 3))

/-- The revert time of a repair announced now. -/
def revertOf (s : State) : Time80 := Time80.ofNs (calBoundary (nowNs s + max 1 (rfld s .cfbRevert 0 0 15 0) * 1000000))

/-- REPAIR_STABLE. -/
def execRepairStable (p : Nat) (s : State) : Res :=
  .next <| iff_ (isFabric s p && announces s p) (fun s =>
    let id := activeFail s
    let t := revertOf s
    sendMgmt (upFabric s) 3 (beBytes 2 id ++ time10 t) { s with cfb := { s.cfb with revertId := id, revertAt := some t } }) s

/-- REVERT_TIME. -/
def execRevertTime (s : State) : Res :=
  .next <| iff_ s.cfb.revertAt.isSome (fun s =>
    let id := s.cfb.revertId
    let s := iff_ (activeFail s = id) (rset .cfbStat 0 0 11 0 0) s
    { s with cfb := { s.cfb with revertId := 0, revertAt := none, originated := s.cfb.originated.filter (· ≠ id) } }) s

/-! ## The leave lead (R318) -/

/-- Starts the lead: LEAVING in the hellos and FAIL_ADV for the module's own ID. -/
def startLead (l : Lead) (s : State) : State :=
  sendMgmt (upFabric s) 2 (beBytes 2 (moduleFail (ownId s)))
    { s with pwr := { s.pwr with lead := some l }, cfb := { s.cfb with leaving := true } }

/-- A commanded cold or warm reset follows the lead while the module runs; a second request acts at once. -/
def leadReset (cause : Nat) (cold : Bool) (s : State) : State :=
  let s := pset .pltRstCause cause true s
  if calRuns s && s.pwr.lead.isNone && !sagRunning s then startLead (.reset cold) s else arbitrate cause cold s

/-! ## Management frames (R313 to R315) -/

/-- Counts a management frame in its second; the frames beyond the thousandth are too many. -/
def rateCount (p : Nat) (s : State) : Bool × State :=
  let sec := s.tim.frc / 1000000000
  let old := tget s.cfb.rate p
  let n := if old.1 = sec + 1 then old.2 + 1 else 1
  (1000 < n, { s with cfb := { s.cfb with rate := tput s.cfb.rate p (sec + 1, n) } })

/-- TIME lies within the window of module time. -/
def inWindow (s : State) (t : Time80) : Bool :=
  let w := max 1 (rfld s .cfbAuth 0 0 15 0) * 1000000
  t.toNs ≤ nowNs s + w && nowNs s ≤ t.toNs + w

/-- The pair (ORIG, TIME) is newer than the last accepted from ORIG. -/
def newerPair (s : State) (m : Mgmt) : Bool := (tget s.cfb.newest m.orig).all fun t => t.toNs < m.time.toNs

/-- The counter of the check that a management frame fails (R314). -/
def mgmtFails (s : State) (m : Mgmt) : Option Nat :=
  if !hasKey s then some 5 else if !m.tagOk then some 3 else if !(inWindow s m.time && newerPair s m) then some 4 else none

/-- A body that R313 does not allow (R315). -/
def bodyBad (m : Mgmt) : Bool :=
  match m.type with
  | 2 => m.body.length ≠ 2
  | 3 => m.body.length ≠ 12
  | 4 => m.body.length ≠ 9 || 1 < byteAt m.body 0
  | _ => false

/-- Relays a FAIL_ADV or REPAIR_ADV with TARGET 255 on every other UP fabric-role port. -/
def relay (p : Nat) (m : Mgmt) (s : State) : State :=
  iff_ (m.target = 255) (forEach ((upFabric s).filter (· ≠ p)) (sendTo m)) s

/-- A repair takes effect at its T, or at the next calendar boundary where T is past. -/
def takeRepair (m : Mgmt) (s : State) : State :=
  let t : Time80 := ⟨beAt m.body 2 6, beAt m.body 8 4⟩
  iff_ (beAt m.body 0 2 ≠ 0 && activeFail s = beAt m.body 0 2) (fun s =>
    { s with cfb := { s.cfb with revertId := beAt m.body 0 2, revertAt := some (if t.toNs < nowNs s then Time80.ofNs (calBoundary (nowNs s)) else t) } }) s

/-- A RESET frame for this module's serial (R315). -/
def takeReset (p : Nat) (m : Mgmt) (s : State) : State :=
  iff_ (beAt m.body 1 8 = s.serial) (fun s => leadReset 7 (byteAt m.body 0 = 0) (rset .pltRstInfo 0 0 25 16 p s)) s

/-- MGMT_DATA goes to the manager's packet RX ring that the image names. -/
def takeData (p : Nat) (m : Mgmt) (s : State) : State :=
  match (img s).corridor.mgmtRing with
  | some r =>
    if ringExists s mgr r && (ringSt s mgr r).kind = 2 then deliverRx mgr r (mgmtBytes m) (mdSet 89 80 p 0) s else ringCnt mgr 0 7 1 s
  | none => ringCnt mgr 0 7 1 s

/-- An accepted management frame acts (R315); one of a TYPE that R313 does not list does nothing (log 93). -/
def actMgmt (p : Nat) (m : Mgmt) (s : State) : State :=
  let pair := (m.orig, m.time)
  let dup : Bool := s.cfb.seen.contains pair
  let s := { s with cfb := { s.cfb with newest := tput s.cfb.newest m.orig (some m.time), seen := (pair :: s.cfb.seen).take 256 } }
  if bodyBad m then fabCnt p 9 s
  else
    match m.type with
    | 2 => if dup then s else setFail p (beAt m.body 0 2) (relay p m s)
    | 3 => if dup then s else takeRepair m (relay p m s)
    | 4 => takeReset p m s
    | 5 => takeData p m s
    | _ => s

/-- A management frame that CFB has taken, checked and acted on. -/
def checkMgmt (p : Nat) (m : Mgmt) (s : State) : State :=
  match rateCount p s with
  | (true, s) => fabCnt p 6 s
  | (false, s) =>
    match mgmtFails s m with
    | some i => fabCnt p i s
    | none => actMgmt p m s

/-- CFB takes a frame addressed to this module or to the receiving neighbour (R307). -/
def takesMgmt (s : State) (m : Mgmt) : Bool := m.target = ownId s || m.target = 255

/-- MANAGEMENT_FRAME_RECEIVE: a quarantined port passes only TYPE 4 and 5 of those that CFB takes (R309). Any other one that is not
taken comes to the parser as a FRAME_ARRIVAL of its own (log 93). -/
def execManagementFrameReceive (p : Nat) (m : Mgmt) (s : State) : Res :=
  .next <| iff_ (isFabric s p && portExists s p && (port s p).aligned && m.type ≠ 1) (fun s =>
    if quarantined s p && !(takesMgmt s m && (m.type = 4 || m.type = 5)) then fabCnt p 7 s
    else iff_ (takesMgmt s m) (checkMgmt p m) s) s

/-- MGMT_PORT_FRAME_RX: CFB takes only RESET frames; the rest goes to the manager's MGMT ring (R315, R384). The management port needs
no host clock. -/
def execMgmtPortFrameRx (bytes : List Byte) (m : Option Mgmt) (s : State) : Res :=
  .next <| iff_ (3 ≤ stage s) (fun s =>
    match m with
    | some m =>
      if m.type = 4 && takesMgmt s m then
        match rateCount 528 s with
        | (true, s) => fabCnt 528 6 s
        | (false, s) => match mgmtFails s m with
          | some i => fabCnt 528 i s
          | none =>
            let s := { s with cfb := { s.cfb with newest := tput s.cfb.newest m.orig (some m.time) } }
            if bodyBad m then fabCnt 528 9 s else takeReset 1023 m s
      else toMgmtRing bytes s
    | none => toMgmtRing bytes s) s
where
  toMgmtRing (bytes : List Byte) (s : State) : State :=
    match findRing s mgr fun g => g.kind = 2 && g.mgmt with
    | some r => deliverRx mgr r bytes (mdSet 89 80 1023 0) s
    | none => ringCnt mgr 0 7 1 s

/-! ## Image commits and commands (R309, R317, R319) -/

/-- An adjacency is judged again against a new plan. -/
def rejudge (p : Nat) (s : State) : State :=
  match (adjOf s p).last with
  | some h => iff_ ((adjOf s p).state = 3 && !helloMatches s p h) (adjTo p 4) s
  | none => s

/-- Check 5 for a port (R342). -/
def portOut (s : State) (p : Nat) : Bool := tileDown s (portTile p) || (port s p).fenced

/-- FAB.ADMIT. -/
def execFabAdmit (c : Cmd) (s : State) : Res :=
  let p := opf c 4 9 0
  .next <| runCmd c 0x401 .manager [(!isFabric s p, stBAD_OPERAND), (portOut s p, stFENCED_UNIT)] (fun s =>
    let a := adjOf s p
    let serial := opBits c 5 2
    if a.state = 4 && a.last.any (fun h => h.serial = serial) then
      fin c stOK [] (setAdj p (fun a => { a with admitted := some serial }) s)
    else fin c stNOT_FOUND [] s) s

/-- FAB.EVICT. -/
def execFabEvict (c : Cmd) (s : State) : Res :=
  let p := opf c 4 9 0
  .next <| runCmd c 0x402 .manager [(512 ≤ p, stBAD_OPERAND), (portOut s p, stFENCED_UNIT)] (fun s =>
    if (adjOf s p).admitted.isSome then fin c stOK [] (setAdj p (fun a => { a with admitted := none }) s)
    else fin c stNOT_FOUND [] s) s

/-- FAB.RD. -/
def execFabRd (c : Cmd) (s : State) : Res :=
  let p := opf c 4 9 0
  .next <| runCmd c 0x403 .manager [(!isFabric s p, stBAD_OPERAND), (portOut s p, stFENCED_UNIT)] (fun s =>
    let a := adjOf s p
    let bytes := match a.last with
      | some h => helloBytes h
      | none => []
    fin c stOK ((5, pack [(2, 0, a.state), (3, 3, a.admitted.isSome.toNat)]) ::
      (List.range 10).map fun i => (6 + i, word (leNat ((bytes.drop (4 * i)).take 4)))) s) s

end Sys2Proof.Machine
end

