-- ==== Sys2Proof/Machine/Ports.lean ====
section
/-! DEFINITION. Ports, lane groups, cages and their I2C buses (R41, R89 to R95, R104 to R110, R257, R258), PORT.MODE and the CMIS
commands. -/
namespace Sys2Proof.Machine

/-! ## Link state (R93, R94) -/


/-- A port is no longer held down, unless its fence, its pipeline's, its group's shedding or clock holds it (R94). -/
def portRelease (p : Nat) (s : State) : State :=
  setPort p (fun q => { q with
    heldDown := q.fenced || groupShed s (p / 8) || isFenced s (unitId 2 (p / 8)) || s.flt.clkBad.contains (p / 8) }) s

/-- PCS_ALIGNMENT_HELD: 10 ms since alignment and every condition before it hold; a fabric-role port may still wait for its hello. -/
def execPcsAlignmentHeld (p : Nat) (s : State) : Res :=
  .next <| iff_ (portAllowed s p && (port s p).aligned) (fun s => upIfReady p (setPort p (fun q => { q with alignHeld := true }) s)) s

/-- PCS_ALIGNMENT_ACQUIRED. -/
def execPcsAlignmentAcquired (p : Nat) (s : State) : Res :=
  .next <| iff_ (p < 512 && portExists s p && tileRunning s (p / 64))
    (setPort p fun q => { q with aligned := true, signal := true, remoteFault := false }) s

/-- PORT_DOWN_DETECT: a running port is declared down; the port of a fabric role loses its adjacency. -/
def execPortDownDetect (p : Nat) (los : Bool) (s : State) : Res :=
  .next <| iff_ (p < 512 && ((port s p).up || (port s p).aligned)) (fun s =>
    let was := (port s p).up
    let s := setPort p (fun q => { q with aligned := false, alignHeld := false, signal := !los }) s
    let s := iff_ was (fun s =>
      setPort p (fun q => { q with remoteFault := true }) (portGoDown p false (portCnt p (if los then 37 else 38) 1 s))) s
    adjLost p s) s

/-- PORT_HOLD_EXPIRY. -/
def execPortHoldExpiry (p : Nat) (s : State) : Res :=
  .next <| iff_ ((port s p).hold && !(port s p).up) (fun s =>
    retryWaits (portTile p) (flushPort p (setPort p (fun q => { q with hold := false, holdDone := true }) s))) s

/-- A second has passed since a port's latest PORT_FEC_DEGRADED. -/
def fecDue (s : State) (p : Nat) : Bool := (port s p).fecNotice.all fun x => x + 1000000000 ≤ s.tim.frc

/-- PORT_FEC_DEGRADED, at most once a second per port (R95). -/
def fecNotice (p symbols : Nat) (s : State) : State :=
  iff_ ((group s (p / 8)).mode ≤ 7 && tget (img s).ports.fecThresh (p / 8) < symbols && fecDue s p) (fun s =>
    post mgr 0x10 p [word symbols] (setPort p (fun q => { q with fecNotice := some s.tim.frc }) s)) s

/-- FEC_WINDOW_END. -/
def execFecWindowEnd (p cw corr uncorr symbols : Nat) (s : State) : Res :=
  .next <| iff_ (p < 512 && portExists s p && (port s p).aligned) (fun s =>
    fecNotice p symbols (portCnt p 35 symbols (portCnt p 34 uncorr (portCnt p 33 corr (portCnt p 32 cw s))))) s

/-! ## Cages (R104 to R109) -/

/-- CAGE_CNT of the options. -/
def cageCount (s : State) : Nat := optByte s 8

/-- Power admitted on a tile (PRT_CAGE_BUDGET.ADMITTED). -/
def cageAdmitted (s : State) (t : Nat) : Nat :=
  ((List.range 8).map fun i => if (cage s (t * 8 + i)).state = 2 then (cage s (t * 8 + i)).power else 0).foldl (· + ·) 0

def cageBudget (s : State) (t : Nat) : Nat := rfld s .prtCageBudget t 0 15 0

/-- A cage notice. -/
def cageNote (typ c : Nat) : State → State := post mgr typ c []

/-- The module drives a cage's pins. -/
def cagePins (c : Nat) (rstLow lpmode : Bool) (s : State) : State :=
  emit (.cagePins c rstLow lpmode) (setCage c (fun x => { x with rstLow := rstLow, lpmode := lpmode }) s)

/-- The module writes the control byte of the cage's I2C switch before it accesses the cage: one bit set (R53). -/
def selectCage (c : Nat) : State → State := emit (.i2cSelect (c / 8) (2 ^ (c % 8)))

/-- Step 5: the optic is admitted, leaves low power unless its group is shed, and its data path starts in the application of the mode
(R105). -/
def admitCage (c : Nat) (s : State) : State :=
  let s := cagePins c false (groupShed s c) (setCage c (fun x => { x with state := 2 }) s)
  cageNote 0x19 c (emit (.dataPathInit c) (emit (.cageApp c (group s c).mode) (emit (.lowPwrClear c) (selectCage c s))))

/-- The optic fits its tile's budget; a budget of 0 denies every optic (R107). -/
def cageFits (s : State) (c : Nat) : Bool :=
  cageBudget s (c / 8) ≠ 0 && cageAdmitted s (c / 8) + (cage s c).power ≤ cageBudget s (c / 8)

/-- Step 4: the optic is checked against its group's mode and the budget; a rejected one is in low power (R106). -/
def decideCage (c : Nat) (s : State) : State :=
  let x := cage s c
  let refuse (st typ : Nat) : State :=
    cageNote typ c (setCage c (fun x => { x with state := st }) (iff_ (!x.lpmode) (cagePins c x.rstLow true) s))
  if !x.identCmis || x.cmisRev < 40 then refuse 3 0x1C
  else if !x.apps.contains (group s c).mode then refuse 4 0x1D
  else if !cageFits s c then refuse 5 0x1E
  else admitCage c s

/-- Denied cages of a tile are reconsidered in ascending number (R107). -/
def reconsider (t : Nat) (s : State) : State :=
  forEach (List.range 8) (fun i s =>
    let c := t * 8 + i
    iff_ ((cage s c).state = 5 && cageFits s c) (admitCage c) s) s

/-- A group's ports go down with their optic's removal, squelched and without alignment, and with them their adjacencies. -/
def groupDown (g : Nat) (s : State) : State :=
  forEach (groupPorts s g) (fun p s =>
    adjLost p (setPort p (fun q => { q with aligned := false, signal := false }) (portGoDown p false (squelch p s)))) s

/-- An optic is inserted: step 1. -/
def insertCage (c : Nat) (s : State) : State :=
  cagePins c false true (cageNote 0x18 c (setCage c (fun x => { x with present := true, state := 1 }) s))

/-- An optic is removed (R108). -/
def removeCage (c : Nat) (s : State) : State :=
  let s := groupDown c s
  let s := setCage c (fun x => { x with present := false, state := 0, power := 0, apps := [], identCmis := false, cmisRev := 0 }) s
  reconsider (c / 8) (cageNote 0x1A c (cagePins c true true s))

/-- Steps 3 and 4 of a ready optic. -/
def readCage (c : Nat) (x : CageSample) (s : State) : State :=
  decideCage c (setCage c (fun y => { y with power := x.power, apps := x.apps, identCmis := x.identCmis, cmisRev := x.cmisRev }) s)

/-- The module polls a cage (R104, R110). -/
def cagePolled (s : State) (c : Nat) : Bool :=
  c < 64 && c < cageCount s && calRuns s && tileRunning s (c / 8) && !(tget s.i2c (c / 8)).stopped

/-- What a poll finds beyond a change of presence: a ready optic, a flagged interrupt (R105, R109). -/
def pollOptic (c : Nat) (x : CageSample) (s : State) : State :=
  let s := iff_ ((cage s c).present && !x.nack && x.moduleReady && (cage s c).state = 1) (readCage c x) s
  iff_ ((cage s c).present && !x.nack && x.intLow) (post mgr 0x1F c (wordsOf 8 (x.flags.take 32))) s

/-- CAGE_POLL. -/
def execCagePoll (c : Nat) (x : CageSample) (s : State) : Res :=
  .next <| iff_ (cagePolled s c) (fun s =>
    let change : Bool := x.present ≠ (cage s c).present && (cage s c).lastSample = x.present
    let s := setCage c (fun y => { y with lastSample := x.present }) s
    if change then (if x.present then insertCage c s else removeCage c s)
    else pollOptic c x (iff_ (cage s c).present (selectCage c) s)) s

/-- CAGE_READY_TIMEOUT. -/
def execCageReadyTimeout (c : Nat) (s : State) : Res :=
  .next <| iff_ ((cage s c).state = 1) (fun s =>
    cageNote 0x1B c (cagePins c true true (setCage c (fun x => { x with state := 6 }) s))) s

/-- I2C_SDA_STUCK: a recovery, and the fault where it fails; on a bus whose polling has stopped the event only says how SDA
stands (R110). -/
def execI2cSdaStuck (bus : Nat) (stuck : Bool) (s : State) : Res :=
  .next <| iff_ (bus < 8 && calRuns s) (fun s =>
    if (tget s.i2c bus).stopped then { s with i2c := tupd s.i2c bus fun b => { b with sdaLow := stuck } }
    else
    let s := emit (.i2cPulses bus) s
    if stuck then report (unitId 10 bus) 0x0105 0 0 { s with i2c := tput s.i2c bus { sdaLow := true, stopped := true } }
    else { s with i2c := tupd s.i2c bus fun b => { b with sdaLow := false } }) s

/-! ## PORT.MODE (R90) -/

/-- The ports of a mode after a change, down and without a history. Their transmit AN starts at 0 again, while the associations that
are installed stay (DESIGN CHOICE, log 92). -/
def freshPorts (g : Nat) (s : State) : State :=
  forEach (List.range 8) (fun i => setPort (g * 8 + i) fun q =>
    { (default : Port) with fenced := q.fenced, heldDown := q.fenced, holdDone := true, fecNotice := q.fecNotice }) s

/-- A lane group that the manager enables while it is shed counts as enabled (R41). -/
def markEnabled (g mode : Nat) (s : State) : State :=
  let rest := s.pwr.shedEnabled.filter fun x => x ≠ g
  { s with pwr := { s.pwr with shedEnabled := if s.pwr.thermShed.contains g && mode ≠ 15 then g :: rest else rest } }

/-- The mode and FEC of a group take effect; its optic goes through steps 4 and 5 again (R106). -/
def setMode (g mode fec : Nat) (s : State) : State :=
  let s := forEach (groupPorts s g) (fun p s => adjLost p (portHoldDown p true s)) s
  let s := freshPorts g <| markEnabled g mode { s with groups := tput s.groups g { mode := mode, fec := if mode = 15 then 3 else fec } }
  let st := (cage s g).state
  iff_ (2 ≤ st && st ≤ 5) (fun s => reconsider (g / 8) (decideCage g (setCage g (fun x => { x with state := 1 }) s))) s

/-- A lane group is out of service (R342). -/
def groupOut (s : State) (g : Nat) : Bool := tileDown s (g / 8) || isFenced s (unitId 8 g)

/-- PORT.MODE. -/
def execPortMode (c : Cmd) (s : State) : Res :=
  let g := opf c 4 5 0
  let mode := opf c 5 3 0
  .next <| runCmd c 0x2C1 .manager [(!modeOk mode (opf c 5 5 4), stBAD_OPERAND), (groupOut s g, stFENCED_UNIT)]
    (fun s => fin c stOK [] (setMode g mode (opf c 5 5 4) s)) s

/-! ## Optic memory (R109, R110) -/

/-- The requester owns every port of a cage's lane group. -/
def ownsGroup (s : State) (req g : Nat) : Bool := req = mgr || (groupPorts s g).all fun p => ownsPort s req p

/-- Checks of a CMIS command. -/
def cmisChecks (c : Cmd) (s : State) : List (Bool × Nat) :=
  let g := opf c 4 5 0
  [(opf c 6 7 0 = 0 || 128 < opf c 6 7 0 || 256 < opf c 5 23 16 + opf c 6 7 0 || cageCount s ≤ g, stBAD_OPERAND),
   (!ownsGroup s c.req g, stNO_PERMISSION),
   (groupOut s g || (tget s.i2c (g / 8)).stopped, stFENCED_UNIT)]

/-- PORT.CMIS_RD; an absent optic, and one that answers NACK, completes NOT_FOUND (log 24). -/
def execPortCmisRd (c : Cmd) (optic : Option (List Byte)) (s : State) : Res :=
  .next <| runCmd c 0x2C5 .any (cmisChecks c s) (fun s =>
    let s := iff_ (cage s (opf c 4 5 0)).present (selectCage (opf c 4 5 0)) s
    match if (cage s (opf c 4 5 0)).present then optic else none with
    | none => fin c stNOT_FOUND [] s
    | some bs =>
      if c.wrOk then fin c stOK [] (emitHost (.hostWrite c.req (opAddr c 10) (bs.take (opf c 6 7 0))) s) else fin c stSQUASHED [] s) s

/-- Byte n of a page that a CMIS write covers. -/
def cmisCovers (c : Cmd) (page n : Nat) : Bool :=
  (n < 128 || opf c 5 7 0 = page) && opf c 5 23 16 ≤ n && n < opf c 5 23 16 + opf c 6 7 0

/-- Controls that the module owns: reset and low power in byte 26 of the lower page, application select in bytes 143 to 152 of
page 10h (PRESUMED from CMIS; log 24). -/
def ownedControl (c : Cmd) : Bool := cmisCovers c 0 26 || (List.range 10).any fun i => cmisCovers c 0x10 (143 + i)

/-- PORT.CMIS_WR. -/
def execPortCmisWr (c : Cmd) (optic : Bool) (s : State) : Res :=
  .next <| runCmd c 0x2C6 .any ((cmisChecks c s).take 2 ++ [(ownedControl c, stNO_PERMISSION)] ++ (cmisChecks c s).drop 2) (fun s =>
    match c.data with
    | none => fin c stSQUASHED [] s
    | some bs =>
      let s := iff_ (cage s (opf c 4 5 0)).present (selectCage (opf c 4 5 0)) s
      if !((cage s (opf c 4 5 0)).present && optic) then fin c stNOT_FOUND [] s
      else fin c stOK [] (emit (.cmisWrite (opf c 4 5 0) (opf c 5 7 0) (opf c 5 23 16) (bs.take (opf c 6 7 0))) s)) s

end Sys2Proof.Machine
end

