-- ==== Sys2Proof/Machine/Images.lean ====
section
/-! DEFINITION. Images (14_images.md): the checks of R323, the load at start, the hitless commit, the IMG commands. -/
namespace Sys2Proof.Machine

/-! ## Validity (R321, R323) -/

/-- Length of the header and the signature, and of a slot. -/
def minImage : Nat := 736
def slotSize : Nat := 268435456

def sectFits (i : Image) : Bool := i.sections.all fun e => e.offset + e.size ≤ i.length

/-- Two sections lie apart. -/
def apart (a b : SectEntry) : Bool := a.offset + a.size ≤ b.offset || b.offset + b.size ≤ a.offset

def sectsApart : List SectEntry → Bool
  | [] => true
  | e :: l => l.all (apart e) && sectsApart l

/-- Each required type exactly once, and no REQUIRED entry of an unknown type. -/
def typesOk (i : Image) : Bool :=
  ((List.range 11).all fun k => (i.sections.filter fun e => e.type = k + 1).length = 1) &&
  i.sections.all fun e => !e.required || (1 ≤ e.type && e.type ≤ 11)

/-- A certificate installed in NVM verifies on this module. -/
def certOk (s : State) (k : Option Nat) : Bool := k = none || k = some s.serial

/-- An image key is installed and its certificate verifies (R324). -/
def keyOk (s : State) : Bool := s.nvm.imgKey.any (certOk s)

def flatTab (t : Tab Nat) : List Nat := t.length :: t.flatMap fun x => [x.1, x.2]
def flatOpt (o : Option Nat) : Nat := match o with
  | some n => n + 1
  | none => 0

/-- What BOOT_DIGEST covers (R321). -/
def digestInput (i : Image) : List Nat :=
  let p := i.ports
  [i.sliceCnt, i.fabricId] ++ i.pools ++ (p.modes.length :: p.modes.flatMap fun x => [x.1, x.2.1, x.2.2]) ++ flatTab p.polarity ++
  flatTab p.laneOrder ++ flatTab p.fecThresh ++ flatTab p.macsec ++ flatTab p.owner ++
  (p.holds.length :: p.holds.flatMap fun x => [x.1, flatOpt x.2]) ++ flatTab p.budget ++
  (p.leafBase.length :: p.leafBase.flatMap fun x => [x.1, flatOpt x.2]) ++ [i.corridor.etype.getD 0x88B5, i.corridor.keySlot]

/-- SHED_ORDER names lane groups 0-63, each once. -/
def shedOk (i : Image) : Bool := i.shedOrder.length = 64 && (List.range 64).all i.shedOrder.contains

/-- Counts of the pools: the image's, or the default counts of R249. -/
def poolOf (i : Image) (k : Nat) : Nat := i.pools.getD k ([4096, 2048, 512, 307].getD k 0)

def poolBytes (i : Image) : Nat := ((List.range 4).map fun k => poolOf i k * poolSize k).foldl (· + ·) 0

def entryOk (e : GateEntry) : Bool := 1 ≤ e.interval && e.interval ≤ 1000000000

/-- A gate list within R293. -/
def listOk (most : Nat) (l : GateList) : Bool :=
  l.count ≤ most && (l.count = 0 ||
    (1000 ≤ l.cycle && l.cycle ≤ 1000000000 && timeOk l.base && (List.range l.count).all fun i => entryOk (tget l.entries i)))

/-- Node settings within R281. -/
def nodeOk (n : NodeCfg) : Bool :=
  n.prio ≤ 7 && 1 ≤ n.weight && n.weight ≤ 255 && n.lenProf ≤ 15 && n.cir ≤ 800000 && n.pir ≤ 800000 && n.cbs ≤ 16777215 &&
  n.pbs ≤ 16777215 && n.maxRes ≤ 65535

/-- Slots of a kind on link j of a tile's calendar. -/
def kindCount (i : Image) (t cal j kind : Nat) : Nat :=
  let lo := (t * 9 + cal) * 15625
  (i.cal.slots.filter fun x => lo ≤ x.1 && x.1 < lo + 15625 && fld x.2 (4 * j - 3) (4 * j - 4) = kind).length

/-- Every link of a calendar that runs holds the slot counts of R212. -/
def calOk (i : Image) (t cal : Nat) : Bool :=
  cal = t || (List.range 7).all fun j =>
    (t + j + 1) % 8 = cal || (kindCount i t cal (j + 1) 1 = 6250 && kindCount i t cal (j + 1) 2 = 6250 && kindCount i t cal (j + 1) 3 = 3125)

/-- Every replication queue's weight is within R281. -/
def rqOk (i : Image) : Bool :=
  i.queues.ports.all fun p => (List.range 8).all fun c => 1 ≤ tget i.queues.rqWeights (p * 8 + c) && tget i.queues.rqWeights (p * 8 + c) ≤ 255

/-- The contents of an image are within range. -/
def contentsOk (i : Image) : Bool :=
  shedOk i && Config.bootDigest (digestInput i) = i.bootDigest && poolBytes i ≤ 8388608 &&
  (i.queues.lenProfs.all fun x => -32 ≤ x.2 && x.2 ≤ 63) && ((List.range 8).all fun t => (List.range 9).all (calOk i t)) &&
  (i.gates.ports.all fun x => listOk 256 x.2) && (i.gates.sgates.all fun x => listOk 16 x.2) &&
  (i.queues.nodes.all fun x => nodeOk x.2) && rqOk i && i.ports.modes.all fun x => modeOk x.2.1 x.2.2

/-- REASON of the first check that an image fails, 0 when all pass. `staged`: the IMG.STAGE length, for a check at staging. -/
def imageReason (s : State) (staged : Option Nat) (i : Image) : Nat :=
  (firstFail [
    (i.magic ≠ 0x41565A44 || i.version ≠ 1 || i.sections.length < 11 || 32 < i.sections.length, 1),
    (slotSize < i.length || staged.any (· ≠ i.length) || !sectFits i || !sectsApart i.sections, 2),
    (!i.crcOk, 3),
    (i.sections.any fun e => !e.scrcOk, 4),
    (!typesOk i, 5),
    (!keyOk s, 7),
    (!i.sigOk, 6),
    (staged.isSome && s.img.run.any fun r => !newer 64 i.seq.toNat r.seq.toNat, 8),
    (i.sliceCnt ≠ optByte s 1, 9),
    (!contentsOk i, 0xA)]).getD 0

/-- REASON of a slot; an erased one has no MAGIC. -/
def slotReason (s : State) (x : Option Image) : Nat := match x with
  | some i => imageReason s none i
  | none => 1

/-! ## PLT_IMG_STAT -/

def imgBit (b : Nat) (v : Bool) : State → State := pset .pltImgStat b v

def setReason (r : Nat) : State → State := rset .pltImgStat 0 0 15 8 r

def setStaged : Bool → State → State := imgBit 2

def setCommitBit : Bool → State → State := imgBit 3

def checkKey (s : State) : State := imgBit 4 (keyOk s) s

/-- A slot's contents; `true` is slot B. -/
def imgIn (s : State) (b : Bool) : Option Image := if b then s.nvm.slotB else s.nvm.slotA

def putImg (b : Bool) (x : Option Image) (s : State) : State :=
  { s with nvm := if b then { s.nvm with slotB := x } else { s.nvm with slotA := x } }

/-- A slot's latest finding: its valid bit, and REASON where it is invalid. -/
def foundSlot (b : Bool) (r : Nat) (s : State) : State := iff_ (r ≠ 0) (setReason r) (imgBit b.toNat (r = 0) s)

def imgSlot (s : State) : Bool := pbit s .pltBootStat 10

/-- Examines a slot. -/
def examine (b : Bool) (s : State) : State := foundSlot b (slotReason s (imgIn s b)) s

/-- Slot choice of R85; `none` when no slot qualifies. -/
def chosenSlot (s : State) : Option Bool :=
  let ok (b : Bool) : Bool := slotReason s (imgIn s b) = 0
  let seq (b : Bool) : Nat := match imgIn s b with
    | some i => i.seq.toNat
    | none => 0
  match optByte s 3 with
  | 1 => if ok false then some false else none
  | 2 => if ok true then some true else none
  | _ =>
    if ok false && ok true then some (newer 64 (seq true) (seq false))
    else if ok false then some false
    else if ok true then some true
    else none

/-- Examines the slots that the policy names, in order. -/
def examineSlots (s : State) : State :=
  let s := checkKey s
  match optByte s 3 with
  | 1 => examine false s
  | 2 => examine true s
  | _ => examine true (examine false s)

/-! ## Values that the image gives registers -/

/-- The replication weights of four classes of a port. -/
def rqWord (i : Image) (p lo : Nat) : Word :=
  pack ((List.range 4).map fun k => (8 * k + 7, 8 * k, tget i.queues.rqWeights (p * 8 + lo + k)))

/-- Port number of SCH_RQ_WEIGHT index q of a tile. -/
def rqPort (t q : Nat) : Nat := if q < 64 then t * 64 + q else 512 + t + 8 * (q - 64)

/-- Registers of a tile that every image sets, at start and at a commit. -/
def swapRegs (t : Nat) (i : Image) (s : State) : State :=
  let s := forEach (List.range 64) (fun n => rput .parProf t n (tget i.parse.prof (t * 64 + n))) s
  let s := forEach (List.range 64) (fun n => rput .parPortProf t n (tget i.parse.portProf (t * 64 + n))) s
  let s := forEach (List.range 2) (fun n => rput .parHostProf t n (tget i.parse.hostProf (t + 8 * n))) s
  forEach (List.range 66) (fun q s => rput .schRqWeightHi t q (rqWord i (rqPort t q) 4) (rput .schRqWeightLo t q (rqWord i (rqPort t q) 0) s)) s

/-- Thresholds of TCM_THROTTLE that an image gives. -/
def loadThresholds (t : Nat) (i : Image) (s : State) : State :=
  match tget i.slabs.thresholds t with
  | some (a, b, c) => rset .tcmThrottle t 0 7 0 a (rset .tcmThrottle t 0 15 8 b (rset .tcmThrottle t 0 23 16 c s))
  | none => s

/-- START mode and its groups (R185). -/
def startMode (t : Nat) (i : Image) : State → State := setBank t 1 ((tget i.slabs.startGroups t).getD 1)

/-- Registers of a tile that an image sets only at a start or when the tile rejoins. -/
def bootRegs (t : Nat) (i : Image) (s : State) : State :=
  let s := loadThresholds t i (startMode t i (rset .prtCageBudget t 0 15 0 (tget i.ports.budget t) s))
  let s := forEach (List.range 4) (fun k s => rset .bufPoolFree t k 31 16 (poolOf i k) (rset .bufPoolCfg t k 15 0 (poolOf i k) s)) s
  forEach (List.range 64) (fun l => rset .bufPortHold t l 9 0 ((tget i.ports.holds (t * 64 + l)).getD 50)) s

/-- Every register of a tile that holds an image value. -/
def tileRegs (t : Nat) (i : Image) (s : State) : State := bootRegs t i (swapRegs t i s)

/-- HELLO_US. -/
def helloReg (i : Image) (s : State) : State := match i.corridor.helloUs with
  | some n => rset .cfbTimers 0 0 31 16 n s
  | none => s

/-! ## The load at start (R87 step 6, R322) -/

/-- A node with full counts. -/
def freshNode (s : State) (c : NodeCfg) : Node :=
  if c = default then default else { cfg := c, c := ((c.cbs * 65536 : Nat) : Int), p := ((c.pbs * 65536 : Nat) : Int), at_ := s.tim.frc }

/-- Full buckets of the image's policers in every tile. -/
def fullPols (s : State) (i : Image) : Tab PolCount :=
  (List.range 8).foldl (fun m t => i.tables.policers.foldl (fun m x =>
    tput m (polKey t x.1) { b1 := x.2.burst1 * 65536, b2 := x.2.burst2 * 65536, at_ := s.tim.frc }) m) []

/-- A list in force from its base time on. -/
def activeGate (s : State) (l : GateList) (bind : Option (Nat × Nat)) : Gate :=
  let n := List.range l.count
  let now := cycleOffset l (nowNs s)
  { active := l, bind := bind, entry := ((n.filter fun k => entryStart l k ≤ now && entryLen l k ≠ 0).getLast?).getD 0 }

/-- Tables of the action stage, streams, policers, the tree and the gate lists of an image. -/
def loadSched (i : Image) (s : State) : State :=
  { s with
    act := { (default : Act) with
      nextHops := i.tables.nextHops, groups := i.tables.groups, buckets := i.tables.buckets, mcast := i.tables.mcast,
      mirrors := i.tables.mirrors }
    sch := { (default : Sched) with
      nodes := i.queues.nodes.foldl (fun m x => tput m x.1 (freshNode s x.2)) []
      policers := i.tables.policers
      polCounts := fullPols s i
      streams := i.tables.streams.foldl (fun m x => tput m x.1 (frerFresh x.2)) []
      gates := i.gates.ports.foldl (fun m x => tput m x.1 (activeGate s x.2 none)) []
      sgates := i.gates.sgates.foldl (fun m x => tput m x.1 (activeGate s x.2 (tget i.gates.sgBind x.1))) [] } }

/-- Lane groups of an image; a group it does not list stays unused. -/
def loadGroups (i : Image) (s : State) : State :=
  { s with groups := i.ports.modes.foldl (fun m x =>
      tput m x.1 { mode := x.2.1, fec := if x.2.1 = 15 then 3 else x.2.2 }) [] }

/-- The image is distributed to every tile. -/
def loadImage (i : Image) (s : State) : State :=
  let s := { s with img := { (default : ImgState) with run := some i }, lpm := [], trie := {}, tblBad := [] }
  let s := forEach i.tables.prefixes lpmPut s
  let s := exmLoad i.tables.exm { s with exm := { s.exm with entries := [], headers := [], late := [], gen := [], learn := [] } }
  let s := loadRows (fun _ _ => true) (loadGroups i (loadSched i s))
  helloReg i (forEach (List.range 8) (fun t => tileRegs t i) s)

/-! ## The hitless commit (R325 to R327, R317) -/

/-- A commit is pending. -/
def commitPending (s : State) : Bool := s.img.shadow.isSome

/-- A gate commit is pending anywhere. -/
def gatePending (s : State) : Bool := (s.sch.gates.any fun x => x.2.pending.isSome) || s.sch.sgates.any fun x => x.2.pending.isSome

/-- A table whose key width or seed changes. -/
def rekeyed (a b : Image) (n : Nat) : Bool :=
  (tget a.exm.tables n).keyBytes ≠ (tget b.exm.tables n).keyBytes || (tget a.exm.tables n).seed ≠ (tget b.exm.tables n).seed

/-- A table loses every entry: its generation moves on and its learn-filter entries are released; nothing is journalled. -/
def emptyTable (n : Nat) (s : State) : State :=
  let s := forEach (s.exm.entries.filter fun x => x.2.table = n) (fun x => exmClear x.1) s
  { s with exm := { s.exm with
      learn := s.exm.learn.filter fun l => l.table ≠ n, gen := tupd s.exm.gen n fun g => (g + 1) % 4096 } }

/-- A root whose family changes loses every prefix. -/
def swapRoots (a b : Image) (s : State) : State :=
  forEach ((List.range 32).filter fun r => (tget a.exm.roots r).ip6 ≠ (tget b.exm.roots r).ip6) clearRoot s

/-- The keys of two tables. -/
def keysOf {α β : Type} (a : Tab α) (b : Tab β) : List Nat := (a.map (·.1) ++ b.map (·.1)).eraseDups

/-- A node at the swap: unchanged settings keep the counts; deficits start at 0. -/
def swapNode (s : State) (c : NodeCfg) (n : Node) : Node := if n.cfg = c then { n with deficit := 0 } else freshNode s c

def swapNodes (i : Image) (s : State) : State :=
  { s with
    sch := { s.sch with nodes := (keysOf s.sch.nodes i.queues.nodes).foldl (fun m k =>
      tput m k (swapNode s (tget i.queues.nodes k) (tget s.sch.nodes k))) [] }
    ports := tmap (fun _ (p : Port) => { p with rqDeficit := [] }) s.ports }

/-- Frames of leaves that the swap leaves without a parent are evicted. -/
def evictOrphans (s : State) : State :=
  forEach (s.fab.notices.filter fun n => (parent s 3 n.leaf).isNone && !isReplLeaf s n.leaf)
    (fun n s => dropLeaf n.leaf 4 32 (evictNote (leafTile n.leaf) n s)) s

/-- A gate takes an image's list: pending from the first cycle start at or after T. -/
def gateTakes (t : Nat) (l : GateList) (g : Gate) : Gate := { g with pending := some l, switchAt := Time80.ofNs (nextCycle l t) }

def swapGates (i : Image) (t : Nat) (s : State) : State :=
  let s := forEach i.gates.ports (fun x => setGate x.1 (gateTakes t x.2)) s
  let s := forEach i.gates.sgates (fun x => setSgate x.1 (gateTakes t x.2)) s
  forEach (keysOf s.sch.sgates i.gates.sgBind) (fun g => setSgate g fun x => { x with bind := tget i.gates.sgBind g }) s

/-- Adjacencies against the new plan; a port that plans none has none, but keeps its admission (R309). -/
def swapAdjs (s : State) : State :=
  forEach (s.cfb.adj.map (·.1)) (fun p s => if isFabric s p then rejudge p s else setAdj p (fun a => { admitted := a.admitted }) s) s

/-- The image that runs after a commit: contents that apply only at a start stay. -/
def merged (old new : Image) : Image := { new with ports := old.ports, pools := old.pools }

/-- The commit takes effect. -/
def commitNow (new : Image) (s : State) : State :=
  let old := img s
  let t := s.img.commitAt.toNs
  let bank := if s.img.calSwapped then s.img.other else bankOf old
  let s := forEach ((runningTiles s).filter (swapPending s)) swapBank s
  let s := { s with img := { (default : ImgState) with run := some (merged old new), other := bank } }
  let s := forEach ((List.range 16).filter (rekeyed old new)) emptyTable s
  let s := evictOrphans (swapNodes new (swapRoots old new s))
  let s := swapGates new t (helloReg new s)
  let s := forEach (runningTiles s) (fun t s => swapRegs t new (rset .parStat t 0 1 1 (1 - rfld s .parStat t 0 1 1) s)) s
  let s := swapAdjs (pset .pltBootStat 10 (!imgSlot s) (setStaged false (setCommitBit false s)))
  let s := post mgr 0x38 (imgSlot s).toNat (wordsOf 2 (leBytes 8 new.seq.toNat)) s
  forEach (runningTiles s) selectTile s

/-- IMG_COMMIT_SWAP. -/
def execImgCommitSwap (s : State) : Res :=
  .next <| match s.img.shadow with
    | some i => commitNow i s
    | none => s

/-- A tile takes the schedule of a pending swap. -/
def scheduleSwap (t : Nat) (at_ : Time80) (s : State) : State :=
  rset .latCalStat t 0 1 1 1 (rput .latCommitNs t 0 (word at_.ns) (rput .latCommitSec t 0 (word at_.sec) s))

/-- A pending commit ends without effect and the shadows are empty. -/
def dropCommit (s : State) : State :=
  forEach (List.range 8) (fun t => rset .latCalStat t 0 1 1 0)
    (setCommitBit false { s with img := { s.img with shadow := none, other := {}, calSwapped := false } })

/-! ## The IMG commands (R325, R328) -/

/-- The slot that is not running: the one IMG_POLICY names while no image runs (R328). -/
def idleSlot (s : State) : Bool := if stage s = 0x81 then optByte s 3 = 2 else !imgSlot s

/-- An image whose MAGIC is erased. -/
def noMagic (i : Image) : Image := { i with magic := 0xFFFFFFFF }

/-- Erases the idle slot. -/
def eraseIdle (s : State) : State := setStaged false (imgBit (idleSlot s).toNat false (putImg (idleSlot s) none s))

/-- The idle slot takes bytes and is checked. -/
def stageImage (c : Cmd) (i : Image) (s : State) : State :=
  let s := checkKey s
  let b := idleSlot s
  match imageReason s (some (opw c 6).toNat) i with
  | 0 => fin c stOK [] (setStaged true (foundSlot b 0 (putImg b (some i) s)))
  | r => fin c stIMAGE_INVALID [] (foundSlot b r (putImg b (some (noMagic i)) s))

/-- IMG.STAGE; `img` is what the bytes spell, `none` for bytes that are no image. -/
def execImgStage (c : Cmd) (img : Option Image) (s : State) : Res :=
  let len := (opw c 6).toNat
  .next <| runCmd c 0x381 .manager [(len < minImage || slotSize < len, stBAD_OPERAND), (commitPending s, stLOCK_BUSY)] (fun s =>
    let s := eraseIdle s
    if c.cut.isSome then putImg (idleSlot s) (img.map noMagic) s
    else match c.data with
    | none => fin c stSQUASHED [] s
    | some _ => stageImage c (img.getD {}) s) s

/-- The image staged in the idle slot. -/
def stagedImage (s : State) : Option Image := if pbit s .pltImgStat 2 then imgIn s (idleSlot s) else none

/-- The shadows are loaded and the swap is scheduled. -/
def schedule (c : Cmd) (i : Image) (s : State) : State :=
  let t := opTime c 4
  let s := { s with img := { s.img with shadow := some i, commitAt := t, calSwapped := false, other := bankOf i } }
  fin c stOK [] (forEach (runningTiles s) (fun k => scheduleSwap k t) (setCommitBit true s))

/-- IMG.COMMIT. -/
def execImgCommit (c : Cmd) (late : Bool) (s : State) : Res :=
  let t := opTime c 4
  .next <| runCmd c 0x382 .manager
    [(!timeOk t || t.toNs % 16000 ≠ 0, stBAD_OPERAND), (commitPending s || gatePending s, stLOCK_BUSY), (timePassed s t, stTIME_PASSED)]
    (fun s =>
      match stagedImage s with
      | none => fin c stNOT_FOUND [] s
      | some i =>
        if i.bootDigest ≠ (img s).bootDigest then fin c stBAD_OPERAND [] s
        else if late then fin c stTIME_PASSED [] (dropCommit s)
        else schedule c i s) s

/-- T lies within the current calendar cycle, or before it. -/
def inThisCycle (s : State) : Bool := s.img.commitAt.toNs / 16000 ≤ nowNs s / 16000

/-- IMG.CANCEL. -/
def execImgCancel (c : Cmd) (s : State) : Res :=
  .next <| runCmd c 0x383 .manager [] (fun s =>
    if !commitPending s then fin c stNOT_FOUND [] s
    else if inThisCycle s then fin c stTIME_PASSED [] s
    else fin c stOK [] (dropCommit s)) s

/-- IMG.DISCARD. -/
def execImgDiscard (c : Cmd) (s : State) : Res :=
  .next <| runCmd c 0x384 .manager [(commitPending s, stLOCK_BUSY)] (fun s =>
    let b := idleSlot s
    fin c stOK [] (setStaged false (imgBit b.toNat false (putImg b ((imgIn s b).map noMagic) s)))) s

/-- Header bytes 0x00 to 0x3F (R321). -/
def headerBytes (i : Image) : List Byte :=
  leBytes 4 i.magic.toNat ++ leBytes 2 i.version ++ leBytes 2 i.sections.length ++ leBytes 8 i.seq.toNat ++ leBytes 4 i.length ++
  leBytes 4 i.crc.toNat ++ leBytes 1 i.sliceCnt ++ leBytes 1 i.fabricId ++ leBytes 2 0 ++ leBytes 4 i.bootDigest.toNat ++
  leBytes 8 i.planId.toNat ++ leBytes 4 i.plannerVer.toNat ++ List.replicate 20 0

/-- Header bytes of a slot; erased bytes read 0xFF. -/
def slotHeader (x : Option Image) : List Byte := match x with
  | some i => headerBytes i
  | none => List.replicate 64 0xFF

/-- IMG.INFO. -/
def execImgInfo (c : Cmd) (s : State) : Res :=
  .next <| runCmd c 0x385 .manager [] (fun s =>
    let x := imgIn s (opb c 4 0)
    let r := slotReason s x
    if c.wrOk then
      fin c stOK [(2, pack [(0, 0, (decide (r = 0)).toNat), (15, 8, r)])] (emitHost (.hostWrite c.req (opAddr c 6) (slotHeader x)) s)
    else fin c stSQUASHED [] s) s

/-- IMG.KEY: a certificate that fails leaves the previous key in force. -/
def execImgKey (c : Cmd) (cert : Option (Option Nat)) (s : State) : Res :=
  .next <| runCmd c 0x386 .manager [] (fun s =>
    match c.data with
    | none => fin c stSQUASHED [] s
    | some _ =>
      if cert.any (certOk s) then fin c stOK [] (checkKey { s with nvm := { s.nvm with imgKey := cert } })
      else fin c stAUTH_FAIL [] s) s

end Sys2Proof.Machine
end

