-- ==== Sys2Proof/Machine/ActCmds.lean ====
section
/-! DEFINITION. The ACT commands (R199, R201, R205, R207 to R209, R334). -/
namespace Sys2Proof.Machine

/-- Checks of a command on object i of a replicated table of n; `bad`: its own operand ranges. -/
def partChecks (c : Cmd) (s : State) (bad : Bool) (n i : Nat) : List (Bool × Nat) :=
  [(bad, stBAD_OPERAND), (!ownsPart s c.req n i, stNO_PERMISSION), (noTile s, stFENCED_UNIT)]

def setAct (f : Act → Act) (s : State) : State := { s with act := f s.act }

/-- A next hop as the table holds it: its reserved bits are 0 (R199). -/
def nextHopBits (v : BitVec 128) : BitVec 128 :=
  BitVec.ofNat 128 (v.toNat % 2 ^ 47 + v.toNat / 2 ^ 48 % 2 ^ 62 * 2 ^ 48)

/-- The four words of a next hop at w5. -/
def opHop (c : Cmd) : BitVec 128 := BitVec.ofNat 128 (opBits c 5 4)

/-- ACT.NH_WR. -/
def execActNhWr (c : Cmd) (s : State) : Res :=
  .next <| runCmd c 0x101 .any (partChecks c s false 262144 (opf c 4 17 0)) (fun s =>
    fin c stOK [] (setAct (fun a => { a with nextHops := tput a.nextHops (opf c 4 17 0) (nextHopBits (opHop c)) }) s)) s

/-- ACT.NH_RD. -/
def execActNhRd (c : Cmd) (s : State) : Res :=
  .next <| runCmd c 0x102 .any (partChecks c s false 262144 (opf c 4 17 0)) (fun s =>
    fin c stOK (retBits 5 4 (nextHop s (opf c 4 17 0))) s) s

/-- The header an ACT.GRP_SET gives. -/
def opHdr (c : Cmd) : GroupHdr := { steer := opb c 5 0, prof := opf c 5 4 1, valid := opb c 5 5 }

/-- ACT.GRP_SET. -/
def execActGrpSet (c : Cmd) (s : State) : Res :=
  .next <| runCmd c 0x103 .any (partChecks c s false 16384 (opf c 4 13 0)) (fun s =>
    fin c stOK [] (setAct (fun a => { a with groups := tput a.groups (opf c 4 13 0) (opHdr c) }) s)) s

/-- Key of a bucket. -/
def bktKey (g b : Nat) : Nat := g * 256 + b

/-- Buckets first to last take a pair. -/
def putBuckets (g first last : Nat) (v : Nat × Nat) (t : Tab (Nat × Nat)) : Tab (Nat × Nat) :=
  (List.range (last + 1 - first)).foldl (fun m k => tput m (bktKey g (first + k)) v) t

/-- ACT.BKT. -/
def execActBkt (c : Cmd) (s : State) : Res :=
  let first := opf c 5 7 0
  let last := opf c 5 15 8
  .next <| runCmd c 0x104 .any (partChecks c s (last < first) 16384 (opf c 4 13 0)) (fun s =>
    fin c stOK [] (setAct (fun a =>
      { a with buckets := putBuckets (opf c 4 13 0) first last (opf c 6 17 0, opf c 7 17 0) a.buckets }) s)) s

/-- ACT.BKT_RD. -/
def execActBktRd (c : Cmd) (s : State) : Res :=
  .next <| runCmd c 0x105 .any (partChecks c s false 16384 (opf c 4 13 0)) (fun s =>
    let b := tget s.act.buckets (bktKey (opf c 4 13 0) (opf c 5 7 0))
    fin c stOK [(6, word b.1), (7, word b.2)] s) s

/-! ## Members (R205, R207) -/

/-- Member records charged to a slice. -/
def memberUse (s : State) (sl : Nat) : Nat :=
  (s.act.mcast.filter fun x => ownedBy s 65536 x.1 = sl).foldl (fun n x => n + x.2.members.length) 0

/-- DEST_TILES from the ports that the member next hops name now. -/
def destTiles (s : State) (ms : List Member) : List Nat :=
  (List.range 8).filter fun t => ms.any fun m => portTile (memberPort s m) = t

/-- The group's array pointer takes a new array, and DEST_TILES is computed anew. -/
def setMembers (g : Nat) (ms : List Member) (s : State) : State :=
  setAct (fun a => { a with mcast := tput a.mcast g { members := ms, destTiles := destTiles s ms } }) s

/-- The list or the slice's share of member records is used up. -/
def membersFull (s : State) (g : Nat) : Bool :=
  528 ≤ (tget s.act.mcast g).members.length || 262144 / nSlices s ≤ memberUse s (ownedBy s 65536 g)

/-- ACT.MEM_ADD: an index already listed completes EXISTS and DEST_TILES is still computed anew. -/
def execActMemAdd (c : Cmd) (s : State) : Res :=
  let g := opf c 4 15 0
  .next <| runCmd c 0x106 .any (partChecks c s (!opb c 5 19) 65536 g) (fun s =>
    let ms := (tget s.act.mcast g).members
    if ms.any fun m => m.nh = opf c 5 17 0 then fin c stEXISTS [] (setMembers g ms s)
    else if membersFull s g then fin c stTABLE_FULL [] (setMembers g ms s)
    else fin c stOK [] (setMembers g (ms ++ [{ nh := opf c 5 17 0, srcPrune := opb c 5 18 }]) s)) s

/-- ACT.MEM_DEL. DEST_TILES is computed anew whatever the outcome (R207). -/
def execActMemDel (c : Cmd) (s : State) : Res :=
  let g := opf c 4 15 0
  .next <| runCmd c 0x107 .any (partChecks c s false 65536 g) (fun s =>
    let ms := (tget s.act.mcast g).members
    if ms.any fun m => m.nh = opf c 5 17 0 then fin c stOK [] (setMembers g (ms.filter fun m => m.nh ≠ opf c 5 17 0) s)
    else fin c stNOT_FOUND [] (setMembers g ms s)) s

/-- ACT.MIR_SET. -/
def execActMirSet (c : Cmd) (s : State) : Res :=
  let len := opf c 6 13 0
  .next <| runCmd c 0x108 .manager [(len < 64 || 10240 < len, stBAD_OPERAND), (noTile s, stFENCED_UNIT)] (fun s =>
    fin c stOK [] (setAct (fun a => { a with mirrors := tput a.mirrors (opf c 4 5 0) { nh := opf c 5 17 0, len := len } }) s)) s

end Sys2Proof.Machine
end

