-- ==== Sys2Proof/Machine/MemCmds.lean ====
section
/-! DEFINITION. The MEM commands: buffers, packet memory, migration, retirement records and save slots (R62, R163, R253 to
R255, R273, R334). -/
namespace Sys2Proof.Machine

/-! ## Frees by a client (R254, R255) -/

/-- The owner tag of a requester's ring (R253). -/
def ringTag (req ring : Nat) : Nat := if req = mgr then 4 * 4096 + ring else 3 * 4096 + req * 256 + ring

/-- The unit that a client's frees are reported against and fenced as (R255, R400). -/
def clientUnit (tag : Nat) : Nat :=
  match tag / 4096 with
  | 0 => unitId 1 (tag % 1024)
  | 2 => unitId 4 (tag % 16)
  | 3 => unitId 7 (tag / 256 % 16)
  | _ => unitId 15 (tag % 256)

/-- A free of a FREE buffer: ignored, counted, flagged, recorded (R254). -/
def freeTwice (h tag : Nat) (s : State) : State :=
  let t := handleTile h
  report (clientUnit tag) 0x0106 h 0 (rset .bufFreeStat t 0 31 31 1 (tileCnt t (16 + 11) 1 s))

/-- The instant of the refusal that the limit of R255 looks back to: the fifteenth before this one. -/
def fifteenthBefore (l : List Nat) : Option Nat := l[14]?

/-- A foreign free: refused, counted, flagged with the client's tag, recorded; a client that repeats it is fenced. -/
def freeForeign (h tag : Nat) (s : State) : State :=
  let t := handleTile h
  let past := tget s.fab.refusals tag
  let s := { s with fab := { s.fab with refusals := tput s.fab.refusals tag ((s.tim.frc :: past).take 15) } }
  let s := rset .bufFreeStat t 0 15 0 tag (rset .bufFreeStat t 0 30 30 1 (tileCnt t (16 + 12) 1 s))
  let s := report (clientUnit tag) 0x0107 h 0 s
  match fifteenthBefore past with
  | some x =>
    if s.tim.frc < x + 1000000 then
      let s := report (clientUnit tag) 0x0210 h 0 s
      if tag / 4096 = 4 then ringStop mgr (tag % 256) s else s
    else s
  | none => s

/-- A client's claim on a buffer: `none` when it owns an allocated buffer, else the status and effect of the refusal. -/
def claimFails (s : State) (h tag : Nat) : Option (Nat × (State → State)) :=
  if !(buf s h).alloc then some (stNOT_FOUND, freeTwice h tag)
  else if (buf s h).tag ≠ tag then some (stNO_PERMISSION, freeForeign h tag)
  else none

/-! ## MEM.ALLOC and MEM.FREE -/

/-- The user that a requester is for its pools (R250). -/
def reqUser (req : Nat) : PoolUser := if req = mgr then .manager else .host req

/-- MEM.ALLOC: a buffer of the named pool (R253). -/
def execMemAlloc (c : Cmd) (s : State) : Res :=
  let k := opf c 4 1 0
  let t := opf c 4 6 4
  .next <| runCmd c 0x283 .any [(tileDown s t, stFENCED_UNIT)] (fun s =>
    if exhausted s t k (reqUser c.req) then fin c stTABLE_FULL [] s
    else
      let r := takeBuf t k 1 (ringTag c.req c.ring) s
      fin c stOK [(2, word r.2)] r.1) s

/-- MEM.FREE (R254). -/
def execMemFree (c : Cmd) (s : State) : Res :=
  let h := (opw c 5).toNat
  .next <| runCmd c 0x284 .any [(!handleOk s h, stBAD_OPERAND), (tileDown s (handleTile h), stFENCED_UNIT)] (fun s =>
    match claimFails s h (ringTag c.req c.ring) with
    | some (st, f) => fin c st [] (f s)
    | none => fin c stOK [] (retryWaits (handleTile h) (bufRelease h s))) s

/-! ## MEM.RD and MEM.WR -/

def memDram (c : Cmd) : Bool := opb c 4 0
def memLen (c : Cmd) : Nat := opf c 6 21 16
def memOff (c : Cmd) : Nat := opf c 6 13 0
def memName (c : Cmd) : Nat := (opw c 5).toNat

/-- The tile that the named buffer or DRAM cell lies in. -/
def memTile (c : Cmd) : Nat := if memDram c then opf c 4 6 4 else handleTile (memName c)

/-- Its address in packet memory. -/
def memAt (c : Cmd) : Nat :=
  if memDram c then dramAddr (opf c 4 6 4) (memName c) (memOff c) else bufAddr (memName c) (memOff c)

/-- A length or place that does not fit. -/
def memBad (c : Cmd) (s : State) : Bool :=
  memLen c = 0 || 32 < memLen c ||
  (if memDram c then 67108864 ≤ memName c || 256 < memOff c + memLen c
   else !handleOk s (memName c) || poolSize (handlePool (memName c)) < memOff c + memLen c)

/-- The DRAM cell's rank answers. -/
def cellAnswers (c : Cmd) (s : State) : Bool :=
  channelUp s (cellChannel (memTile c) (memName c)) && !rankGone s (memTile c) (memName c)

/-- A slice owns the buffers of its rings (R253). -/
def ownsBuf (c : Cmd) (s : State) : Bool :=
  let b := buf s (memName c)
  c.req = mgr || (b.alloc && b.tag / 256 = 3 * 16 + c.req)

def memChecks (c : Cmd) (s : State) : List (Bool × Nat) :=
  [(memDram c && c.req ≠ mgr, stNO_PERMISSION),
   (memBad c s, stBAD_OPERAND),
   (!memDram c && !ownsBuf c s, stNO_PERMISSION),
   (tileDown s (memTile c) || (memDram c && !cellAnswers c s), stFENCED_UNIT)]

/-- An access to DRAM waits while its channel's queue is full (R264). -/
def memWaits (c : Cmd) (s : State) : Bool :=
  memDram c && ((memChecks c s).all fun x => !x.1) && channelFull s (cellChannel (memTile c) (memName c))

/-- What a read of packet memory gives: a buffer's bytes, or what the DRAM read finds. Bytes read as poison are free values (log 113). -/
def memFetch (c : Cmd) (x : EccFinding) (s : State) : List Byte × State :=
  if memDram c then
    let (poison, s') := readCell (memTile c) (memName c) x s
    if poison then (leBytes (memLen c) (drawn s'), advanceFree s') else (readMem s' (memAt c) (memLen c), s')
  else (readMem s (memAt c) (memLen c), s)

/-- MEM.RD: the bytes read stand in w8 upwards; the words' other bytes keep what the descriptor held. -/
def execMemRd (c : Cmd) (s : State) : Res :=
  .next <| if memWaits c s then s
    else runCmd c 0x281 .any (memChecks c s) (fun s =>
      let old := bytesOf ((List.range 8).map fun i => opw c (8 + i))
      let new := patchBytes old 0 (memFetch c c.dram s).1
      fin c stOK ((List.range 8).map fun i => (8 + i, (wordsOf 8 new).getD i 0)) (memFetch c c.dram s).2) s

/-- The frame that a slot shows takes bytes written to its buffer. -/
def slotWritten (h off : Nat) (bs : List Byte) (sl : Slot) : Slot :=
  if sl.handle = h && (!sl.express || sl.parked) then { sl with data := (patchBytes sl.data off bs).take sl.data.length } else sl

/-- A buffer's bytes are written: every frame held in it shows them. -/
def bufWritten (h off : Nat) (bs : List Byte) (s : State) : State :=
  let f := slotWritten h off bs
  let one (_ : Nat) (p : Port) : Port :=
    { p with slots := tmap (fun _ x => x.map f) p.slots, parked := p.parked.map f, tx := p.tx.map f,
             rq := p.rq.map fun x => (x.1, f x.2) }
  { s with ports := tmap one s.ports }

/-- A held cell whose write was lost is marked so in its list entry (R269). -/
def markLost (t idx : Nat) (s : State) : State :=
  { s with fab := { s.fab with held := s.fab.held.map fun h => if h.tile = t && h.place = .dram idx then { h with poison := true } else h } }

/-- Bytes are written to packet memory; a DRAM write may be lost (R269). It is a part of a cell, so that a poison mark stays. -/
def memStore (c : Cmd) (x : EccFinding) (bs : List Byte) (s : State) : State :=
  if memDram c then
    let (lost, s) := writeCell (memTile c) (memName c) false x s
    if lost then markLost (memTile c) (memName c) s else writeMem (memAt c) bs s
  else bufWritten (memName c) (memOff c) bs (writeMem (memAt c) bs s)

/-- MEM.WR. -/
def execMemWr (c : Cmd) (s : State) : Res :=
  .next <| if memWaits c s then s
    else runCmd c 0x282 .any (memChecks c s) (fun s =>
      fin c stOK [] (memStore c c.dram ((bytesOf ((List.range 8).map fun i => opw c (8 + i))).take (memLen c)) s)) s

/-! ## Migration on demand (R273, R274) -/

def migCh (c : Cmd) : Nat := migChannel c.desc
def migLr (c : Cmd) : Nat := opf c 4 8 6
def migStarts (c : Cmd) : Bool := opCursor c = startCursor

/-- The cursor's generation is the channel's. -/
def migCurrent (c : Cmd) (s : State) : Bool := opCursor c / 4294967296 % 65536 = (channel s (migCh c)).gen

/-- The cursor's reserved bits and position are well formed. -/
def migFormed (c : Cmd) : Bool :=
  opCursor c % 262144 ≤ 131072 && opCursor c / 262144 % 16384 = 0 && opCursor c / 281474976710656 = 0

/-- The cursor's migration is the one that waits. -/
def migResumes (c : Cmd) (s : State) : Bool :=
  let x := channel s (migCh c)
  x.migState = 3 && x.migLrank = migLr c && x.migPos = opCursor c % 262144

/-- The operands do not fit: see R273 and R344. -/
def migBad (c : Cmd) (s : State) : Bool :=
  let x := channel s (migCh c)
  if migStarts c then x.remap.getD (migLr c) 15 = 15 || x.migState ≠ 0
  else !migFormed c || (migCurrent c s && (x.remap.getD (migLr c) 15 = 15 || !migResumes c s))

def migChecks (c : Cmd) (s : State) : List (Bool × Nat) :=
  iterChecks c s
    [(migBad c s, stBAD_OPERAND),
     (tileDown s (migCh c / 8) || !channelUp s (migCh c), stFENCED_UNIT),
     (!migStarts c && !migCurrent c s, stSTALE_CURSOR)]

/-- A migration cursor. -/
def migCursor (pos gen : Nat) : Nat := pos + gen * 4294967296

/-- One step: 1,024 rows; the last one begins the drain before the commit (R270 steps 4a and 5a). An error in one of them may end the
command's migration. -/
def migStep (c : Cmd) (found : List (Nat × EccFinding)) (cur : Nat) (tot : Nat × Nat) (s : State) :
    State × Nat × (Nat × Nat) × Option (Nat × List (Nat × Word)) :=
  let ch := migCh c
  let x := channel s ch
  if x.migState ≠ 2 || x.migLrank ≠ migLr c then (s, cur, tot, some (stSTALE_CURSOR, []))
  else
    let lo := cur % 262144
    let hi := min (lo + 1024) allRows
    let phys := x.remap.getD (migLr c) 15
    let s := copyRows ch phys lo hi s
    let s := setChannel ch (fun y => { y with migPos := hi }) s
    let s := copyFindings ch phys (migLr c) lo hi found s
    if (channel s ch).migState ≠ 2 then (s, cur, tot, some (stSTALE_CURSOR, []))
    else
      (setChannel ch (fun y => { y with draining := decide (hi = allRows) }) s, migCursor hi x.gen, tot,
        if hi = allRows then some (stOK, []) else none)

/-- Mirroring runs for the command. -/
def migBegin (c : Cmd) (s : State) : State :=
  setChannel (migCh c) (fun x =>
    if migStarts c then { migOver x with migState := 2, migLrank := migLr c } else { x with migState := 2 }) s

/-- A command that is no longer in progress after its step has stopped short or reached its end. -/
def migAfter (c : Cmd) (s : State) : State := if iterating c s then s else dormantStep (setChannel (migCh c) migWaits s)

/-- MEM.MIG. A step that meets the end of its migration by an error answers STALE_CURSOR (R274). -/
def execMemMig (c : Cmd) (s : State) : Res :=
  .next <| runCmd c 0x285 .manager (migChecks c s) (fun s =>
    if !iterating c s && migStarts c && !spareFree (channel s (migCh c)) then fin c stTABLE_FULL [] s
    else
      let s' := if iterating c s then s else migBegin c s
      let start := migCursor (channel s' (migCh c)).migPos (channel s' (migCh c)).gen
      migAfter c (iterRun c start (migStep c c.rowErrs) s')) s

/-- MEM.MAP_CLR: the record goes at the next cold reset (R275). -/
def execMemMapClr (c : Cmd) (s : State) : Res :=
  .next <| runCmd c 0x286 .manager [(tileDown s (migCh c / 8), stFENCED_UNIT)] (fun s =>
    fin c stOK [] { s with nvm := { s.nvm with dram := tupd s.nvm.dram (migCh c) fun r => { r with clearNext := true } } }) s

/-! ## Save slots (R62, R163) -/

/-- TIME80 as ten bytes: nanoseconds, then seconds. -/
def timeBytes (t : Time80) : List Byte := leBytes 4 t.ns ++ leBytes 6 t.sec

/-- A journal entry's 32 bytes (R163). -/
def journalBytes (j : JEntry) : List Byte :=
  leBytes 4 j.seq ++ leBytes 4 j.time.sec ++ leBytes 4 j.time.ns ++
  [BitVec.ofNat 8 j.op, BitVec.ofNat 8 (j.table + j.slice * 16), BitVec.ofNat 8 (j.static.toNat + 2 * j.ageExempt.toNat), 0] ++
  leBytes 4 j.result.toNat ++ leBytes 12 j.key.toNat

def saveFaultsAt : Nat := 0x40
def saveStatusAt : Nat := 0x840
def saveCountersAt : Nat := 0x940
def saveJournalAt : Nat := 0x42940

/-- Body length: from the fault log to the end of the journal. -/
def saveLen (x : SaveSlot) : Nat := saveJournalAt - saveFaultsAt + 32 * x.journal.length

/-- A byte of the body, at its offset in the slot. -/
def saveBodyByte (x : SaveSlot) (o : Nat) : Byte :=
  if o < saveStatusAt then
    match x.faults[(o - saveFaultsAt) / 32]? with
    | some r => (bytesOf (recWords r)).getD ((o - saveFaultsAt) % 32) 0
    | none => Config.saveFill x.seq.toNat o
  else if o < saveCountersAt then Config.saveStatusByte (o - saveStatusAt) x.status
  else if o < saveJournalAt then
    (leBytes 8 (tget x.counters ((o - saveCountersAt) / 8)).toNat).getD ((o - saveCountersAt) % 8) 0
  else
    match x.journal[(o - saveJournalAt) / 32]? with
    | some j => (journalBytes j).getD ((o - saveJournalAt) % 32) 0
    | none => Config.saveFill x.seq.toNat o

/-- The body's CRC-32C. -/
def saveCrc (x : SaveSlot) : BitVec 32 := crc32c ((List.range (saveLen x)).map fun i => saveBodyByte x (saveFaultsAt + i))

/-- The 64 B header of a committed slot. -/
def saveHeader (x : SaveSlot) : List Byte :=
  leBytes 4 0x53565331 ++ leBytes 4 1 ++ leBytes 4 x.seq.toNat ++ leBytes 4 (saveLen x) ++ timeBytes x.time ++ leBytes 6 0 ++
  leBytes 8 x.imageSeq.toNat ++ leBytes 4 (x.trunc.toNat + 2 * x.mainsReturned.toNat) ++ leBytes 4 (saveCrc x).toNat ++
  leBytes 12 0 ++ leBytes 4 0xC0DE5AFE

/-- A byte of a slot: erased, whole, or whatever a cut-off save left (log 16). -/
def saveByte (x : SaveSlot) (o : Nat) : Byte :=
  if x.empty then 0xFF
  else if !x.committed || !x.crcOk then Config.saveFill x.seq.toNat o
  else if o < saveFaultsAt then (saveHeader x).getD o 0
  else saveBodyByte x o

/-- The save slot a number names. -/
def saveSlot (s : State) (k : Nat) : SaveSlot := if k = 0 then s.nvm.save0 else s.nvm.save1

/-- MEM.SAVE_RD: 32 B of a slot. -/
def execMemSaveRd (c : Cmd) (s : State) : Res :=
  let o := (opw c 5).toNat
  .next <| runCmd c 0x287 .manager [(o % 32 ≠ 0 || 16777216 ≤ o, stBAD_OPERAND)] (fun s =>
    let x := saveSlot s (opf c 4 0 0)
    let ws := wordsOf 8 ((List.range 32).map fun i => saveByte x (o + i))
    fin c stOK ((List.range 8).map fun i => (8 + i, ws.getD i 0)) s) s

end Sys2Proof.Machine
end

