-- ==== Sys2Proof/Machine/Security.lean ====
section
/-! DEFINITION. The security engine (18_security.md): key slots, the lock, urgent messages, the alarm, the AES operations, the SEC
commands and the PORT.SA commands (R99 to R103, R387 to R398). -/
namespace Sys2Proof.Machine

/-! ## Key slots (R389, R393) -/

def secSlot (s : State) (k : Nat) : KeySlot := tget s.sec.slots k

/-- The slice that owns a slot, for slots 32 to 63. -/
def slotSlice (s : State) (k : Nat) : Nat := (k - 32) / (32 / nSlices s)

/-- A key-encryption slot. -/
def kekSlot (s : State) (k : Nat) : Bool := k ≤ 15 || (32 ≤ k && (k - 32) % (32 / nSlices s) < 16 / nSlices s)

/-- A slot of a slice. -/
def sliceSlot (s : State) (req k : Nat) : Bool := 32 ≤ k && slotSlice s k = req

/-- A requester may unwrap under a slot. -/
def mayUnwrap (s : State) (req k : Nat) : Bool := kekSlot s k && (req = mgr || sliceSlot s req k)

/-- A data slot of a requester. -/
def mayUse (s : State) (req k : Nat) : Bool := if req = mgr then 16 ≤ k && k ≤ 31 else sliceSlot s req k && !kekSlot s k

def secAlarmed (s : State) : Bool := pbit s .secStat 31

/-- The device key goes from the fuses into slot 0 (R390). -/
def loadDeviceKey (s : State) : State :=
  { s with sec := { s.sec with slots := tput s.sec.slots 0 { valid := true, key := Config.deviceKey } } }

/-! ## The lock and the core (R394 to R396) -/

/-- The ID of a requester. -/
def secId (req : Nat) : Nat := if req = mgr then 2 else 0x10 + req

def setSec (f : Sec → Sec) (s : State) : State := { s with sec := f s.sec }

/-- An agent writes a user's ID to SEC_LOCK: it takes the free lock and starts its message, or joins the queue. -/
def secClaim (id : Nat) (s : State) : State :=
  if s.sec.holder = id || s.sec.queue.contains id then s
  else if s.sec.holder = 0 && s.sec.running.isNone then setSec (fun x => { x with holder := id, running := some { holder := id } }) s
  else setSec (fun x => { x with queue := x.queue ++ [id] }) s

/-- The lock passes to the head of the queue, whose message starts, or is free. -/
def secPass (x : Sec) : Sec :=
  match x.queue with
  | id :: q => { x with holder := id, queue := q, running := some { holder := id } }
  | [] => { x with holder := 0, running := none }

/-- What the core does after its message: the next urgent request, the message suspended last, or the next claimant. -/
def secNext (x : Sec) : Sec :=
  match x.urgent, x.contexts with
  | l :: us, _ => { x with urgent := us, running := some { holder := 1, level := l } }
  | [], m :: ms => { x with contexts := ms, running := some m }
  | [], [] => secPass x

/-- The end of the running message; a core halted by a sag ends none. -/
def messageEnd (s : State) : State :=
  if s.sec.halted || s.sec.running.isNone then s else setSec secNext s

/-- An urgent request (R395): it suspends a message of a lower level, runs on a free core, or waits. A sag's request halts the
engine (R396). -/
def secUrgent (level : Nat) (s : State) : State :=
  if s.sec.halted then s
  else
    let mine : SecMsg := { holder := 1, level := level }
    let s := match s.sec.running with
      | none => setSec (fun x => { x with running := some mine }) s
      | some m =>
        if m.level < level then setSec (fun x => { x with contexts := m :: x.contexts, running := some mine }) s
        else setSec (fun x => { x with urgent := x.urgent ++ [level] }) s
    if level = 2 then setSec (fun x => { x with halted := true }) s else s

/-- A user leaves the engine: its claim, its lock and its message go (R385, R394). -/
def secDrop (id : Nat) (s : State) : State :=
  let s := setSec (fun x => { x with
    queue := x.queue.filter (fun i => i ≠ id), contexts := x.contexts.filter fun m => m.holder ≠ id }) s
  if s.sec.holder ≠ id then s
  else if s.sec.running = some { holder := id } then messageEnd s
  else setSec (fun x => { x with holder := 0 }) s

/-- SEC_LOCK_CLAIM by the agent of a user (R394). -/
def execSecLockClaim (id : Nat) (s : State) : Res :=
  .next (iff_ (3 ≤ stage s && (id = 1 || id = 2 || (16 ≤ id && sliceOn s (id - 16)))) (secClaim id) s)

def execSecMessageEnd (s : State) : Res := .next (messageEnd s)

def execUrgentRequest (level : Nat) (s : State) : Res :=
  .next (iff_ (3 ≤ stage s && (level = 1 || level = 2)) (secUrgent level) s)

/-! ## The alarm (R103, R398) -/

/-- A command whose requester's message runs or is suspended. -/
def hasMessage (s : State) (req : Nat) : Bool := (s.sec.running.toList ++ s.sec.contexts).any fun m => m.holder = secId req

/-- A descriptor of a command that the security engine serves (R394). -/
def secServed (d : List Word) : Bool := opcodeOf d / 64 = 0x0F || opcodeOf d = 0x2C2

/-- Rings on which a command waits for the security engine. -/
def secRings (s : State) : List (Nat × Nat) :=
  (s.hif.rings.filter fun x => x.2.busy.any secServed).map fun x => (x.1 / 256, x.1 % 256)

/-- Commands that wait for the engine end: those whose message runs or is suspended return w2 = 0 (R398). -/
def secCommandsEnd (status : Nat) (s : State) : State :=
  forEach (secRings s) (fun x => endBusy x.1 x.2 status (if hasMessage s x.1 then [(2, 0)] else [])) s

/-- The alarm's effect: keys, contexts and associations gone, messages ended, the cause set and recorded. -/
def raiseAlarm (cause : Nat) (s : State) : State :=
  let s := secCommandsEnd stFENCED_UNIT s
  let keep := if s.sec.halted then s.sec.running else none
  let s := { s with sas := [], chans := [], sec := { (default : Sec) with halted := s.sec.halted, running := keep } }
  let s := rset .secStat 0 0 cause cause 1 (rset .secStat 0 0 31 31 1 s)
  report (unitId 12 0) 0x0108 (rfld s .secStat 0 0 3 0) 0 s

def execSecAlarm (cause : Nat) (s : State) : Res := .next (iff_ (3 ≤ stage s && cause ≤ 3) (raiseAlarm cause) s)

/-- Clears the cause bits of a mask; with the last of them the alarm ends and slot 0 is loaded again. -/
def clearCauses (mask : Nat) (s : State) : State :=
  let s := rset .secStat 0 0 3 0 (Nat.xor (rfld s .secStat 0 0 3 0) (Nat.land (rfld s .secStat 0 0 3 0) mask)) s
  if secAlarmed s && rfld s .secStat 0 0 3 0 = 0 then loadDeviceKey (rset .secStat 0 0 31 31 0 s) else s

/-- SEC_CAUSE_CLEAR: bits whose condition persists stay. -/
def execSecCauseClear (mask persists : Nat) (s : State) : Res :=
  .next (iff_ (hifUp s) (clearCauses (Nat.land mask (15 - persists % 16))) s)

/-! ## SEC commands -/

/-- The home engine claims the engine for a command; the command runs once the lock is its user's and its message runs, and
releases it. Until then it waits. -/
def secRun (c : Cmd) (f : State → State) (s : State) : State :=
  let s := secClaim (secId c.req) s
  if s.sec.running = some { holder := secId c.req } then messageEnd (f s) else commandWaits c s

def authRun (s : State) : Nat := rfld s .secStat 0 0 11 8

/-- A failed unwrap: the command ends AUTH_FAIL, and the eighth in a row raises the alarm (R397). -/
def authFail (c : Cmd) (s : State) : State :=
  let s := fin c stAUTH_FAIL [] (rset .secStat 0 0 11 8 (min 8 (authRun s + 1)) s)
  if authRun s = 8 then raiseAlarm 3 s else s

/-- Unwraps a command's host data under a slot and goes on with the key (R392, R393). -/
def withKey (c : Cmd) (kek n : Nat) (f : List Byte → State → State) (s : State) : State :=
  if !(secSlot s kek).valid then fin c stNOT_FOUND [] s
  else match c.data with
    | none => fin c stSQUASHED [] s
    | some bs =>
      match aesUnwrap (secSlot s kek).key (bs.take n) with
      | none => authFail c s
      | some k => f k (rset .secStat 0 0 11 8 0 s)

/-- SEC.KEY_LD (R392). -/
def execSecKeyLd (c : Cmd) (s : State) : Res :=
  let target := opf c 4 5 0
  let kek := opf c 4 13 8
  let len := (opw c 5).toNat
  .next <| runCmd c 0x3C1 .manager
    [(target = 0 || (len ≠ 24 && len ≠ 40) || !kekSlot s kek, stBAD_OPERAND), (secAlarmed s, stFENCED_UNIT)]
    (secRun c (withKey c kek len fun k s =>
      fin c stOK [] (setSec (fun x => { x with slots := tput x.slots target { valid := true, key := k } }) s))) s

/-- SEC.KEY_CLR (R392). -/
def execSecKeyClr (c : Cmd) (s : State) : Res :=
  let target := opf c 4 5 0
  .next <| runCmd c 0x3C2 .manager [(target = 0, stBAD_OPERAND), (secAlarmed s, stFENCED_UNIT)]
    (secRun c fun s =>
      if (secSlot s target).valid then fin c stOK [] (setSec (fun x => { x with slots := tput x.slots target {} }) s)
      else fin c stNOT_FOUND [] s) s

/-- A data slot that a command uses: an empty one is NOT_FOUND, a failed host read SQUASHED. -/
def withData (c : Cmd) (n : Nat) (f : List Byte → List Byte → State → State) (s : State) : State :=
  if !(secSlot s (opf c 4 5 0)).valid then fin c stNOT_FOUND [] s
  else match c.data with
    | none => fin c stSQUASHED [] s
    | some bs => f (secSlot s (opf c 4 5 0)).key (bs.take n) s

/-- SEC.CMAC (R393). -/
def execSecCmac (c : Cmd) (s : State) : Res :=
  let len := (opw c 5).toNat
  .next <| runCmd c 0x3C3 .any
    [(65536 < len, stBAD_OPERAND), (!mayUse s c.req (opf c 4 5 0), stNO_PERMISSION), (secAlarmed s, stFENCED_UNIT)]
    (secRun c (withData c len fun k bs s =>
      let t := wordsOf 4 (aesCmac k bs)
      fin c stOK ((List.range 4).map fun i => (8 + i, t.getD i 0)) s)) s

/-- SEC.CRYPT (R393). -/
def execSecCrypt (c : Cmd) (s : State) : Res :=
  let len := (opw c 5).toNat
  .next <| runCmd c 0x3C4 .any
    [(len = 0 || 65536 < len || len % 16 ≠ 0 || opf c 4 9 8 = 3, stBAD_OPERAND),
     (!mayUse s c.req (opf c 4 5 0), stNO_PERMISSION), (secAlarmed s, stFENCED_UNIT)]
    (secRun c (withData c len fun k bs s =>
      let iv := bytesOf ((List.range 4).map fun i => opw c (10 + i))
      if c.wrOk then fin c stOK [] (emitHost (.hostWrite c.req (opAddr c 8) (aesCrypt (opf c 4 9 8) (opb c 4 10) k iv bs)) s)
      else fin c stSQUASHED [] s)) s

/-! ## PORT.SA commands (R101, R393) -/

def saPort (c : Cmd) : Nat := opf c 4 9 0
def saAn (c : Cmd) : Nat := opf c 4 15 14

/-- The association a command names; a transmit channel has no number. -/
def saOf (c : Cmd) : Nat := if opb c 4 10 then saKey (saPort c) 1 (opf c 4 13 11) (saAn c) else saKey (saPort c) 0 0 (saAn c)

/-- The port lies in a fenced tile or is fenced itself. -/
def portOutOfService (s : State) (p : Nat) : Bool := tileDown s (portTile p) || (port s p).fenced

def saBadPort (c : Cmd) (s : State) : Bool := 512 ≤ saPort c || !portExists s (saPort c)

/-- The association that PORT.SA_ADD installs with an unwrapped key. -/
def saNew (c : Cmd) (k : List Byte) : Sa :=
  let bs := hostData c
  { xpn := opb c 4 16, pn := opBits c 7 2, key := k, salt := (bs.drop 40).take 12, ssci := word (leNat ((bs.drop 52).take 4)) }

/-- The channel of an association. -/
def chanOf (sa : Nat) : Nat := sa / 4 * 4

/-- SCI and replay window that PORT.SA_ADD gives its channel; the latest command's hold for all its associations (log 96). -/
def chanNew (c : Cmd) : SecChan := { sci := BitVec.ofNat 64 (opBits c 5 2), window := (opw c 12).toNat }

/-- The association and its channel are installed. -/
def saInstall (c : Cmd) (k : List Byte) (s : State) : State :=
  { s with sas := tput s.sas (saOf c) (some (saNew c k)), chans := tput s.chans (chanOf (saOf c)) (some (chanNew c)) }

/-- The association goes, and with the last of its channel the channel. -/
def saRemove (sa : Nat) (s : State) : State :=
  let s := { s with sas := tput s.sas sa none }
  iff_ ((List.range 4).all fun an => (tget s.sas (chanOf sa + an)).isNone) (fun s => { s with chans := tput s.chans (chanOf sa) none }) s

/-- PORT.SA_ADD. -/
def execPortSaAdd (c : Cmd) (s : State) : Res :=
  let kek := opf c 9 5 0
  .next <| runCmd c 0x2C2 .any
    [(saBadPort c s || (c.req = mgr && !kekSlot s kek) || (!opb c 4 16 && (opw c 8).toNat ≠ 0), stBAD_OPERAND),
     (!ownsPort s c.req (saPort c) || !mayUnwrap s c.req kek, stNO_PERMISSION),
     (portOutOfService s (saPort c) || secAlarmed s, stFENCED_UNIT)]
    (secRun c fun s =>
      if (tget s.sas (saOf c)).isSome then fin c stEXISTS [] s
      else withKey c kek 40 (fun k s => fin c stOK [] (saInstall c k s)) s) s

/-- Checks of PORT.SA_DEL and PORT.SA_TX_AN. -/
def saChecks (c : Cmd) (s : State) : List (Bool × Nat) :=
  [(saBadPort c s, stBAD_OPERAND), (!ownsPort s c.req (saPort c), stNO_PERMISSION), (portOutOfService s (saPort c), stFENCED_UNIT)]

/-- PORT.SA_DEL. -/
def execPortSaDel (c : Cmd) (s : State) : Res :=
  .next <| runCmd c 0x2C3 .any (saChecks c s) (fun s =>
    if (tget s.sas (saOf c)).isSome then fin c stOK [] (saRemove (saOf c) s) else fin c stNOT_FOUND [] s) s

/-- PORT.SA_TX_AN: frames that start after it go under the association; one in transmission keeps its own. -/
def execPortSaTxAn (c : Cmd) (s : State) : Res :=
  .next <| runCmd c 0x2C4 .any (saChecks c s) (fun s =>
    if (tget s.sas (saKey (saPort c) 0 0 (saAn c))).isSome then fin c stOK [] (setPort (saPort c) (fun p => { p with txAn := saAn c }) s)
    else fin c stNOT_FOUND [] s) s

end Sys2Proof.Machine
end

