-- ==== Sys2Proof/Machine/SchedCmds.lean ====
section
/-! DEFINITION. The SCH, POL, GATE and CAL commands (R288, R291, R294, R296, R298, R302, R334, R346) and the timers' expiry. -/
namespace Sys2Proof.Machine

/-! ## Nodes (R278, R279, R281, R288) -/

def schLevel (c : Cmd) : Nat := opf c 4 1 0
def schNum (c : Cmd) : Nat := opf c 5 19 0

/-- Nodes of a level in a tile. -/
def levelSize : Nat → Nat
  | 1 => 512
  | 2 => 4096
  | _ => 131072

/-- A node exists in the numbering of R278; level 0 names the ports that exist. -/
def nodeIn (s : State) (level n : Nat) : Bool := if level = 0 then portExists s n else n < 8 * levelSize level

/-- The requester owns a node (R241, R279); a port by the image's assignment. -/
def ownsNode (s : State) (req level n : Nat) : Bool :=
  if level = 0 then ownsPort s req n else ownsPart s req (levelSize level) (n % levelSize level)

/-- Checks of the node commands. -/
def nodeChecks (c : Cmd) (s : State) (level n : Nat) (bad : Bool) : List (Bool × Nat) :=
  [(bad || !nodeIn s level n, stBAD_OPERAND), (!ownsNode s c.req level n, stNO_PERMISSION),
   (tileDown s (nodeTile level n), stFENCED_UNIT)]

/-- The scheduler selects again for the port above a node. -/
def selectAbove (level n : Nat) (s : State) : State := match nodePort s level n with
  | some p => selectPort p s
  | none => s

/-- SCH.NODE sets PRIO, WEIGHT and LEN_PROF and the deficit starts at 0. -/
def nodeSet (c : Cmd) (n : Node) : Node :=
  { n with cfg := { n.cfg with prio := opf c 6 2 0, weight := opf c 6 15 8, lenProf := opf c 6 19 16 }, deficit := 0 }

def execSchNode (c : Cmd) (s : State) : Res :=
  let l := schLevel c
  let n := schNum c
  .next <| runCmd c 0x141 .any (nodeChecks c s l n (l = 0 || opf c 6 15 8 = 0))
    (fun s => fin c stOK [] (selectAbove l n (setNode l n (nodeSet c) s))) s

/-- SCH.SHAPE sets the rates and bursts, and the counts full or empty (R288). -/
def nodeShaped (s : State) (c : Cmd) (n : Node) : Node :=
  let full := opTokens c
  let cbs := opf c 7 23 0
  let pbs := opf c 9 23 0
  { n with
    cfg := { n.cfg with cir := opf c 6 19 0, cbs := cbs, pir := opf c 8 19 0, pbs := pbs }
    c := if full then ((cbs * 65536 : Nat) : Int) else 0
    p := if full then ((pbs * 65536 : Nat) : Int) else 0
    at_ := s.tim.frc }

def execSchShape (c : Cmd) (s : State) : Res :=
  let l := schLevel c
  let n := schNum c
  .next <| runCmd c 0x142 .any (nodeChecks c s l n (l = 0 || 800000 < opf c 6 19 0 || 800000 < opf c 8 19 0))
    (fun s => fin c stOK [] (selectAbove l n (setNode l n (nodeShaped s c) s))) s

/-- SCH.LEAF. -/
def execSchLeaf (c : Cmd) (s : State) : Res :=
  let n := schNum c
  .next <| runCmd c 0x143 .any (nodeChecks c s 3 n false) (fun s =>
    fin c stOK [] (setNode 3 n (fun x => { x with cfg := { x.cfg with maxRes := opf c 6 15 0 } }) s)) s

/-- A count in whole signed bytes. -/
def countBytes (x : Int) : Word := word (twos 32 (x.ediv 65536))

/-- What SCH.RD returns; a port has no settings and reads zeros. -/
def nodeWords (s : State) (l n : Nat) : List (Nat × Word) :=
  let x := if l = 0 then default else refilled s (node s l n)
  let f := if l = 3 then leafSt s n else {}
  [(6, pack [(2, 0, x.cfg.prio), (15, 8, x.cfg.weight), (19, 16, x.cfg.lenProf)]), (7, word x.cfg.cir), (8, word x.cfg.cbs),
   (9, word x.cfg.pir), (10, word x.cfg.pbs), (11, countBytes x.c), (12, countBytes x.p), (13, word x.cfg.maxRes),
   (14, word (min f.depth 134217727)), (15, word (min f.delay 4294967295))]

/-- SCH.RD. -/
def execSchRd (c : Cmd) (s : State) : Res :=
  let l := schLevel c
  let n := schNum c
  .next <| runCmd c 0x144 .any (nodeChecks c s l n false) (fun s => fin c stOK (nodeWords s l n) s) s

/-! ## 802.1CB streams (R298 to R300) -/

def opFrer (c : Cmd) : FrerCfg :=
  { kind := opf c 5 1 0, multicast := opb c 5 2, binding := opf c 6 19 0, matchAlg := opb c 5 3, history := opf c 5 10 4,
    strip := opb c 5 11, resetMs := opf c 7 13 0 }

/-- Settings outside R298 and R300. The history and RESET_MS are ranges of a recovery stream. -/
def frerBad (i : Nat) (f : FrerCfg) : Bool :=
  f.kind = 3 || (f.kind = 1 && f.multicast && 65536 ≤ f.binding) ||
  (f.kind = 2 && (f.multicast || leafTile f.binding ≠ i / 8192 || f.history < 2 || 64 < f.history || f.resetMs = 0 || 10000 < f.resetMs))

/-- The requester owns what a stream is bound to. -/
def ownsBinding (s : State) (req : Nat) (f : FrerCfg) : Bool :=
  f.kind = 0 || (if f.multicast then ownsPart s req 65536 f.binding else ownsNode s req 3 f.binding)

/-- SCH.FRER writes a stream and resets its state. -/
def execSchFrer (c : Cmd) (s : State) : Res :=
  let i := opf c 4 15 0
  .next <| runCmd c 0x145 .any
    [(frerBad i (opFrer c), stBAD_OPERAND), (!ownsPart s c.req 65536 i || !ownsBinding s c.req (opFrer c), stNO_PERMISSION),
     (tileDown s (i / 8192), stFENCED_UNIT)]
    (fun s => fin c stOK [] (setStream i (fun _ => frerFresh (opFrer c)) s)) s

def frerWords (s : State) (i : Nat) : List (Nat × Word) :=
  let x := tget s.sch.streams i
  let f := x.cfg
  [(5, pack [(1, 0, f.kind), (2, 2, f.multicast.toNat), (3, 3, f.matchAlg.toNat), (10, 4, f.history), (11, 11, f.strip.toNat)]),
   (6, word f.binding), (7, word f.resetMs), (8, word x.seq)] ++
  (List.range 6).map fun k => (9 + k, word (counter s 0x13 (i * 8 + k)).toNat)

/-- SCH.FRER_RD. -/
def execSchFrerRd (c : Cmd) (s : State) : Res :=
  let i := opf c 4 15 0
  .next <| runCmd c 0x146 .any
    [(!ownsPart s c.req 65536 i, stNO_PERMISSION), (tileDown s (i / 8192), stFENCED_UNIT)] (fun s => fin c stOK (frerWords s i) s) s

/-! ## Policers (R289, R291) -/

def opPol (c : Cmd) : Policer :=
  { mode := opf c 5 1 0, coupled := opb c 5 2, aware := opb c 5 3, lenProf := opf c 5 7 4, rate1 := (opw c 6).toNat,
    rate2 := (opw c 7).toNat, burst1 := opf c 8 23 0, burst2 := opf c 9 23 0, maxSdu := opf c 10 13 0,
    sgate := if opb c 11 31 then some (opf c 11 9 0) else none }

def polBad (p : Policer) : Bool := p.mode = 3 || 800000 < p.rate1 || 800000 < p.rate2 || 10240 < p.maxSdu

/-- Every replica's buckets full or empty. -/
def polTokens (i : Nat) (p : Policer) (full : Bool) (s : State) : State :=
  let x : PolCount := { b1 := if full then p.burst1 * 65536 else 0, b2 := if full then p.burst2 * 65536 else 0, at_ := s.tim.frc }
  forEach (List.range 8) (fun t s => { s with sch := { s.sch with polCounts := tput s.sch.polCounts (polKey t i) x } }) s

/-- POL.SET. -/
def execPolSet (c : Cmd) (s : State) : Res :=
  let i := opf c 4 17 0
  .next <| runCmd c 0x181 .any (partChecks c s (polBad (opPol c)) 262144 i) (fun s =>
    fin c stOK [] (polTokens i (opPol c) (opTokens c) { s with sch := { s.sch with policers := tput s.sch.policers i (opPol c) } })) s

def polWords (s : State) (t i : Nat) : List (Nat × Word) :=
  let p := tget s.sch.policers i
  let b := polRefilled s p (tget s.sch.polCounts (polKey t i))
  [(5, pack [(1, 0, p.mode), (2, 2, p.coupled.toNat), (3, 3, p.aware.toNat), (7, 4, p.lenProf)]), (6, word p.rate1), (7, word p.rate2),
   (8, word p.burst1), (9, word p.burst2), (10, word p.maxSdu), (11, pack [(9, 0, p.sgate.getD 0), (31, 31, p.sgate.isSome.toNat)]),
   (12, word (b.b1 / 65536)), (13, word (b.b2 / 65536))]

/-- POL.RD: the settings and one tile's counts. -/
def execPolRd (c : Cmd) (s : State) : Res :=
  let i := opf c 4 17 0
  let t := opf c 4 22 20
  .next <| runCmd c 0x182 .any [(!ownsPart s c.req 262144 i, stNO_PERMISSION), (tileDown s t, stFENCED_UNIT)]
    (fun s => fin c stOK (polWords s t i) s) s

/-! ## Gate lists (R293, R294, R296) -/

/-- Entry i of the 40-bit entries in w6-w15. -/
def opEntry (c : Cmd) (i : Nat) : Nat := opBits c 6 10 / 2 ^ (40 * i) % 2 ^ 40

def portEntry (v : Nat) : GateEntry := { states := v % 256, interval := v / 256 % 2 ^ 30 }

def sgEntry (v : Nat) : GateEntry :=
  { states := v % 2, ipv := if v.testBit 4 then some (v / 2 % 8) else none, interval := v / 256 % 2 ^ 30 }

def portEntryBits (e : GateEntry) : Nat := e.states % 256 + e.interval * 256

def sgEntryBits (e : GateEntry) : Nat :=
  e.states % 2 + (e.ipv.getD 0) * 2 + e.ipv.isSome.toNat * 16 + e.interval * 256

def gwFirst (c : Cmd) : Nat := opf c 5 7 0
def gwCount (c : Cmd) : Nat := opf c 5 11 8

/-- A write of entries outside the list or with an interval outside R293. -/
def gwBad (c : Cmd) (most : Nat) (f : Nat → GateEntry) : Bool :=
  gwCount c = 0 || 8 < gwCount c || most < gwFirst c + gwCount c || (List.range (gwCount c)).any fun i => !entryOk (f (opEntry c i))

/-- The shadow list with entries written. -/
def gwShadow (c : Cmd) (f : Nat → GateEntry) (g : Gate) : Gate :=
  let es := (List.range (gwCount c)).foldl (fun m i => tput m (gwFirst c + i) (f (opEntry c i))) g.shadow.entries
  { g with shadow := { g.shadow with entries := es } }

/-- An Ethernet port that a gate command may name. -/
def gatePort (s : State) (p : Nat) : Bool := p < 512 && portExists s p

/-- Checks of a command on a port's gate list. -/
def gateChecks (c : Cmd) (s : State) (bad : Bool) : List (Bool × Nat) :=
  let p := opf c 4 9 0
  [(bad || !gatePort s p, stBAD_OPERAND), (!ownsPort s c.req p, stNO_PERMISSION), (portOut s p, stFENCED_UNIT)]

/-- Check 7 of a gate. -/
def gateBusy (s : State) (g : Gate) : Bool × Nat := (commitPending s || g.pending.isSome, stLOCK_BUSY)

/-- GATE.WR. -/
def execGateWr (c : Cmd) (s : State) : Res :=
  let p := opf c 4 9 0
  .next <| runCmd c 0x1C1 .any (gateChecks c s (gwBad c 256 portEntry) ++ [gateBusy s (gateOf s p)])
    (fun s => fin c stOK [] (setGate p (gwShadow c portEntry) s)) s

/-- GATE.SG_WR. -/
def execGateSgWr (c : Cmd) (s : State) : Res :=
  let g := opf c 4 9 0
  .next <| runCmd c 0x1C2 .any (partChecks c s (gwBad c 16 sgEntry) 1024 g ++ [gateBusy s (sgateOf s g)])
    (fun s => fin c stOK [] (setSgate g (gwShadow c sgEntry) s)) s

/-- The list that a commit makes of a shadow. -/
def gcList (c : Cmd) (g : Gate) : GateList :=
  { g.shadow with count := opf c 5 8 0, base := opTime c 6, cycle := opf c 9 29 0 }

/-- Count, base time, cycle time or T outside R293. -/
def gcBad (c : Cmd) (most : Nat) : Bool :=
  most < opf c 5 8 0 || !timeOk (opTime c 6) || !timeOk (opTime c 10) || opf c 9 29 0 < 1000 || 1000000000 < opf c 9 29 0

/-- The commit is pending until the first cycle start of the new list at or after T. -/
def gcPending (c : Cmd) (g : Gate) : Gate :=
  { g with pending := some (gcList c g), switchAt := Time80.ofNs (nextCycle (gcList c g) (opTime c 10).toNs) }

/-- GATE.COMMIT. -/
def execGateCommit (c : Cmd) (s : State) : Res :=
  let p := opf c 4 9 0
  .next <| runCmd c 0x1C3 .any
    (gateChecks c s (gcBad c 256) ++ [gateBusy s (gateOf s p), (timePassed s (opTime c 10), stTIME_PASSED)])
    (fun s => fin c stOK [] (setGate p (gcPending c) s)) s

/-- GATE.SG_COMMIT. -/
def execGateSgCommit (c : Cmd) (s : State) : Res :=
  let g := opf c 4 9 0
  .next <| runCmd c 0x1C4 .any
    (partChecks c s (gcBad c 16) 1024 g ++ [gateBusy s (sgateOf s g), (timePassed s (opTime c 10), stTIME_PASSED)])
    (fun s => fin c stOK [] (setSgate g (gcPending c) s)) s

/-- Eight entries of a list from an index, as w6-w15 hold them. -/
def listWords (l : GateList) (first : Nat) (f : GateEntry → Nat) : List (Nat × Word) :=
  retBits 6 10 ((List.range 8).foldl (fun n i => n + f (tget l.entries (first + i)) * 2 ^ (40 * i)) 0)

/-- GATE.RD. -/
def execGateRd (c : Cmd) (s : State) : Res :=
  let i := opf c 4 9 0
  let first := opf c 5 15 8
  let pick (g : Gate) : GateList := if opb c 5 0 then g.shadow else g.active
  .next <| runCmd c 0x1C5 .any
    (if opb c 4 31 then partChecks c s (16 ≤ first) 1024 i else gateChecks c s false)
    (fun s => fin c stOK
      (if opb c 4 31 then listWords (pick (sgateOf s i)) first sgEntryBits else listWords (pick (gateOf s i)) first portEntryBits) s) s

/-! ## Calendar and timers (R234, R346) -/

def timerKey (req k : Nat) : Nat := req * 16 + k

def timer (s : State) (req k : Nat) : Timer := tget s.hif.timers (timerKey req k)

def setTimer (req k : Nat) (t : Timer) (s : State) : State :=
  { s with hif := { s.hif with timers := tput s.hif.timers (timerKey req k) t } }

/-- CAL.TIMER. -/
def execCalTimer (c : Cmd) (s : State) : Res :=
  let k := opf c 4 3 0
  .next <| runCmd c 0x201 .any
    [(!opb c 4 4 && !timeOk (opTime c 5), stBAD_OPERAND), (!opb c 4 4 && timePassed s (opTime c 5), stTIME_PASSED)]
    (fun s =>
      if opb c 4 4 then
        if (timer s c.req k).on then fin c stOK [] (setTimer c.req k {} s) else fin c stNOT_FOUND [] s
      else fin c stOK [] (setTimer c.req k { on := true, at_ := opTime c 5, tag := opw c 1 } s)) s

/-- A timer's TIMER notice, at T. -/
def timerFires (req k : Nat) (s : State) : State :=
  let t := timer s req k
  postAt req 0x02 k t.tag t.at_ [] (setTimer req k {} s)

/-- TIMER_EXPIRY. -/
def execTimerExpiry (req timer_ : Nat) (s : State) : Res :=
  .next (iff_ ((timer s req timer_).on) (timerFires req timer_) s)

/-- The slot words of a tile's bank: the active calendar or the other bank's. -/
def bankSlots (s : State) (t bank : Nat) : Tab Word :=
  (if rfld s .latCalStat t 0 0 0 = bank then activeBank s else s.img.other).slots

/-- CAL.RD. -/
def execCalRd (c : Cmd) (s : State) : Res :=
  let t := opf c 4 2 0
  let cal := opf c 4 7 4
  let slot := opf c 5 13 0
  .next <| runCmd c 0x202 .manager [(8 < cal || 15625 ≤ slot, stBAD_OPERAND), (tileDown s t, stFENCED_UNIT)] (fun s =>
    fin c stOK [(6, tget (bankSlots s t (opf c 4 3 3)) ((t * 9 + cal) * 15625 + slot))] s) s

end Sys2Proof.Machine
end

