-- ==== Sys2Proof/Machine/Telemetry.lean ====
section
/-! DEFINITION. Counter sets, snapshots and dumps, engine samples, the CNT commands (R422 to R434). -/
namespace Sys2Proof.Machine

/-! ## Sets (R422) -/

/-- Instances and stride of a set; `none` for a code that is not in the table. -/
def setShape : Nat → Option (Nat × Nat)
  | 0x00 => some (528, 64)
  | 0x01 => some (17, 16)
  | 0x02 => some (1, 32)
  | 0x03 => some (8, 64)
  | 0x04 => some (64, 64)
  | 0x05 => some (128, 8)
  | 0x06 => some (1024, 8)
  | 0x07 => some (529, 16)
  | 0x08 => some (4353, 8)
  | 0x09 => some (8192, 8)
  | 0x10 => some (1048576, 2)
  | 0x11 => some (1048576, 8)
  | 0x12 => some (2097152, 8)
  | 0x13 => some (65536, 8)
  | 0x14 => some (2097152, 2)
  | _ => none

def setStride (set : Nat) : Nat := (setShape set).elim 1 (·.2)
def setCount (set : Nat) : Nat := (setShape set).elim 0 (·.1)
def setSize (set : Nat) : Nat := setCount set * setStride set

/-- A requester may read something of a set. -/
def readsSet (req set : Nat) : Bool := req = mgr || set ≤ 1 || (8 ≤ set && (setShape set).isSome)

/-- A requester may read an instance of a set. -/
def readsInst (s : State) (req set i : Nat) : Bool :=
  req = mgr ||
  match set with
  | 0x00 => portOwner s i = some req
  | 0x01 => i = req
  | 0x08 => i / 256 = req && req < 16
  | 0x09 => i % 1024 < 512 && portOwner s (i % 1024) = some req
  | 0x10 => leafSlice s i = req
  | 0x11 => leafSlice s i = req
  | 0x12 => ownedBy s 262144 (i % 262144) = req
  | 0x13 => ownedBy s 65536 i = req
  | 0x14 => ownedBy s 262144 (i % 262144) = req
  | _ => false

def readsIdx (s : State) (req set idx : Nat) : Bool := readsInst s req set (idx / setStride set)

/-! ## Slot classes (R429)

The classes count 0.8 ns slots of the handshakes, which the model does not time: their values are free (log 30). -/

def slotClassIdx (set : Nat) : List Nat :=
  match set with
  | 0x03 => (List.range 8).flatMap fun t => [40, 41, 42, 43, 44, 45, 48, 49, 50, 51, 52, 53].map (t * 64 + ·)
  | 0x04 => (List.range 64).flatMap fun g => [56, 57, 58, 59, 60, 61].map (g * 64 + ·)
  | _ => []

/-- Free values are taken for every slot class that one reading can see. -/
def advanceClasses (s : State) : State := { s with freeCtr := s.freeCtr + 4096 }

/-- Slots of 0.8 ns elapsed on the free-running count. -/
def slotsElapsed (s : State) : Nat := s.tim.frc * 5 / 4

/-- A number of slots divided among one class more than n, in a way that free values give. -/
def splitSlots (f : Nat → Nat) : Nat → Nat → List Nat
  | 0, left => [left]
  | n + 1, left => f n % (left + 1) :: splitSlots f n (left - f n % (left + 1))

/-- The slot class counters of the unit to which an index belongs: they sum to its elapsed slots, an engine's less the slots that it
still holds for its command. -/
def unitSlots (s : State) (set idx : Nat) : List Nat :=
  let f (j : Nat) : Nat := Config.freeValue (s.freeCtr + idx / 8 * 8 + j)
  let n := slotsElapsed s
  splitSlots f 5 (if set = 3 then n - f 6 % (n + 1) else n)

/-- The live value of a counter, free for a slot class. -/
def liveRead (s : State) (set idx : Nat) : BitVec 64 :=
  if (slotClassIdx set).contains idx then BitVec.ofNat 64 ((unitSlots s set idx).getD (idx % 8) 0) else counter s set idx

/-! ## Snapshots (R425) -/

/-- Every counter of a set that a requester may read, at one instant. -/
def snapshot (s : State) (req set : Nat) : Tab (BitVec 64) :=
  let live := (s.tel.counters.filter fun x => x.1 / 4294967296 = set && readsIdx s req set (x.1 % 4294967296)).map
    fun x => (x.1 % 4294967296, x.2)
  if req = mgr then (slotClassIdx set).foldl (fun m i => tput m i (liveRead s set i)) live else live

def snapKey (set req : Nat) : Nat := set * 32 + req

/-- Freezes a set for a requester. -/
def freeze (req set : Nat) (s : State) : State :=
  if readsSet req set then { s with tel := { s.tel with snaps := tput s.tel.snaps (snapKey set req) (snapshot s req set) } } else s

/-- CNT.FRZ. -/
def execCntFrz (c : Cmd) (s : State) : Res :=
  .next <| runCmd c 0x241 .any [] (fun s =>
    fin c stOK (retTime 5 s.tim.now) (advanceClasses (forEach (maskTiles (opf c 4 7 0)) (freeze c.req) s))) s

/-- The value that CNT.RD returns for a counter. -/
def cntValue (s : State) (req set idx : Nat) : BitVec 64 :=
  if set ≤ 7 then tget (tget s.tel.snaps (snapKey set req)) idx else counter s set idx

def cntSet (c : Cmd) : Nat := opf c 4 7 0

/-- Checks of CNT.RD: the set, the count, the range, and what a slice may read. -/
def cntRdChecks (c : Cmd) (s : State) : List (Bool × Nat) :=
  let set := cntSet c
  let n := opf c 6 2 0
  let first := (opw c 5).toNat
  [((setShape set).isNone || n = 0 || 4 < n || setSize set < first + n, stBAD_OPERAND),
   (!readsSet c.req set || (List.range n).any fun i => !readsIdx s c.req set (first + i), stNO_PERMISSION)]

def cntRdWords (c : Cmd) (s : State) : List (Nat × Word) :=
  (List.range 4).flatMap fun i =>
    retBits (8 + 2 * i) 2 (if i < opf c 6 2 0 then (cntValue s c.req (cntSet c) ((opw c 5).toNat + i)).toNat else 0)

/-- CNT.RD. -/
def execCntRd (c : Cmd) (s : State) : Res :=
  .next <| runCmd c 0x242 .any (cntRdChecks c s) (fun s => fin c stOK (cntRdWords c s) s) s

/-! ## Dump records (R426) -/

/-- Runs of up to four consecutive indices. -/
def runsOf (l : List Nat) : List (List Nat) :=
  (l.foldl (fun (acc : List (List Nat)) i => match acc with
    | g :: r => if g.length < 4 && g.head? = some (i - 1) then (i :: g) :: r else [i] :: acc
    | [] => [[i]]) []).reverse.map List.reverse

/-- Readable indices of a set in [lo, hi). -/
def readable (s : State) (req set lo hi : Nat) : List Nat :=
  ((List.range (hi - lo)).map (lo + ·)).filter (readsIdx s req set)

/-- The first and last index of a set that a requester may read. -/
def firstReadable (s : State) (req set : Nat) : Option Nat :=
  ((List.range (setCount set)).find? (readsInst s req set)).map (· * setStride set)
def lastReadable (s : State) (req set : Nat) : Option Nat :=
  ((List.range (setCount set)).reverse.find? (readsInst s req set)).map fun i => (i + 1) * setStride set - 1

/-- The words of a record. `seq` 0 marks a DEMAND record. -/
def dumpWords (s : State) (req set seq : Nat) (skipped : Bool) (run : List Nat) : List Word :=
  let first := run.any fun i => firstReadable s req set = some i
  let last := run.any fun i => lastReadable s req set = some i
  pack [(30, 30, (decide (seq = 0)).toNat), (29, 29, first.toNat), (28, 28, last.toNat), (27, 27, (skipped && first).toNat),
        (26, 24, run.length), (7, 0, set)] ::
  word (run.headD 0) :: (timeWords s.tim.now ++ [word seq, 0, 0] ++ run.flatMap fun i => wordsOf 2 (leBytes 8 (liveRead s set i).toNat))

/-- Indices that one step of CNT.DUMP covers. -/
def dumpStepSize : Nat := 4096

/-- Writes the records of [lo, hi) to a ring. -/
def writeDump (req r set seq lo hi : Nat) (skipped : Bool) (s : State) : State :=
  forEach (runsOf (readable s req set lo hi)) (fun run s => advanceClasses (pushEntry req r (dumpWords s req set seq skipped run) s)) s

/-! ## CNT.DUMP (R427) -/

/-- The requester's own dump ring with LOG2 of 10 or more. -/
def dumpRingOk (s : State) (req r : Nat) : Bool :=
  ringExists s req r && (ringSt s req r).kind = 6 && 10 ≤ (ringSt s req r).log2

def dumpCursor (set idx : Nat) : Nat := idx + set * 4294967296

def dumpCursorOk (c : Cmd) : Bool :=
  let k := opCursor c
  k = startCursor || (k / 4294967296 = cntSet c && k % 4294967296 ≤ setSize (cntSet c))

def dumpRing (c : Cmd) : Nat := opf c 5 7 0

/-- The ring becomes its requester's subscriber ring of the set. -/
def subscribe (req set r : Nat) (s : State) : State :=
  { s with tel := { s.tel with subs := tput s.tel.subs (snapKey set req) (some r) } }

/-- One step: 4,096 indices, not begun where fewer than 1,024 entries are free. -/
def dumpStep (c : Cmd) (cur : Nat) (tot : Nat × Nat) (s : State) : State × Nat × (Nat × Nat) × Option (Nat × List (Nat × Word)) :=
  let set := cntSet c
  let lo := cur % 4294967296
  let hi := min (lo + dumpStepSize) (setSize set)
  if lo = setSize set then (s, cur, tot, some (stOK, []))
  else if ringRoom (ringSt s c.req (dumpRing c)) < 1024 then (s, cur, tot, some (stPARTIAL, []))
  else
    (writeDump c.req (dumpRing c) set 0 lo hi false s, dumpCursor set hi, tot, if hi = setSize set then some (stOK, []) else none)

/-- CNT.DUMP. -/
def execCntDump (c : Cmd) (s : State) : Res :=
  let set := cntSet c
  .next <| runCmd c 0x243 .any
    (iterChecks c s [((setShape set).isNone || !dumpCursorOk c || !dumpRingOk s c.req (dumpRing c), stBAD_OPERAND),
      (!readsSet c.req set, stNO_PERMISSION)])
    (fun s => iterRun c (if opCursor c = startCursor then dumpCursor set 0 else opCursor c) (dumpStep c)
      (iff_ (!iterating c s) (subscribe c.req set (dumpRing c)) s)) s

/-! ## Periodic dumps (R428) -/

/-- Writes a block's records while the ring has room; the answer is the index at which it stopped. -/
def pumpBlock (req r set seq : Nat) (lo hi : Nat) (s : State) : State × Nat :=
  let runs := runsOf (readable s req set lo hi)
  let room := ringRoom (ringSt s req r)
  let k := snapKey set req
  let write (run : List Nat) (s : State) : State :=
    let s' := advanceClasses (pushEntry req r (dumpWords s req set seq (tget s.tel.skipped k) run) s)
    if run.any fun i => firstReadable s req set = some i then { s' with tel := { s'.tel with skipped := tput s'.tel.skipped k false } }
    else s'
  (forEach (runs.take room) write s, if runs.length ≤ room then hi else ((runs.drop room).headD []).headD hi)

/-- Goes on with a subscriber's dump for a number of blocks. -/
def pumpN (req set : Nat) : Nat → State → State
  | 0, s => s
  | n + 1, s =>
    let k := snapKey set req
    match tget s.tel.subs k, tget s.tel.nextIdx k with
    | some r, some lo =>
      let hi := min (lo + dumpStepSize) (setSize set)
      let (s, at_) := pumpBlock req r set (tget s.tel.dumpSeq k) lo hi s
      let done : Bool := at_ = setSize set
      let s := { s with tel := { s.tel with nextIdx := tput s.tel.nextIdx k (if done then none else some at_) } }
      if done || at_ ≠ hi then s else pumpN req set n s
    | _, _ => s

def pump (req set : Nat) (s : State) : State := pumpN req set (setSize set / dumpStepSize + 1) s

/-- A subscriber's dump of a set begins, or skips the period. -/
def beginDump (set req : Nat) (s : State) : State :=
  let k := snapKey set req
  if (tget s.tel.subs k).isNone then s
  else if (tget s.tel.nextIdx k).isSome then
    ownerCnt req 13 1 { s with tel := { s.tel with skipped := tput s.tel.skipped k true } }
  else
    pump req set { s with tel := { s.tel with
      nextIdx := tput s.tel.nextIdx k (some 0), dumpSeq := tupd s.tel.dumpSeq k fun n => (n + 1) % 4294967296 } }

/-- A period of a set begins. -/
def periodBegins (set : Nat) (s : State) : State := forEach (List.range 17) (beginDump set) s

/-- Periodic dumps of a set run. -/
def dumpsRun (s : State) (set : Nat) : Bool := set < 21 && (setShape set).isSome && rfld s .telDumpPer 0 set 9 0 ≠ 0

/-- DUMP_PERIOD. -/
def execDumpPeriod (set : Nat) (s : State) : Res := .next (iff_ (dumpsRun s set) (periodBegins set) s)

/-- CNT.PER: the first dump begins when the command completes. -/
def execCntPer (c : Cmd) (s : State) : Res :=
  let set := cntSet c
  let ms := opf c 5 9 0
  .next <| runCmd c 0x244 .manager [((setShape set).isNone || 1000 < ms, stBAD_OPERAND)] (fun s =>
    iff_ (ms ≠ 0) (periodBegins set) (fin c stOK [] (rset .telDumpPer 0 set 9 0 ms s))) s

/-- A ring's subscriptions end. -/
def unsubscribe (f : Nat → Option Nat → Bool) (s : State) : State :=
  let ends (k : Nat) : Bool := (tget s.tel.subs k).isSome && f k (tget s.tel.subs k)
  { s with tel := { s.tel with subs := tkeep (fun k _ => !ends k) s.tel.subs, nextIdx := tkeep (fun k _ => !ends k) s.tel.nextIdx } }

/-- Dumps that wait for room in a ring go on (R428). -/
def pumpRing (req r : Nat) (s : State) : State :=
  forEach (List.range 21) (fun set s => iff_ (tget s.tel.subs (snapKey set req) = some r) (pump req set) s) s

/-! ## Engine samples (R430, R431) -/

/-- The sampler of an engine. -/
def sampler (s : State) (e : Nat) : Word := rget s .telEngSample (e / 2) (e % 2)

/-- The class sampled; 6 and 7 act as 0. -/
def sampledClass (w : Word) : Nat := if 6 ≤ fld w 30 28 then 0 else fld w 30 28

/-- ENGINE_SAMPLE. The UPC at the boundary of ROM microcode is free (log 30). -/
def execEngineSample (e skid : Nat) (s : State) : Res :=
  .next <| match (engine s e).last with
    | none => s
    | some (req, r, op, tag) =>
      if !(e < 16 && bit (sampler s e) 31 && engineUp s e) then s
      else if 3 ≤ skid then ownerCnt mgr 12 1 s
      else
        telRecord mgr (pack [(23, 16, 2), (15, 0, e)]) (pack [(1, 0, skid), (6, 4, sampledClass (sampler s e))])
          [pack [(10, 0, op), (11, 11, (decide (req = mgr)).toNat), (15, 12, if req = mgr then 0 else req), (23, 16, r)], tag,
           word (drawn s % 65536)] (advanceFree s)

end Sys2Proof.Machine
end

