-- ==== Sys2Proof/Machine/Rings.lean ====
section
/-! DEFINITION. Rings and slices (17_host.md): doorbells, enabling, slice resets, the RING, SLC and SYS.NOP / SYS.FENCE commands,
packet TX, MSI-X and the PCIe link (R339, R363 to R386). -/
namespace Sys2Proof.Machine

/-! ## Indices (R370 to R373) -/


/-- The index of the next entry to fetch. -/
def fetchIdx (g : Ring) : Nat :=
  match g.fetched.getLast? with
  | some (i, _) => idxNext g.log2 i
  | none => g.cons

/-- Nothing of a ring is in progress (R378): fetched RX descriptors only wait for frames. -/
def ringIdle (g : Ring) : Bool := g.iter.isNone && g.busy.isNone && g.taken.isEmpty && (g.kind = 2 || (covered g).isEmpty)

/-- A PHASE bit. -/
def phase1 (d : List Word) : Bool := bit (d.getD 0 0) 31

/-- The ring stops with an error flag, and RING_ERROR is posted (R373, R374). -/
def ringFails (req r : Nat) (f : Ring → Ring) (s : State) : State :=
  ringError req r (setRing req r (fun g => { f g with en := false, recheck := false }) s)

/-! ## Doorbells (R371, R380) -/

/-- A doorbell index that is refused. -/
def bellBad (g : Ring) (idx : Nat) : Bool :=
  2 ^ g.log2 ≤ idx % 65536 ||
  (if g.kind ≤ 2 then 2 ^ g.log2 < occupancy g.log2 idx g.cons || occupancy g.log2 idx g.cons < handed g
   else handed g < occupancy g.log2 g.prod idx)

/-- A refused doorbell: DB_ERR and RING_ERROR. -/
def bellRefused (req r : Nat) (s : State) : State :=
  ringError req r (ringCnt req r 5 1 (setRing req r (fun g => { g with dbErr := true }) s))

/-- The summary of lost notices goes into the first slot freed (R380). -/
def writeSummary (req r : Nat) (s : State) : State :=
  let g := ringSt s req r
  if g.kind = 7 && 0 < g.lost && !ringFull g then
    pushEntry req r (noticeWords 0x05 0 0 s.tim.now (word g.lost :: timeWords g.firstLoss))
      (setRing req r (fun g => { g with lost := 0, firstLoss := {} }) s)
  else s

/-- A doorbell of a submission ring hands entries over. -/
def bellSubmit (req r idx : Nat) (s : State) : State :=
  if (ringSt s req r).prod = idx then s
  else
    let n := s.hif.bellCount
    setRing req r (fun g => { g with prod := idx, bells := g.bells ++ [(idx, n)] }) { s with hif := { s.hif with bellCount := n + 1 } }

/-- A doorbell of a notice ring frees entries: a summary comes first, then records that wait. -/
def bellConsume (req r idx : Nat) (s : State) : State :=
  let was := (ringSt s req r).cons
  let s := setRing req r (fun g => { g with cons := idx }) s
  if was = idx then s else iff_ (req = mgr) (postTod 8) (pumpRing req r (writeSummary req r s))

/-- A RING_DB write. -/
def doorbell (req r idx : Nat) (s : State) : State :=
  let g := ringSt s req r
  if !ringExists s req r || g.resetting then s
  else if bellBad g idx then bellRefused req r s
  else if g.kind ≤ 2 then bellSubmit req r idx s
  else bellConsume req r idx s

/-- RING_DOORBELL: INDEX is a field of 17 bits. -/
def execRingDoorbell (req ring idx : Nat) (s : State) : Res := .next (iff_ (hifUp s) (doorbell req ring (idx % 131072)) s)

/-! ## Fetching (R373) -/

/-- A packet TX ring waits for a buffer, and no pool has one for it yet (R251): BUF_WAIT. -/
def bufHeld (s : State) (req r : Nat) : Bool :=
  (ringSt s req r).bufWait.any fun x => (choosePool s x.1 x.2 (reqUser req)).isNone

/-- A submission ring is served now: rings are accepted from step 7, the manager's ring 0 also while the ROM or the steward serves it (R88).
A command ring whose tile has no engine left is stopped (R362). -/
def ringLive (s : State) (req r : Nat) : Bool :=
  let g := ringSt s req r
  ringExists s req r && g.kind ≤ 2 && !g.resetting && hifUp s && s.pwr.sagStep < (if g.kind = 0 then 1 else 3) &&
  ((7 ≤ stage s && stage s ≤ 9 && (g.kind ≠ 0 || (ringEngine s g).isSome)) || (req = mgr && r = 0 && (stage s = 0x80 || stage s = 0x81)))

/-- A ring fetches now: it is served and enabled, and does not wait for a buffer. -/
def fetches (s : State) (req r : Nat) : Bool := ringLive s req r && (ringSt s req r).en && !bufHeld s req r

/-- Takes entries read from the next fetch index on: PHASE 1 is kept; PHASE 0 ends the run, and a covered one is read again. -/
def keepEntries : List (List Word) → Ring → Ring
  | [], g => g
  | e :: l, g =>
    let n := g.fetched.length
    if 2 ^ g.log2 ≤ n || handed g + 16 ≤ n then g
    else if phase1 e then keepEntries l { g with fetched := g.fetched ++ [(fetchIdx g, e)] }
    else if n < handed g then { g with recheck := true }
    else g

/-- A fetch of a ring keeps entries, under the next number in the order of fetches. -/
def keepFetched (req r : Nat) (es : List (List Word)) (s : State) : State :=
  let n := s.hif.fetchCount
  let stamp (g : Ring) : Ring :=
    { g with stamps := g.fetched.map fun x => (x.1, ((g.stamps.find? fun y => y.1 = x.1).map (·.2)).getD n) }
  setRing req r (fun g => stamp (keepEntries es g)) { s with hif := { s.hif with fetchCount := n + 1 } }

/-- PHASE_RECHECK: the entry read again, 1 µs later. -/
def execPhaseRecheck (req ring : Nat) (entry : List Word) (s : State) : Res :=
  .next <| iff_ (fetches s req ring && (ringSt s req ring).recheck) (fun s =>
    if phase1 entry then keepFetched req ring [entry] (setRing req ring (fun g => { g with recheck := false }) s)
    else ringFails req ring (fun g => { g with phaseErr := true }) s) s

/-! ## Home engines, enabling and disabling (R349, R366, R375, R378) -/

/-- The running engine with the fewest homed command rings, ties to the lower number. -/
def chooseEngine (s : State) : Option Nat :=
  ((List.range 16).filter (engineUp s)).foldl (fun b e =>
    match b with
    | some x => if (homedRings s e).length < (homedRings s x).length then some e else some x
    | none => some e) none

/-- An enabled admin ring without a home engine gets one. -/
def homeAdmin (req : Nat) (s : State) : State :=
  let g := ringSt s req 0
  match if g.en && !g.ex then chooseEngine s else none with
  | some e => setRing req 0 (fun g => { g with ex := true, engine := e }) s
  | none => s

/-- The PASID bound to a slice. -/
def boundPasid (s : State) (sl : Nat) : Option Nat :=
  if bit (rget s .hifBind 0 sl) 31 then some (rfld s .hifBind 0 sl 19 0) else none

/-- A write that sets EN takes effect: not without a binding, nor in a fenced slice's window (R366, R385). -/
def mayEnable (s : State) (req r : Nat) : Bool :=
  ringExists s req r && !(ringSt s req r).resetting && (req = mgr || ((boundPasid s req).isSome && !s.hif.sliceFenced.contains req))

/-- RING_CTL.EN set: fetching resumes at RING_IDX, and dump records that wait go on. -/
def enableRing (req r : Nat) (s : State) : State :=
  iff_ (mayEnable s req r && !(ringSt s req r).en) (fun s =>
    let s := setRing req r (fun g => { g with en := true, recheck := false }) s
    iff_ (req = mgr) (postTod 8) (pumpRing req r (if r = 0 then homeAdmin req s else s))) s

/-- RING_CTL.EN cleared: an iterative command ends PARTIAL. -/
def disableRing (req r : Nat) (s : State) : State :=
  iff_ (ringExists s req r && (ringSt s req r).en) (fun s => ringStop req r (endPartial req r s)) s

def execRingEnable (req ring : Nat) (s : State) : Res := .next (iff_ (hifUp s) (enableRing req ring) s)

def execRingDisable (req ring : Nat) (s : State) : Res := .next (iff_ (hifUp s) (disableRing req ring) s)

/-- MSIX_HOLDOFF_END (R368). -/
def execMsixHoldoffEnd (req ring : Nat) (s : State) : Res :=
  let g := ringSt s req ring
  .next <| iff_ g.irqDue (fun s =>
    let s := setRing req ring (fun g => { g with irqDue := false, lastIrq := some s.tim.frc }) s
    iff_ (g.irqEn && g.vector ≠ 0x7FF) (sendVector ((vectorRange s req).1 + g.vector)) s) s

/-- HOST_READ_TIMEOUT (R363, R374): ring memory that cannot be read stops the ring; otherwise the command or descriptor at the
consumer index ends SQUASHED. -/
def execHostReadTimeout (req ring : Nat) (ringMem : Bool) (s : State) : Res :=
  .next <| iff_ (hifUp s && ringExists s req ring) (fun s =>
    let s := rset .hifStat 0 0 30 30 1 s
    if ringMem then ringFails req ring (fun g => { g with dbErr := true }) s
    else match headEntry (ringSt s req ring) with
      | some d => completeWith req ring d stSQUASHED [] s
      | none => s) s

/-! ## Slice reset (R385) -/

/-- Ring 0 after a slice reset: base, size and EVT_RING stay. -/
def keptRing (g : Ring) : Ring := { (default : Ring) with base := g.base, log2 := g.log2, cfgLog := g.cfgLog, evtRing := g.evtRing }

/-- Every ring of a requester but its ring 0 is destroyed; ring 0 becomes what a function makes of it. -/
def clearRings (req : Nat) (f : Ring → Ring) (s : State) : State :=
  { s with hif := { s.hif with
      rings := tput (s.hif.rings.filter fun x => x.1 / 256 ≠ req) (ringKey req 0) (f (ringSt s req 0)) } }

/-- The slice's ring buffers are free, those it handed over with frames included (R256). -/
def freeRingBufs (sl : Nat) (s : State) : State :=
  let mine (b : Buf) : Bool := b.alloc && b.tag / 256 = 3 * 16 + sl
  let s := { s with hif := { s.hif with txBufs := s.hif.txBufs.filter fun x => !mine (buf s x.2) } }
  forEach (runningTiles s) retryWaits (bufFreeAll (fun _ b => mine b) s)

/-- Step 4; the slice's snapshot bank is cleared (R425). -/
def sliceStep4 (sl : Nat) (s : State) : State :=
  let s := freeRingBufs sl (flushPort (512 + sl) s)
  let s := { s with hif := { s.hif with timers := s.hif.timers.filter fun x => x.1 / 16 ≠ sl } }
  let s := { s with tel := { s.tel with snaps := tkeep (fun k _ => k % 32 ≠ sl) s.tel.snaps } }
  secDrop (secId sl) (unsubscribe (fun k _ => k % 32 = sl) s)

/-- What a command that waited for the reset does at its end: RING.UNBIND takes the binding away with ring 0's base and size. -/
def waitedEnds (sl : Nat) (c : Cmd) (s : State) : State :=
  let s := if opcodeOf c.desc = 0x304 then
      rput .hifBind 0 sl 0 (setRing sl 0 (fun g => { g with base := 0, log2 := 6, cfgLog := 6 }) s)
    else s
  fin c stOK [] s

/-- Steps 3 to 5. -/
def sliceResetEnd (sl : Nat) (s : State) : State :=
  let s := clearRings sl keptRing (sliceStep4 sl s)
  let done := s.hif.slcWait.filter fun x => x.1 = sl
  let s := { s with hif := { s.hif with
    sliceResetting := s.hif.sliceResetting.filter (fun x => x ≠ sl), slcWait := s.hif.slcWait.filter fun x => x.1 ≠ sl } }
  let s := resetDone (unitId 7 sl) 3 mgr s
  forEach done (fun x => waitedEnds sl x.2) s

/-- SLICE_RESET_DONE. -/
def execSliceResetDone (slice : Nat) (s : State) : Res :=
  .next (iff_ (s.hif.sliceResetting.contains slice) (sliceResetEnd slice) s)

/-- A command starts a slice reset and waits for its end. -/
def resetAndWait (c : Cmd) (sl : Nat) (s : State) : State :=
  if s.hif.slcWait.contains (sl, c) then s
  else
    let s := commandWaits c (sliceResetStart sl s)
    { s with hif := { s.hif with slcWait := s.hif.slcWait ++ [(sl, c)] } }

/-- SLC.RST. -/
def execSlcRst (c : Cmd) (s : State) : Res :=
  let sl := opf c 4 3 0
  .next <| runCmd c 0x341 .manager [(!sliceOn s sl, stBAD_OPERAND)] (resetAndWait c sl) s

/-- SLC.INFO: the slice's shares (R6) and its admission limit. -/
def execSlcInfo (c : Cmd) (s : State) : Res :=
  let sl := if c.req = mgr then opf c 4 3 0 else c.req
  .next <| runCmd c 0x342 .any [(!sliceOn s sl, stBAD_OPERAND)] (fun s =>
    let n := nSlices s
    fin c stOK [(4, setFld (opw c 4) 3 0 sl), (5, word (2097152 / n)), (6, word (1572864 / n)), (7, word (1048576 / n)),
      (8, word (262144 / n)), (9, word (4096 / n)), (10, rget s .bufSliceLimit (homeTile s c) 0)] s) s

/-! ## RING commands (R366, R375 to R377) -/

/-- RING.BIND. -/
def execRingBind (c : Cmd) (s : State) : Res :=
  let sl := opf c 4 3 0
  let p := opf c 5 19 0
  .next <| runCmd c 0x303 .manager [(!sliceOn s sl || p = 0, stBAD_OPERAND)] (fun s =>
    if (boundPasid s sl).isSome || (List.range 16).any (fun x => boundPasid s x = some p) then fin c stEXISTS [] s
    else fin c stOK [] (rput .hifBind 0 sl (pack [(31, 31, 1), (19, 0, p)]) s)) s

/-- RING.UNBIND. -/
def execRingUnbind (c : Cmd) (s : State) : Res :=
  let sl := opf c 4 3 0
  .next <| runCmd c 0x304 .manager [(!sliceOn s sl, stBAD_OPERAND)] (resetAndWait c sl) s

def crtRing (c : Cmd) : Nat := opf c 4 7 0
def crtKind (c : Cmd) : Nat := opf c 4 11 8
def crtEngine (c : Cmd) : Nat := opf c 4 21 17
def crtVector (c : Cmd) : Nat := opf c 5 26 16

/-- Operands of RING.CRT that do not fit (R368, R376). -/
def crtBad (c : Cmd) (s : State) : Bool :=
  crtRing c = 0 || 7 < crtKind c || opf c 4 16 12 < 6 || 16 < opf c 4 16 12 || opAddr c 6 % 4096 ≠ 0 ||
  (crtKind c = 0 && 16 ≤ crtEngine c && crtEngine c ≤ 30) || (opb c 4 22 && crtKind c ≠ 7) || (opb c 4 23 && crtKind c ≠ 2) ||
  (crtVector c ≠ 0x7FF && (vectorRange s c.req).2 ≤ crtVector c)

/-- The home engine of a new command ring: the one named, or the module's choice; `none` where it does not run. -/
def crtHome (c : Cmd) (s : State) : Option Nat :=
  if crtKind c ≠ 0 then some 0
  else if crtEngine c = 31 then chooseEngine s
  else if engineUp s (crtEngine c) then some (crtEngine c) else none

/-- The ring that RING.CRT makes. -/
def crtNew (c : Cmd) (e : Nat) : Ring :=
  { ex := true, kind := crtKind c, log2 := opf c 4 16 12, cfgLog := opf c 4 16 12, base := opAddr c 6, engine := e, evtRing := opf c 4 31 24,
    classMask := if crtKind c = 2 then opf c 5 7 0 else 0, vector := crtVector c, irqEn := crtVector c ≠ 0x7FF,
    dflt := opb c 4 22, mgmt := opb c 4 23 }

/-- A new DEFAULT or MGMT ring takes the flag from the ring that held it. -/
def takeFlags (c : Cmd) (s : State) : State :=
  let one (k : Nat) (g : Ring) : Ring :=
    if k / 256 = c.req then { g with dflt := g.dflt && !opb c 4 22, mgmt := g.mgmt && !opb c 4 23 } else g
  { s with hif := { s.hif with rings := tmap one s.hif.rings } }

/-- RING.CRT. -/
def execRingCrt (c : Cmd) (s : State) : Res :=
  .next <| runCmd c 0x301 .adminRing
    [(crtBad c s, stBAD_OPERAND), (opb c 4 23 && c.req ≠ mgr, stNO_PERMISSION), ((crtHome c s).isNone, stFENCED_UNIT)] (fun s =>
      if ringExists s c.req (crtRing c) then fin c stEXISTS [] s
      else fin c stOK [] (setRing c.req (crtRing c) (fun _ => crtNew c ((crtHome c s).getD 0)) (takeFlags c s))) s

/-- A ring is destroyed; dumps into it end. -/
def destroyRing (req r : Nat) (s : State) : State :=
  setRing req r (fun _ => default) (unsubscribe (fun k x => k % 32 = req && x = some r) s)

/-- RING.DST: the command holds its ring until the ring it names is idle. -/
def execRingDst (c : Cmd) (s : State) : Res :=
  let r := crtRing c
  .next <| runCmd c 0x302 .adminRing [(r = 0, stBAD_OPERAND)] (fun s =>
    if !ringExists s c.req r then fin c stNOT_FOUND [] s
    else
      let s := disableRing c.req r s
      if ringIdle (ringSt s c.req r) then fin c stOK [] (destroyRing c.req r s) else commandWaits c s) s

/-! ## SYS.NOP and SYS.FENCE (R339) -/

def execSysNop (c : Cmd) (s : State) : Res := .next <| runCmd c 0x441 .any [] (fin c stOK []) s

/-- Order of arrival of the doorbell that covers the command at a ring's consumer index. -/
def coverBell (s : State) (req r : Nat) : Nat :=
  match (ringSt s req r).bells with
  | (_, n) :: _ => n
  | [] => s.hif.bellCount

/-- A command ring still holds a command handed over before a doorbell. -/
def owesBefore (n : Nat) (g : Ring) : Bool := g.kind = 0 && g.bells.any fun b => b.2 < n

/-- Every command and DRAM write that a fence covers has completed. -/
def fenceClear (c : Cmd) (s : State) : Bool :=
  !(s.hif.rings.any fun x => (opb c 4 0 || x.1 / 256 = c.req) && x.1 ≠ ringKey c.req c.ring && owesBefore (coverBell s c.req c.ring) x.2) &&
  !dramWritesOpen s (homeTile s c)

/-- SYS.FENCE: it completes once what it covers has. -/
def execSysFence (c : Cmd) (s : State) : Res :=
  .next <| runCmd c 0x442 .any [(opb c 4 0 && c.req ≠ mgr, stNO_PERMISSION)] (fun s => if fenceClear c s then fin c stOK [] s else commandWaits c s) s

/-! ## Packet TX (R381, R382) -/

def txLen (c : Cmd) : Nat := opf c 4 13 0
def txPort (c : Cmd) : Nat := opf c 5 9 0
def txHandle (c : Cmd) : Bool := opb c 0 30
def txTs (c : Cmd) : Bool := opb c 0 29
def txDirect (c : Cmd) : Bool := opb c 0 28
def txBuf (c : Cmd) : Nat := (opw c 6).toNat

/-- The tile that takes the frame: the slice's, or that of the port the manager names. -/
def txTile (c : Cmd) : Nat := if c.req = mgr then portTile (txPort c) else c.req % 8

/-- The management port's frames meet no tile. -/
def txMgmt (c : Cmd) : Bool := c.req = mgr && txPort c = 1023

def txBad (c : Cmd) (s : State) : Bool :=
  txLen c < 60 || 10236 < txLen c || (c.req = mgr && !txDirect c) ||
  (txDirect c && !txMgmt c && (512 ≤ txPort c || !portExists s (txPort c))) ||
  (txHandle c && (!handleOk s (txBuf c) || poolSize (handlePool (txBuf c)) < txLen c))

/-- The tag of a buffer names the requester. -/
def tagOf (req tag : Nat) : Bool := if req = mgr then tag / 4096 = 4 else tag / 256 = 3 * 16 + req

/-- What is wrong with a handed-over buffer: status and effect (R254, R382). -/
def txClaim (c : Cmd) (s : State) : Option (Nat × (State → State)) :=
  if !txHandle c then none
  else if !(buf s (txBuf c)).alloc then some (stNOT_FOUND, freeTwice (txBuf c) (ringTag c.req c.ring))
  else if !tagOf c.req (buf s (txBuf c)).tag then some (stNO_PERMISSION, freeForeign (txBuf c) (ringTag c.req c.ring))
  else none

/-- The descriptor is taken; `st` is its completion where it needs no more. -/
def txTake (c : Cmd) (fid : Nat) (done : Option (Nat × List (Nat × Word))) (s : State) : State :=
  let s := setRing c.req c.ring (fun g => { g with bufWait := none, taken := g.taken ++ [{ fid := fid, desc := c.desc, done := done }] }) s
  txFlush c.req c.ring (ringSt s c.req c.ring).taken s

/-- A descriptor completes with a status and nothing is sent. -/
def txEnds (c : Cmd) (st : Nat) : State → State := txTake c 0 (some (st, []))

/-- The frame's name. -/
def txFid (s : State) : Nat := 1099511627776 + s.hif.txSeq * 8589934592

/-- The frame's bytes, without FCS. -/
def txBytes (c : Cmd) (s : State) : List Byte :=
  if txHandle c then readMem s (bufAddr (txBuf c) 0) (txLen c) else (hostData c).take (txLen c)

/-- The frame as it enters its tile: pipeline 0 of the tile takes it. -/
def txFrame (c : Cmd) (s : State) (fid : Nat) (bs : List Byte) : Frame :=
  let t := txTile c
  { fid := fid, port := if c.req = mgr then 1023 else 512 + c.req, tile := t, pipe := t * 8, bytes := bs ++ fcsOf bs, injected := true,
    ts := s.tim.now, landing := cellsOf (bs.length + 4), tailSeen := true, enq := s.tim.frc % 4294967296,
    edited := bs,
    carry := { frcIn := s.tim.frc, frcEnq := s.tim.frc, md := mdSet 140 140 1 (mdSet 89 80 (if c.req = mgr then 1023 else 512 + c.req) 0) } }

/-- A quarantined port sends the manager's frames as they are (R309); every other DIRECT frame goes to its leaf from step 5. -/
def txGoes (c : Cmd) (f : Frame) (s : State) : State :=
  let cls := opf c 0 27 25
  if !txDirect c then wakePipe f.pipe { s with frames := s.frames ++ [f] }
  else if c.req = mgr && quarantined s (txPort c) && (port s (txPort c)).aligned then
    frameOver f.fid 0 (retTime 2 s.tim.now) (portCnt (txPort c) 17 (f.edited.length + 4) (portCnt (txPort c) 16 1
      (emit (.frame (txPort c) f.bytes) s)))
  else
    let s := { s with frames := s.frames ++ [f] }
    match leafBase s (txPort c) with
    | none => tileCnt f.tile 32 1 (gone f s)
    | some b =>
      let leaf := b / 8 * 8 + cls
      toLeaf { f with cls := cls, leaf := leaf, dst := leafTile leaf, egress := txPort c } 0 s

/-- The frame is made and sent; its descriptor completes at once, or waits for the stamp. -/
def txSend (c : Cmd) (s : State) : State :=
  let fid := txFid s
  let f := txFrame c s fid (txBytes c s)
  let s := { s with hif := { s.hif with
    txSeq := s.hif.txSeq + 1, txBufs := if txHandle c then s.hif.txBufs ++ [(fid, txBuf c)] else s.hif.txBufs } }
  txGoes c f (txTake c fid (if txTs c then none else some (stOK, [])) s)

/-- A frame for the management port leaves there; its stamp is the time at which it is taken. -/
def txToMgmt (c : Cmd) (s : State) : State :=
  let s := emit (.mgmtFrame (txBytes c s)) s
  let s := iff_ (txHandle c) (bufRelease (txBuf c)) s
  txTake c 0 (some (stOK, if txTs c then retTime 2 s.tim.now else [])) s

/-- A ring that waits for a buffer (R251). -/
def txWaits (c : Cmd) : State → State := setRing c.req c.ring fun g => { g with bufWait := some (txTile c, txLen c) }

/-- A descriptor that passes its checks. The buffer that HIF takes for a frame it reads is free again once the frame has passed
on. -/
def txPass (c : Cmd) (s : State) : State :=
  if txHandle c then (if txMgmt c then txToMgmt c s else txSend c s)
  else if txMgmt c then (if c.data.isNone then txEnds c stSQUASHED s else txToMgmt c s)
  else
    match allocFor (txTile c) (txLen c) (reqUser c.req) (ringTag c.req c.ring) s with
    | none => txWaits c s
    | some (s, h) => if c.data.isNone then txEnds c stSQUASHED (bufRelease h s) else txSend c (bufRelease h s)

/-- The status of the first check that a descriptor fails (R382). -/
def txFails (c : Cmd) (s : State) : Option Nat :=
  firstFail [(txBad c s || (txDirect c && c.req ≠ mgr && txPort c = 1023), stBAD_OPERAND),
    (txDirect c && c.req ≠ mgr && portOwner s (txPort c) ≠ some c.req, stNO_PERMISSION),
    (inSafe s || (!txMgmt c && tileDown s (txTile c)), stFENCED_UNIT)]

/-- PACKET_TX_TAKE. -/
def execPacketTxTake (c : Cmd) (s : State) : Res :=
  .next <| iff_ (ringExists s c.req c.ring && (ringSt s c.req c.ring).kind = 1 && !(ringSt s c.req c.ring).resetting && hifUp s &&
      calRuns s && s.pwr.sagStep < 3 && s.ps.module ≤ 1) (fun s =>
    match txFails c s with
    | some st => txEnds c st s
    | none =>
      match txClaim c s with
      | some (st, f) => txEnds c st (f s)
      | none => txPass c s) s

/-! ## MSI-X and the link (R363, R367, R442, R443) -/

/-- HIF_DECODE records an access under the code of its BAR: 0 BAR0, 1 BAR2, 2 BAR4 (R440, R442). -/
def decodeErr (b bar off : Nat) (s : State) : State :=
  rput .hifDecode 0 0 (setFld (setFld (setBit (rget s .hifDecode 0 0) b true) 29 28 bar) 25 0 (off % 67108864 / 4 * 4)) s

/-- A dword of the MSI-X table: vector control is masked at reset. -/
def msixDword (s : State) (k : Nat) : Word := (tget s.hif.msixTab k).getD (if k % 4 = 3 then 1 else 0)

/-- Writes a dword of the table. A vector unmasked with its pending bit set sends its message (PCIe MSI-X rules; log 18). -/
def msixWrite (k : Nat) (w : Word) (s : State) : State :=
  let w := if k % 4 = 3 then word (w.toNat % 2) else if k % 4 = 0 then word (w.toNat / 4 * 4) else w
  let v := k / 4
  let s := { s with hif := { s.hif with
    msixTab := tput s.hif.msixTab k (if w = (if k % 4 = 3 then 1 else 0) then none else some w) } }
  if k % 4 = 3 && w = 0 && s.hif.msixPend.contains v then
    emitHost (.msix v) { s with hif := { s.hif with msixPend := s.hif.msixPend.filter fun x => x ≠ v } }
  else s

/-- Pending bits of a dword of the array replaced. -/
def msixPendWrite (k n : Nat) (s : State) : State :=
  { s with hif := { s.hif with msixPend :=
      (s.hif.msixPend.filter fun v => v / 32 ≠ k) ++ ((List.range 32).filter n.testBit).map fun b => k * 32 + b } }

/-- What a BAR4 write does. A partial write of the table and any write of the pending bits are undefined under the PCIe rules: a
free value is left (log 18). -/
def bar4Effect (off be : Nat) (val : Word) (s : State) : State :=
  if off < 0x8000 then
    if be % 16 = 15 then msixWrite (off / 4) val s else advanceFree (msixWrite (off / 4) (word (drawn s)) s)
  else if off < 0x8100 then advanceFree (msixPendWrite ((off - 0x8000) / 4) (drawn s % 4294967296) s)
  else decodeErr 30 2 off s

/-- A request's party under R365: it is rejected, or not. -/
def pasidRejected (s : State) (a : Access) : Bool :=
  match a.pasid with
  | none => false
  | some p =>
    match (List.range 16).find? fun sl => boundPasid s sl = some p with
    | none => true
    | some sl => !(a.bar = 0 || (a.bar = 2 && a.off / 65536 = sl))

/-- A rejected request sets PASID_REJ and is counted. -/
def pasidReject (s : State) : State := rset .hifStat 0 0 31 31 1 (ringCnt 17 0 0 1 s)

/-- BAR4_WRITE. -/
def execBar4Write (a : Access) (s : State) : Res :=
  .next <| iff_ (hifUp s && a.bar = 4 && a.off < 65536) (fun s =>
    if pasidRejected s a then pasidReject s else bar4Effect a.off a.be a.val s) s

/-- Lanes and generation that option PCIE_CFG allows (R76). -/
def pcieLanes (s : State) : Nat := 8 / 2 ^ (optByte s 2 % 4)
def pcieGen (s : State) : Nat := optByte s 2 / 4 % 8

/-- PCIE_LINK_CHANGE. -/
def execPcieLinkChange (up : Bool) (speed width : Nat) (s : State) : Res :=
  .next <| iff_ (hifUp s && (!up || (1 ≤ speed && speed ≤ pcieGen s && [1, 2, 4, 8].contains width && width ≤ pcieLanes s))) (fun s =>
    let w := rget s .hifStat 0 0
    rput .hifStat 0 0 (setBit (setFld (setFld w 19 16 (if up then speed else 0)) 11 8 (if up then width else 0)) 0 up) s) s

end Sys2Proof.Machine
end

