-- ==== Sys2Proof/Machine/Engines.lean ====
section
/-! DEFINITION. Command engines and microcode (16_engines.md): microwords, faults, boundaries, and what arrives with fetched
descriptors (R348 to R362, R373). -/
namespace Sys2Proof.Machine

/-! ## Microwords (R352 to R356) -/

/-- A register of an engine; X0 reads 0. -/
def xget (g : Engine) (i : Nat) : Word := if i = 0 then 0 else tget g.x i

/-- A register written; writes of X0 are ignored. -/
def xset (i : Nat) (w : Word) (g : Engine) : Engine := if i = 0 then g else { g with x := tput g.x i w }

/-- The word of the control store at an address; none at or above 0xA000 (R355). -/
def storeWord (s : State) (a : Nat) : Option Word :=
  if a < 0x8000 then some (Config.romWord a) else if a < 0xA000 then some (tget s.patch.code (a - 0x8000)) else none

/-- The immediate, sign-extended. -/
def signImm (n : Nat) : Word := BitVec.ofInt 32 (sext 16 n)

/-- Results of the register micro-ops; `none` for every other code. -/
def aluResult (op : Nat) (a b : Word) (imm : Nat) : Option Word :=
  match op with
  | 0x01 => some (a + b)
  | 0x02 => some (a + signImm imm)
  | 0x03 => some (a - b)
  | 0x04 => some (a &&& b)
  | 0x05 => some (a &&& word imm)
  | 0x06 => some (a ||| b)
  | 0x07 => some (a ||| word imm)
  | 0x08 => some (a ^^^ b)
  | 0x09 => some (a <<< (imm % 32))
  | 0x0A => some (a >>> (imm % 32))
  | 0x0B => some (word (imm * 65536 + a.toNat % 65536))
  | 0x0C => some (if a.toNat < b.toNat then 1 else 0)
  | 0x0D => some (crcFrom a (leBytes 4 b.toNat))
  | _ => none

/-- What a microword does next. -/
inductive MicroNext where
  | next (upc : Nat)
  | fault (code : Nat)
  /-- an instruction boundary; the command has ended or was passed on -/
  | boundary
deriving DecidableEq, Repr

/-- The push of CALL and HOOK: a ninth one faults. -/
def microPush (e : Nat) (g : Engine) (target : Nat) (s : State) : State × MicroNext :=
  if 8 ≤ g.stack.length then (s, .fault 0x020D)
  else (setEngine e (fun g => { g with stack := (g.upc + 1) :: g.stack }) s, .next target)

/-- EB takes values that are free: entry layouts are fixed by the ROM revision, and host data is the host's (log 14). -/
def ebFree (e lo n : Nat) (s : State) : State :=
  forEach (List.range n) (fun i s =>
    advanceFree (iff_ (lo + i < 32) (setEngine e fun g => { g with eb := tput g.eb (lo + i) (word (drawn s)) }) s)) s

/-- A destination register takes 0 or 1 as an access ends. -/
def accessEnds (e d : Nat) (bad : Bool) : State → State := setEngine e (xset d (if bad then 1 else 0))

/-- The bytes of EB words. -/
def ebBytes (g : Engine) (lo n : Nat) : List Byte := bytesOf ((List.range n).map fun i => tget g.eb ((lo + i) % 32))

/-- The descriptor in X16 to X31. -/
def microDesc (g : Engine) : List Word := (List.range 16).map fun i => tget g.x (16 + i)

/-- The requester and ring of the command that an engine runs. -/
def microCmd (g : Engine) : Nat × Nat := g.cmd.getD (mgr, 0)

/-- Another engine holds an object: HOLD waits (R341). -/
def heldElsewhere (s : State) (e : Nat) (x : Nat × Word) : Bool := s.engines.any fun g => g.1 ≠ e && g.2.holds.contains x

/-- The action of a microword whose code no ALU result covers. -/
def microOther (e op d imm : Nat) (a b : Word) (g : Engine) (s : State) : State × MicroNext :=
  let on : MicroNext := .next (g.upc + 1)
  let q := microCmd g
  let space := imm / 4096
  match op with
  | 0x00 => (s, on)
  | 0x10 => (setEngine e (xset d (tget g.eb (imm % 32))) s, on)
  | 0x11 => (setEngine e (fun g => { g with eb := tput g.eb (imm % 32) a }) s, on)
  | 0x12 =>
    if !Config.microSpaceDefined space then (s, .fault 0x020F)
    else
      let s := ebFree e 0 32 s
      (advanceFree (accessEnds e d (drawn s % 2 = 1) s), on)
  | 0x13 =>
    if !Config.microSpaceDefined space then (s, .fault 0x020F) else (setEngine e (fun g => { g with writes := g.writes + 1 }) s, on)
  | 0x14 =>
    let s := ebFree e (imm % 32) (imm / 32 % 32 + 1) s
    (advanceFree (accessEnds e d (drawn s % 2 = 1) s), on)
  | 0x15 =>
    let s := emitHost (.hostWrite q.1 (a.toNat + b.toNat * 4294967296) (ebBytes g (imm % 32) (imm / 32 % 32 + 1))) s
    (accessEnds e d (!linkUp s) s, on)
  | 0x16 => if heldElsewhere s e (imm % 16, a) then (s, .next g.upc) else (setEngine e (fun g => { g with holds := (imm % 16, a) :: g.holds }) s, on)
  | 0x17 => (setEngine e (fun g => { g with holds := g.holds.filter fun x => x ≠ (imm % 16, a) }) s, on)
  | 0x18 => (s, .next imm)
  | 0x19 => (s, .next (if a = 0 then imm else g.upc + 1))
  | 0x1A => (s, .next (if a ≠ 0 then imm else g.upc + 1))
  | 0x1B => microPush e g imm s
  | 0x1C =>
    match g.stack with
    | [] => (s, .fault 0x020D)
    | r :: l => (setEngine e (fun g => { g with stack := l }) s, .next r)
  | 0x1D =>
    let v := (tget s.patch.vectors (imm % 64)).toNat
    if 32768 ≤ v then microPush e g (0x8000 + v % 8192) s else (s, on)
  | 0x20 =>
    let cur := BitVec.ofNat 64 ((tget g.x 18).toNat + (tget g.x 19).toNat * 4294967296)
    (setEngine e (fun g => { g with count := 0, stepped := some (tget g.x 18, tget g.x 19) }) (emitHost (.cursor q.1 q.2 (ringSt s q.1 q.2).cons cur) s), on)
  | 0x21 => (completeWith q.1 q.2 (microDesc g) (imm % 256) [] s, .boundary)
  | 0x22 => (setRing q.1 q.2 (fun r => { r with busy := some (microDesc g) }) s, .boundary)
  | 0x23 => (s, on)
  | 0x24 => (s, if dramWritesOpen s (e / 2) then .next g.upc else on)
  | 0x25 => (postAt q.1 (imm % 256) q.2 (tget g.x 17) s.tim.now [] s, on)
  | _ => (s, .fault 0x020B)

/-- Executes the word at UPC. -/
def microExec (e : Nat) (w : Word) (s : State) : State × MicroNext :=
  let g := engine s e
  let imm := fld w 15 0
  let a := xget g (fld w 20 16)
  let b := xget g (fld w 4 0)
  match aluResult (fld w 31 26) a b imm with
  | some v => (setEngine e (xset (fld w 25 21) v) s, .next (g.upc + 1))
  | none => microOther e (fld w 31 26) (fld w 25 21) imm a b g s

/-! ## Faults and boundaries (R354, R359, R360) -/

/-- A microcode fault stops the engine at once: address and depth are kept, the engine is fenced, its command ends SQUASHED. -/
def microFault (e code : Nat) (s : State) : State :=
  let s := setEngine e (fun g => { g with stopUpc := g.upc, stopDepth := g.stack.length }) s
  let s := report (unitId 4 e) code 0 (engine s e).upc s
  if (engine s e).fenced then s else fenceEngine e (engineFaultOf code) s

/-- A fence or reset request that waits is taken. -/
def takeRequest (e : Nat) (s : State) : State :=
  let g := engine s e
  if g.fenceReq then fenceEngine e g.fault s else if g.resetReq then engineReset e mgr s else s

/-- A boundary at which the engine's command has ended. Where the boundary routine stands is the ROM's: UPC is free (log 14). -/
def microBoundary (e : Nat) (s : State) : State :=
  let u := 0x800 + drawn s % 0x7800
  takeRequest e (setEngine e (fun g => { g with cmd := none, writes := 0, count := 0, stack := [], upc := u }) (advanceFree s))

/-- Microwords that may run without a boundary. -/
def runaway : Nat := 1048576

/-- One microword. A next address outside the store faults, and so does the last of too many words. -/
def microStep (e : Nat) (s : State) : State :=
  let g := engine s e
  if !engineUp s e || g.cmd.isNone then s
  else match storeWord s g.upc with
    | none => microFault e 0x020C s
    | some w =>
      let x := microExec e w (setEngine e (fun g => { g with count := g.count + 1 }) s)
      match x.2 with
      | .fault code => microFault e code x.1
      | .boundary => microBoundary e x.1
      | .next u =>
        if 0xA000 ≤ u then microFault e 0x020C x.1
        else if runaway ≤ (engine x.1 e).count then microFault e 0x020E x.1
        else
          let s := setEngine e (fun g => { g with upc := u }) x.1
          if (engine s e).count = 0 then takeRequest e s else s

/-- n microwords. -/
def microRun (e : Nat) : Nat → State → State
  | 0, s => s
  | n + 1, s => microRun e n (microStep e s)

/-- ENGINE_FENCE_TIMEOUT: no boundary came within 100 µs. -/
def execEngineFenceTimeout (e : Nat) (s : State) : Res :=
  .next (iff_ ((engine s e).fenceReq || (engine s e).resetReq) (takeRequest e) s)

/-! ## Fetched descriptors (R332, R336, R338, R350, R355, R373) -/

/-- Names that each opcode group defines (R334). -/
def groupNames : Nat → Nat
  | 0x01 => 7
  | 0x02 => 5
  | 0x03 => 5
  | 0x04 => 8
  | 0x05 => 6
  | 0x06 => 2
  | 0x07 => 5
  | 0x08 => 2
  | 0x09 => 4
  | 0x0A => 7
  | 0x0B => 6
  | 0x0C => 4
  | 0x0D => 2
  | 0x0E => 6
  | 0x0F => 4
  | 0x10 => 3
  | 0x11 => 6
  | _ => 0

/-- An opcode that the table lists. -/
def opDefined (op : Nat) : Bool := 1 ≤ op % 64 && op % 64 ≤ groupNames (op / 64)

/-- Hook 0 lets a patch take over every opcode (R356). -/
def hooked (s : State) : Bool := 32768 ≤ (tget s.patch.vectors 0).toNat

/-- The status of a fetched command whose opcode is not defined, where its ring is served: BAD_OPCODE, or FENCED_UNIT while ring 0
is served without engines (R83, R85). -/
def undefinedEnds (s : State) (req r : Nat) (d : List Word) : Option Nat :=
  if opDefined (opcodeOf d) || (ringSt s req r).kind ≠ 0 || (ringSt s req r).iter.isSome then none
  else if stage s = 0x80 || stage s = 0x81 then some stFENCED_UNIT
  else if hooked s || 2 ≤ s.ps.module || (ringEngine s (ringSt s req r)).isNone then none
  else some stBAD_OPCODE

/-- Commands at the head of a ring that no routine serves complete. -/
def dropUndefined (req r : Nat) : List (Nat × List Word) → State → State
  | [], s => s
  | x :: l, s =>
    match undefinedEnds s req r x.2 with
    | some st => dropUndefined req r l (completeWith req r x.2 st [] s)
    | none => s

/-- A fetched urgent command stops the iterative ones that it may (R338); the ring's own one where it waits behind it. -/
def urgentFetched (req r : Nat) (s : State) : State :=
  let g := ringSt s req r
  let waits := if g.iter.isSome then (covered g).drop 1 else covered g
  iff_ (g.kind = 0 && waits.any fun x => urgentDesc x.2) (urgentStops req (homeNow s g) fun _ => true) s

/-- The engine takes the command at a ring's head: its words go to X16 to X31, and the dispatch word is next. -/
def dispatch (e req r : Nat) (d : List Word) (s : State) : State :=
  setEngine e (fun g => { g with
    x := (List.range 16).foldl (fun x i => tput x (16 + i) (d.getD i 0)) g.x, upc := opcodeOf d, cmd := some (req, r), writes := 0,
    stepped := none, count := 0, turn := some (ringKey req r) }) s

/-- The engine runs microwords on the ring's command, if it is free or runs that command. -/
def microTurn (req r n : Nat) (s : State) : State :=
  if n = 0 || (ringSt s req r).kind ≠ 0 then s
  else match headEntry (ringSt s req r), ringEngine s (ringSt s req r) with
    | some d, some e =>
      match (engine s e).cmd with
      | none => if ringReady s (req, r) && itsTurn s req r d then microRun e n (dispatch e req r d s) else s
      | some x => if x = (req, r) then microRun e n s else s
    | _, _ => s

/-- What a fetch brings: entries kept, undefined opcodes ended, microwords run. -/
def fetched (req ring : Nat) (entries : List (List Word)) (micro : Nat) (s : State) : State :=
  let g := ringSt s req ring
  let s := keepFetched req ring (entries.drop g.fetched.length) s
  let s := dropUndefined req ring (covered (ringSt s req ring)) (urgentFetched req ring s)
  microTurn req ring micro s

/-- DESCRIPTOR_FETCH_DONE. A ring that does not fetch goes on with what it fetched (R378); once a sag has begun only the instruction in
an engine's microcode runs on (R59). -/
def execDescriptorFetchDone (req ring : Nat) (entries : List (List Word)) (micro : Nat) (s : State) : Res :=
  .next <|
    if fetches s req ring && !(ringSt s req ring).recheck then fetched req ring entries micro s
    else iff_ (ringLive s req ring || (sagRunning s && inMicrocode s req ring)) (microTurn req ring micro) s

end Sys2Proof.Machine
end

