-- ==== Sys2Proof/Machine/Power.lean ====
section
/-! DEFINITION. Mains, bus and the sag sequence, the save, reset pins, derating by plate temperature (02_module_power.md, R66 to R68,
R416). -/
namespace Sys2Proof.Machine

/-! ## Measured values -/

/-- BUS_V, in units of 0.5 V. -/
def setBus (v : Nat) : State → State := rset .pwrStat 0 0 21 12 v

/-- The bus takes a measured value, which no rule gives: a free value under a condition. -/
def measureBus (f : Nat → Nat) (s : State) : State := advanceFree (setBus (f (drawn s)) s)

/-- Band of a plate reading: 0 to 3 (PWR_THERM). -/
def plateBand (plate : Int) : Nat := if plate ≤ 440 then 0 else if plate ≤ 496 then 1 else if plate ≤ 560 then 2 else 3

/-- The plate sensor reads a value, in 0.125 degrees C. -/
def setPlate (plate : Int) (s : State) : State := rset .pwrTherm 0 0 15 14 (plateBand plate) (rset .pwrTherm 0 0 11 0 (twos 12 plate) s)

/-- PLATE_T. -/
def plateT (s : State) : Int := sext 12 (rget s .pwrTherm 0 0).toNat

/-- SCREEN: the module is a CK-5120-A0X. -/
def screened (s : State) : Bool := bit s.ident 0

/-- Upper plate limit of the ordering code (R3), in 0.125 degrees C. -/
def plateLimit (s : State) : Nat := if screened s then 560 else 440

/-- Sag and return threshold of option SAG_THRESH, in 0.5 V (R58). -/
def sagThreshold (s : State) : Nat := 680 + 20 * min 3 (optByte s 7)
def returnThreshold (s : State) : Nat := sagThreshold s + 40

/-! ## Mains and supply (R44, R56, R59) -/

/-- MAINS_LOST: reported; nothing else changes. -/
def execMainsLost (s : State) : Res :=
  .next <|
    let s := { s with pwr := { s.pwr with convRunning := false } }
    pset .pwrStat 1 false (iff_ s.pwr.powered (pset .pwrStat 2 true) s)

/-- MAINS_RETURN: the converter runs again; a save in progress notes it (R60, R62). -/
def execMainsReturn (s : State) : Res :=
  .next <| pset .pwrStat 1 true { s with
    pwr := { s.pwr with convRunning := true, mainsReturned := s.pwr.mainsReturned || sagRunning s } }

/-- CONVERTER_STOP. -/
def execConverterStop (s : State) : Res := .next { s with pwr := { s.pwr with convRunning := false } }

/-- CONVERTER_FAULT. -/
def execConverterFault (s : State) : Res :=
  .next <| iff_ s.pwr.powered (fun s => report (unitId 13 0) 0x0109 0 0 (pset .pwrStat 5 true s)) s


/-- The module starts from an unpowered state: a cold reset with POR in PLT_RST_CAUSE, alone unless a sag met the unpowered module
(R56, R61, R66, R67). -/
def powerOn (s : State) : State :=
  iff_ s.pwr.earlyHold (pset .pltRstCause 1 true)
    (rput .pwrTherm 0 0 (setFld (rget s .pwrTherm 0 0) 23 16 0) { (default : State) with
      pending := s.pending, freeCtr := s.freeCtr, serial := s.serial, ident := s.ident, out := s.out, sens := junctionsOnly s,
      nvm := { s.nvm with dram := s.nvm.dram.filter fun x => !x.2.clearNext },
      flt := { (default : Collector) with clkBad := s.flt.clkBad },
      pwr := { pinHold := s.pwr.pinHold } })

/-- The least bus of a start from an unpowered state: 380 V, and after an early sag the return threshold (R56, R61). -/
def startBus (s : State) : Nat := if s.pwr.earlyHold then max 760 (returnThreshold s) else 760

/-- SUPPLY_GOOD: with mains present, an unpowered module starts; a powered one only shows that the supply is good again. -/
def execSupplyGood (s : State) : Res :=
  .next <| iff_ (pbit s .pwrStat 1 && s.pwr.convRunning) (fun s =>
    measureBus (fun v => max (if s.pwr.powered then 760 else startBus s) (v % 1024))
      (if s.pwr.powered then pset .pwrStat 0 true s else powerOn s)) s

/-- The unpowered module: the isolated stage has stopped and only the NVM is left. -/
def unpowered (s : State) : State :=
  rput .pwrTherm 0 0 (rget s .pwrTherm 0 0) (rput .pwrStat 0 0 (pack [(1, 1, rfld s .pwrStat 0 0 1 1)]) { (default : State) with
    pending := s.pending, freeCtr := s.freeCtr, serial := s.serial, ident := s.ident, out := s.out, sens := s.sens, nvm := s.nvm,
    pwr := { powered := false, convRunning := false, pinHold := s.pwr.pinHold } })

/-- BUS_BELOW_250V while the converter does not run (R57, R59 step 6a). -/
def execBusBelow250v (s : State) : Res := .next (iff_ (!s.pwr.convRunning) unpowered s)

/-- PLATE_COLD_HOLD_END: the plate reaches -40 degrees C (R39). -/
def execPlateColdHoldEnd (s : State) : Res := .next (iff_ (plateT s < -320) (setPlate (-320)) s)

/-- Start-up does not begin: no power, a pin, the plate, a thermal trip or an early sag holds it (R39, R61, R66, R416). -/
def startHeld (s : State) : Bool := !s.pwr.powered || s.pwr.pinHold || s.pwr.thermHold || s.pwr.earlyHold || plateT s < -320

/-! ## The sag sequence (R58 to R61) -/

/-- The steward firmware runs. -/
def stewardRuns (s : State) : Bool := 3 ≤ stage s && stage s ≠ 0x80

/-- The command of a message that the sag suspended ends SQUASHED (R396; log 104). -/
def suspendedEnds (s : State) : State :=
  forEach ((secRings s).filter fun x => hasMessage s x.1) (fun x => endBusy x.1 x.2 stSQUASHED []) s

/-- Every iterative command ends PARTIAL (R59 step 3). -/
def iterativesEnd (s : State) : State := forEach (s.hif.rings.map (·.1)) (fun k => endPartial (k / 256) (k % 256)) s

/-- Step 1: SAG_N asserts and the steward makes its level-2 request (R396). Step 3 begins with it: engines fetch nothing more,
iterative commands end, and an instruction in an engine's microcode runs on to its end. -/
def sagBegins (s : State) : State :=
  suspendedEnds <| iterativesEnd (secUrgent 2 (pset .pwrStat 4 true (pset .pwrStat 3 true
    { s with pwr := { s.pwr with sagStep := 1, sagTime := s.tim.now, mainsReturned := false, sagShed := [] } })))

/-- A sag before the steward firmware runs: everything is held in reset (R61). -/
def sagEarly (s : State) : State := setStage 0 { s with pwr := { s.pwr with earlyHold := true } }

/-- SAG_THRESHOLD_CROSSING; a second crossing has no further effect (R60). A module whose supply never reached supply good has no
sag sequence: its start shows SAG (R61). -/
def execSagThresholdCrossing (s : State) : Res :=
  .next <|
    if !s.pwr.powered then { s with pwr := { s.pwr with earlyHold := true } }
    else iff_ (s.pwr.sagStep = 0) (fun s =>
      let s := measureBus (fun v => v % sagThreshold s) (pset .pwrStat 0 false s)
      if stewardRuns s then sagBegins s else sagEarly s) s

/-- A lane group's ports are held down and its cage is set to low power. -/
def shedGroup (g : Nat) (s : State) : State :=
  cagePins g (cage s g).rstLow true (forEach (groupPorts s g) (fun p => portHoldDown p false) s)

/-- Lane groups of the shed order that the sag sequence has not shed. -/
def sagLeft (s : State) : List Nat := (img s).shedOrder.filter fun g => !s.pwr.sagShed.contains g

/-- SAG_SHED_TICK: step 2, the next eight lane groups in shed order. -/
def execSagShedTick (s : State) : Res :=
  .next <| iff_ (s.pwr.sagStep = 1 || s.pwr.sagStep = 2) (fun s =>
    let gs := (sagLeft s).take 8
    forEach gs shedGroup { s with pwr := { s.pwr with sagStep := 2, sagShed := s.pwr.sagShed ++ gs } }) s

/-! ## The save (R62, R63) -/

def slotValid (x : SaveSlot) : Bool := !x.empty && x.committed && x.crcOk

/-- The newest valid slot. -/
def newestSave (s : State) : Option Nat :=
  match slotValid s.nvm.save0, slotValid s.nvm.save1 with
  | true, true => some (if newer 32 s.nvm.save1.seq.toNat s.nvm.save0.seq.toNat then 1 else 0)
  | true, false => some 0
  | false, true => some 1
  | false, false => none

/-- The slot that a save writes. -/
def saveTarget (s : State) : Nat := match newestSave s with
  | some k => 1 - k
  | none => 0

/-- Its sequence number. -/
def saveNext (s : State) : Word := match newestSave s with
  | some k => (saveSlot s k).seq + 1
  | none => 1

def putSave (k : Nat) (x : SaveSlot) (s : State) : State :=
  { s with nvm := if k = 0 then { s.nvm with save0 := x } else { s.nvm with save1 := x } }

/-- Journal entries that a slot holds. -/
def saveJournalRoom : Nat := (16777216 - saveJournalAt) / 32

/-- What a save writes: the frozen fault log, the status registers, the port counters, the newest journal entries. -/
def saveBody (s : State) : SaveSlot :=
  let j := s.exm.journal
  { empty := false, crcOk := true, seq := saveNext s, time := s.pwr.sagTime, imageSeq := (img s).seq,
    trunc := s.exm.jTrunc || decide (saveJournalRoom < j.length), faults := s.flt.fifo,
    status := [(rget s .pltRstCause 0 0).toNat, (rget s .fltStat 0 0).toNat, (rget s .pwrStat 0 0).toNat],
    counters := tkeep (fun k _ => k < 528 * 64) s.tel.counters, journal := j.drop (j.length - saveJournalRoom) }

/-- Every engine has finished its instruction (R59 step 3). -/
def enginesDone (s : State) : Bool := s.engines.all fun x => x.2.cmd.isNone

/-- Step 4: the fault log freezes, pipelines, plait endpoints and SerDes lose power, and the save begins. -/
def saveBegins (s : State) : State :=
  let s := freezeFifo s
  let s := { s with frames := [], fab := { s.fab with wires := [], held := [], nulls := [], notices := [], asms := [] } }
  putSave (saveTarget s) (saveBody s) { s with pwr := { s.pwr with sagStep := 4 } }

/-- SAVE_START, once every lane group is shed and the engines have stopped. -/
def execSaveStart (s : State) : Res :=
  .next (iff_ ((s.pwr.sagStep = 1 || s.pwr.sagStep = 2) && (sagLeft s).isEmpty && enginesDone s) saveBegins s)

/-- SAVE_WRITTEN: the commit word is written last; SAVE_DONE. -/
def execSaveWritten (s : State) : Res :=
  .next <| iff_ (s.pwr.sagStep = 4) (fun s =>
    let k := saveTarget s
    let s := putSave k { saveSlot s k with committed := true, mainsReturned := s.pwr.mainsReturned } s
    rset .pwrSaveStat 0 0 4 4 1 { s with pwr := { s.pwr with sagStep := 5 } }) s

/-- The reset that ends a sag: cold after an early sag; after the save warm, or the largest that waits (R59 step 6b, R60, R61,
R69). -/
def sagReset (s : State) : State :=
  if s.pwr.earlyHold then coldReset { s with pwr := { s.pwr with earlyHold := false } }
  else moduleReset (pendingCold s) s

/-- The bus is back after a sag of a powered module. -/
def busReturns (s : State) : State :=
  let s := measureBus (fun v => max (returnThreshold s) (v % 1024)) s
  let s := iff_ (760 ≤ rfld s .pwrStat 0 0 21 12) (pset .pwrStat 0 true) s
  sagReset (pset .pltRstCause 1 true s)

/-- A module whose supply was not good yet when the bus sagged starts at the return threshold. -/
def sagStart (s : State) : State := measureBus (fun v => max (startBus s) (v % 1024)) (powerOn s)

/-- BUS_AT_RETURN_THRESHOLD. -/
def execBusAtReturnThreshold (s : State) : Res :=
  .next <|
    if s.pwr.powered then iff_ (s.pwr.earlyHold || s.pwr.sagStep = 5) busReturns s
    else iff_ (s.pwr.earlyHold && pbit s .pwrStat 1 && s.pwr.convRunning) sagStart s

/-! ## Reset pins (R51, R66, R68) -/

/-- Which pin the latest PIN came from. -/
def pinFrom (perst : Bool) : State → State := rset .pltRstInfo 0 0 30 30 perst.toNat

/-- MOD_RESET_N_ASSERT. -/
def execModResetNAssert (s : State) : Res :=
  .next <| iff_ s.pwr.powered (fun s =>
    requestReset 2 true (pinFrom false { s with pwr := { s.pwr with pinHold := true } })) s

/-- MOD_RESET_N_RELEASE. -/
def execModResetNRelease (s : State) : Res := .next { s with pwr := { s.pwr with pinHold := false } }

/-- The manager's commands end unwritten and its rings go (R68, R345). -/
def managerOut (s : State) : State :=
  let s := forEach (List.range 256) (fun r s => match (ringSt s mgr r).iter with
    | some it => iterStops it.desc s
    | none => s) s
  let mine (g : Engine) : Bool := g.cmd.any fun c => c.1 = mgr
  let s := { s with engines := tmap (fun _ (g : Engine) => if mine g then { g with cmd := none, writes := 0 } else g) s.engines }
  let s := { s with hif := { s.hif with slcWait := s.hif.slcWait.filter fun x => x.2.req ≠ mgr } }
  clearRings mgr (fun _ => default) (secDrop (secId mgr) (unsubscribe (fun k _ => k % 32 = mgr) s))

/-- PERST_N under PERST_POLICY 1 (R68). -/
def hostReset (s : State) : State :=
  forEach (List.range (nSlices s)) sliceResetStart (managerOut (endpointReset s))

/-- Step 3 of start-up has released HIF, whether or not its clock is good. -/
def hifReleased (s : State) : Bool := 3 ≤ stage s

/-- PERST_N_ASSERT: warm reset, or the host interface only. During a sag sequence the reset that ends it is the larger one. The pin
acts at any time; before the option commit the options are the safe default, so that it asks for a warm reset (DESIGN CHOICE, log
89). -/
def execPerstNAssert (s : State) : Res :=
  .next <| iff_ s.pwr.powered (fun s =>
    let s := pinFrom true s
    if optByte s 9 = 1 then iff_ (hifReleased s && !sagRunning s) hostReset (pset .pltRstCause 2 true s) else requestReset 2 false s) s

/-- FUNCTION_LEVEL_RESET (R363). -/
def execFunctionLevelReset (s : State) : Res := .next (iff_ (hifUp s && !sagRunning s) hostReset s)

/-- WATCHDOG_EXPIRY. -/
def execWatchdogExpiry (s : State) : Res := .next (iff_ (stewardRuns s) (report (unitId 0 0) 0x0305 0 0) s)

/-! ## Derating by plate temperature (R40, R41) -/

/-- Lane groups that a band allows. -/
def bandAllows (b : Nat) : Nat := if b = 0 then 64 else if b = 1 then 56 else 48

/-- A group counts as enabled: in a mode, and not shed or enabled since. -/
def groupEnabled (s : State) (g : Nat) : Bool :=
  (group s g).mode ≠ 15 && (!s.pwr.thermShed.contains g || s.pwr.shedEnabled.contains g)

def enabledCount (s : State) : Nat := ((List.range 64).filter (groupEnabled s)).length

/-- SHED_GROUPS. -/
def noteShed (s : State) : State := rset .pwrTherm 0 0 23 16 s.pwr.thermShed.length s

/-- Sheds groups in order until the count is within an allowance. -/
def shedTo (most : Nat) : List Nat → State → State
  | [], s => s
  | g :: l, s =>
    if enabledCount s ≤ most then s
    else if groupEnabled s g && !s.pwr.thermShed.contains g then
      shedTo most l (shedGroup g { s with pwr := { s.pwr with thermShed := s.pwr.thermShed ++ [g] } })
    else shedTo most l s

/-- THERM_SHED, for a screened module in a band for 10 s with more groups enabled than it allows. -/
def execThermShed (plate : Int) (s : State) : Res :=
  let b := plateBand plate
  .next <| iff_ (screened s && calRuns s && bandAllows b < enabledCount s) (fun s =>
    let s := shedTo (bandAllows b) (img s).shedOrder { setPlate plate s with pwr := { s.pwr with appliedBand := b } }
    report (unitId 0 0) 0x0101 0 0 (noteShed s)) s

/-- A group is no longer shed: its cage leaves low power when it is admitted, and its ports may train. -/
def unshedGroup (g : Nat) (s : State) : State :=
  let s := { s with pwr := { s.pwr with
    thermShed := s.pwr.thermShed.filter (fun x => x ≠ g), shedEnabled := s.pwr.shedEnabled.filter fun x => x ≠ g } }
  let s := forEach (groupPorts s g) portRelease s
  iff_ ((cage s g).state = 2) (cagePins g (cage s g).rstLow false) s

/-- Re-enables groups, those shed last first, up to an allowance. -/
def unshedTo (most : Nat) : List Nat → State → State
  | [], s => s
  | g :: l, s =>
    if enabledCount (unshedGroup g s) ≤ most then unshedTo most l (unshedGroup g s) else s

/-- Upper edge of a band less 3 degrees C. -/
def coolEdge (b : Nat) : Int := if b = 0 then 416 else if b = 1 then 472 else 536

/-- The coolest band cooler than the applied one whose edge the plate is 3 degrees C below. -/
def coolerBand (s : State) (plate : Int) : Option Nat :=
  (List.range 3).find? fun b => b < s.pwr.appliedBand && plate ≤ coolEdge b

/-- THERM_UNSHED, after 60 s. -/
def execThermUnshed (plate : Int) (s : State) : Res :=
  .next <| iff_ (screened s && calRuns s && !s.pwr.thermShed.isEmpty) (fun s =>
    match coolerBand s plate with
    | some b => noteShed (unshedTo (bandAllows b) s.pwr.thermShed.reverse { setPlate plate s with pwr := { s.pwr with appliedBand := b } })
    | none => s) s

/-! ## Thermal trip (R416) -/

/-- TRIP of PLT_THERM_CFG, in 0.125 degrees C. -/
def tripPoint (s : State) : Int := (clamp 106 120 (rfld s .pltThermCfg 0 0 7 0) * 8 : Nat)

/-- A trip's warm reset takes place, or will at the end of a sag: no unit status, safe state or cold start-up absorbs it. -/
def tripActs (s : State) (u : Nat) : Bool :=
  !inSafe s && !((unitSt s u).held && 2 ≤ (unitSt s u).cls) && !coldStartRuns s

/-- THERM_TRIP of a unit: the warm reset that follows is held. -/
def thermTrip (u : Nat) (s : State) : State :=
  report u 0x0304 0 0 (iff_ (tripActs s u) (fun s => { s with pwr := { s.pwr with thermHold := true } }) s)

/-- JUNCTION_THERM_TRIP. -/
def execJunctionThermTrip (tile : Nat) (s : State) : Res :=
  .next <| iff_ (s.pwr.powered && stage s ≠ 0 && tile < 8 && tripPoint s ≤ (tget s.sens tile).junction) (thermTrip (unitId 6 tile)) s

/-- PLATE_THERM_TRIP: the plate reads more than 10 degrees C above its limit. -/
def execPlateThermTrip (s : State) : Res :=
  .next <| iff_ (s.pwr.powered && stage s ≠ 0) (fun s =>
    thermTrip (unitId 0 0) (advanceFree (setPlate (plateLimit s + 81 + drawn s % 1024 : Nat) s))) s

/-- THERM_HOLD_RELEASE: junctions and plate have cooled; the plate reads at or below its limit. -/
def execThermHoldRelease (s : State) : Res :=
  .next <| iff_ s.pwr.thermHold (fun s =>
    let plate : Int := min (plateT s) (plateLimit s : Nat)
    setPlate plate { s with pwr := { s.pwr with thermHold := false } }) s

end Sys2Proof.Machine
end

