-- ==== Sys2Proof/Machine/Startup.lean ====
section
/-! DEFINITION. Start-up (R35, R73 to R88): options, firmware, patches, DRAM, image, tiles; clock loss; tile rejoin; software
resets; the SYS commands of the steward and the ROM. -/
namespace Sys2Proof.Machine

/-! ## Options (R76 to R79) -/

/-- Bytes 1 to 9 lie within their encodings. -/
def optFieldsOk (l : List Byte) : Bool :=
  let b (k : Nat) : Nat := (l.getD k 0).toNat
  b 1 ≤ 4 && 1 ≤ b 2 / 4 && b 2 / 4 ≤ 5 && b 3 ≤ 2 && b 5 ≤ 1 && b 7 ≤ 3 && b 8 ≤ 64 && b 9 ≤ 1

/-- FORMAT and fields are right. -/
def optOk (l : List Byte) : Bool := l.getD 0 0 = 1 && optFieldsOk l

/-- A copy is valid. -/
def optValid (l : List Byte) : Bool := l.length = 72 && optOk l && leNat (l.drop 68) = (crc32c (l.take 68)).toNat

def optSeq (l : List Byte) : Nat := leNat ((l.drop 64).take 4)

/-- The copy that the loader picks: 0 A, 1 B. -/
def optPick (n : Nvm) : Option Nat :=
  match optValid n.optA, optValid n.optB with
  | true, true => if newer 32 (optSeq n.optB) (optSeq n.optA) then some 1 else some 0
  | true, false => some 0
  | false, true => some 1
  | false, false => none

def optCopy (n : Nvm) (k : Nat) : List Byte := if k = 0 then n.optA else n.optB

/-- The options that a load leaves. -/
def optLoaded (n : Nvm) : Options := match optPick n with
  | some k => { bytes := (optCopy n k).take 64, picked := some k }
  | none => {}

/-- A step of start-up ends: one that took more than twice its share of R87's bound, in ns, is recorded as BOOT_SLOW (R88; log 65). -/
def stepEnds (share : Nat) (old s : State) : State :=
  let s := { s with pwr := { s.pwr with stepAt := s.tim.frc } }
  iff_ (2 * share < old.tim.frc - old.pwr.stepAt) (report (unitId 0 0) 0x0102 0 0) s

/-- A share that differs between a cold and a warm start, in ms. -/
def bootShare (s : State) (cold warm : Nat) : Nat := (if pbit s .pltRstInfo 31 then warm else cold) * 1000000

/-- A cage at or above CAGE_CNT is held in reset and low power (R54). -/
def unusedCage (c : Nat) (s : State) : State := iff_ (!((cage s c).rstLow && (cage s c).lpmode)) (cagePins c true true) s

/-- The commit of the option load. -/
def loadOptions (s : State) : State :=
  let n := s.nvm
  let used : Nat := (optPick n).getD 0
  let stat := pack [(3, 3, (optValid n.optB).toNat), (2, 2, (optValid n.optA).toNat), (1, 1, used), (0, 0, (optPick n).isNone.toNat)]
  let seq : Nat := match optPick n with
    | some k => optSeq (optCopy n k)
    | none => 0
  let s := setStage 2 (rput .pltOptStat 0 0 stat (rput .pltOptSeq 0 0 (word seq)
    { s with opt := optLoaded n, pwr := { s.pwr with stepAt := s.tim.frc } }))
  forEach ((List.range 64).filter (cageCount s ≤ ·)) unusedCage s

/-- OPTIONS_COMMITTED ends step 2. -/
def execOptionsCommitted (s : State) : Res := .next (iff_ (stage s = 0 && !startHeld s) loadOptions s)

/-! ## Firmware (R80, R83) -/

def fwValid (x : Option FwImage) : Bool := x.any fun f => f.sigOk

def fwSeq (x : Option FwImage) : Nat := match x with
  | some f => f.seq.toNat
  | none => 0

/-- The slot that the ROM starts: `true` is B. -/
def fwPick (n : Nvm) : Option Bool :=
  match fwValid n.fwA, fwValid n.fwB with
  | true, true => some (fwSeq n.fwA < fwSeq n.fwB)
  | true, false => some false
  | false, true => some true
  | false, false => none

/-- The steward reports the newest valid save slot (R63). -/
def reportSave (s : State) : State :=
  let bad (x : SaveSlot) : Bool := !x.empty && !slotValid x
  let k := newestSave s
  let x := saveSlot s (k.getD 0)
  let w := rget s .pwrSaveStat 0 0
  let w := setFld (setBit w 3 (bit w 3 || bad s.nvm.save0 || bad s.nvm.save1)) 2 0
    (if k.isSome then x.trunc.toNat * 4 + 2 + k.getD 0 else 0)
  rput .pwrSaveSeq 0 0 (if k.isSome then x.seq else 0) (rput .pwrSaveStat 0 0 w s)

/-- The time base is released where it does not run: module time and the free-running count start at 0 (R111). -/
def releaseTime (s : State) : State := if timeRuns s then s else pset .timStat 0 true { s with tim := {} }

/-- Step 3 with a firmware slot: the save report, the time base, the device key, the fault FIFO. -/
def fwStarts (b : Bool) (s : State) : State :=
  let s := pset .fltStat 30 false (pset .pltBootStat 9 b (setStage 3 s))
  stepEnds 400000000 s (checkKey (loadDeviceKey (releaseTime (reportSave s))))

/-- The oscillator or the platform clock was lost. -/
def critClockBad (s : State) : Bool := s.flt.clkBad.contains 0x81 || s.flt.clkBad.contains 0x82

/-- A domain's clock is good again. -/
def clockGood (code : Nat) (s : State) : State := { s with flt := { s.flt with clkBad := s.flt.clkBad.filter fun x => x ≠ code } }

/-- A monitored clock that was lost reads good or not: no command says so but REFCLK's, so the reading is free (log 9). -/
def clockReads (s : State) : Bool := drawn s % 2 = 1

/-- A domain is about to be released: a clock that was lost is read again (R73). -/
def readClock (code : Nat) (s : State) : State :=
  iff_ (s.flt.clkBad.contains code) (fun s => advanceFree (iff_ (clockReads s) (clockGood code) s)) s

/-- A lost CRITICAL clock that qualified again is good from then on. -/
def critClockGood (s : State) : State := { s with flt := { s.flt with clkBad := s.flt.clkBad.filter fun x => x ≠ 0x81 && x ≠ 0x82 } }

/-- A start-up with a lost CRITICAL clock reaches step 3: it goes on if the clock has qualified again and stops with 0x82 if not
(R74); no command says which, so the reading is free (log 9). -/
def clockAtStep3 (b : Bool) (s : State) : State :=
  if drawn s % 2 = 1 then fwStarts b (advanceFree (critClockGood s)) else setStage 0x82 (advanceFree (pset .pltBootStat 9 b s))

/-- FIRMWARE_RUNNING ends step 3, or start-up stops in it: ROM recovery, or a CRITICAL clock. -/
def execFirmwareRunning (s : State) : Res :=
  .next <| iff_ (stage s = 2) (fun s =>
    match fwPick s.nvm with
    | none => setStage 0x80 s
    | some b => if critClockBad s then clockAtStep3 b s else fwStarts b s) s

/-! ## Patches (R82, R357) -/

/-- The checks of R82 and R357. -/
def patchOk (s : State) (p : PatchBlock) : Bool :=
  p.authOk && p.silRev = fld s.ident 31 24 && p.codeLen ≤ 8192 && s.nvm.patHighest ≤ p.level

/-- The copy that the steward loads, with whether it is B. -/
def patchPick (s : State) : Option (Bool × PatchBlock) :=
  match s.nvm.patA.filter (patchOk s), s.nvm.patB.filter (patchOk s) with
  | some a, some b => if a.level < b.level then some (true, b) else some (false, a)
  | some a, none => some (false, a)
  | none, some b => some (true, b)
  | none, none => none

/-- A block goes into every engine and is locked. -/
def loadPatch (b : Bool) (p : PatchBlock) (s : State) : State :=
  pset .pltBootStat 11 true { s with
    patch := { level := p.level, locked := true, copyB := b, vectors := p.vectors, code := p.code }
    nvm := { s.nvm with patHighest := max s.nvm.patHighest p.level } }

/-- PATCHES_DONE ends step 4. PATCH_REJECTED is reported whenever no copy loads, also with both erased (DESIGN CHOICE, log 68). -/
def execPatchesDone (s : State) : Res :=
  .next <| iff_ (stage s = 3) (fun s =>
    let t := setStage 4 s
    stepEnds 50000000 s (match patchPick t with
      | some (b, p) => loadPatch b p t
      | none => report (unitId 0 0) 0x0103 0 0 { t with patch := {} })) s

/-! ## DRAM and the image slot (R84, R85, R275, R276) -/

/-- A cold start-up runs. -/
def coldStart (s : State) : Bool := !pbit s .pltRstInfo 31

/-- The table with a physical rank taken out: mapped straight to the spare where it is free, else to 0xF. -/
def unmapRank (phys : Nat) (c : Channel) : Channel :=
  match lrankOf c phys with
  | some k => { c with remap := c.remap.set k (if spareFree c && phys ≠ 8 then 8 else 15) }
  | none => c

/-- A channel's table and retired ranks from its record. -/
def fromRecord (r : DramRec) (c : Channel) : Channel :=
  r.retired.foldl (fun c p => unmapRank p c) { c with remap := r.remap, out := r.retired }

/-- A channel that cannot train holds no storage: all its ranks are out (R84, R276). -/
def untrained (c : Channel) : Channel := { c with remap := List.replicate 8 15, out := List.range 9, trainFail := true }

/-- A channel leaves training. -/
def trained (r : DramRec) (failed : Bool) (c : Channel) : Channel :=
  let d := { fromRecord r (migOver c) with selfRefresh := false, debt := [] }
  if c.trainFail || failed then untrained d else d

/-- A rank that fails the march: retired with no copy, its record written. -/
def marchFails (c phys : Nat) (s : State) : State :=
  let s := setChannel c (fun x => unmapRank phys { x with out := if x.out.contains phys then x.out else x.out ++ [phys] }) s
  let x := channel s c
  let s := { s with nvm := { s.nvm with dram := tupd s.nvm.dram c fun r => { r with remap := x.remap, retired := x.out } } }
  report (unitId 5 (c * 16 + phys)) 0x0208 0 0 s

/-- Channels without a clock, which cannot train (R73). -/
def unclocked (s : State) : List Nat := (List.range 64).filter fun c => s.flt.clkBad.contains (0x40 + c)

/-- Training of the 64 channels. -/
def trainAll (failed : List Nat) (s : State) : State :=
  let s := forEach (List.range 64) (fun c s => setChannel c (trained (tget s.nvm.dram c) (failed.contains c)) s) s
  forEach (failed.filter (· < 64)) (fun c => report (unitId 5 (c * 16 + 15)) 0x020A 0 0) s

/-- The slot for this start; without one start-up stops after step 5. -/
def chooseSlot (s : State) : State :=
  let s := examineSlots s
  match chosenSlot s with
  | some b => setStage 5 (pset .pltBootStat 10 b s)
  | none => setStage 0x81 s

/-- DRAM_READY ends step 5. -/
def execDramReady (failed : List Nat) (march : List (Nat × Nat)) (s : State) : Res :=
  .next <| iff_ (stage s = 4) (fun s =>
    let t := forEach (List.range 64) (fun c => readClock (0x40 + c)) s
    let t := trainAll (failed ++ (unclocked t).filter fun c => !failed.contains c) t
    let t := forEach (if coldStart t then march.filter (fun x => x.1 < 64 && x.2 < 9) else []) (fun x => marchFails x.1 x.2) t
    stepEnds (bootShare s 2500 200) s (chooseSlot (reseed t))) s

/-- RETRY_IMAGE repeats step 6 of start-up. -/
def retryNow (s : State) : State :=
  iff_ (stage s = 0x81) (fun s => chooseSlot { s with pwr := { s.pwr with stepAt := s.tim.frc } }) s

def execRetryImage (s : State) : Res := .next (iff_ (hifUp s) retryNow s)

/-! ## Tiles and the calendar (R86, R87) -/

/-- A cold start's self-test of every slab: failing ones are fenced. -/
def coldTest (failed : List (Nat × Nat)) (s : State) : State :=
  forEach (List.range 8) (fun t => fenceSlabs t (failed.filter fun x => x.1 / 8 = t && x.1 < 64 && x.2 < 8)) s

/-- IMAGE_IN_TILES ends step 6. -/
def execImageInTiles (failed : List (Nat × Nat)) (s : State) : Res :=
  .next <| iff_ (stage s = 5) (fun s =>
    match imgIn s (imgSlot s) with
    | some i => stepEnds (bootShare s 3000 900) s (iff_ (coldStart s) (coldTest failed) (loadImage i (setStage 6 s)))
    | none => s) s

/-- Pattern of new stripes: 8 tiles, or the 7-tile pattern of the tile that is out. -/
def plaitPattern (s : State) : Nat := ((List.range 8).find? fun t => !tileRunning s t).getD 8

/-- Every running tile takes the calendar of the tiles that run: open stripes close, link and fence bits follow. -/
def plaitJoin (s : State) : State :=
  let mask (f : Nat → Bool) : Nat := ((List.range 8).filter f).foldl (fun n t => n + 2 ^ t) 0
  let up := mask (tileRunning s)
  forEach (runningTiles s) (fun t s =>
    rset .latCalStat t 0 31 24 up (rset .latCalStat t 0 23 16 (255 - up) (rset .latCalStat t 0 11 8 (plaitPattern s) (closeStripes t s)))) s

def setReady (t : Nat) : State → State := rset .pltBootStat 0 0 (16 + t) (16 + t) 1

/-- The lane groups of a tile are released: clocks that were lost are read again (R73). -/
def tileClocks (t : Nat) (s : State) : State := forEach (List.range 8) (fun i => readClock (t * 8 + i)) s

/-- Tiles whose release fails are fenced; the second of them brings the safe state. -/
def tilesFail (failed : List Nat) (s : State) : State :=
  forEach ((List.range 8).filter failed.contains) (fun t => report (unitId 6 t) 0x0202 0 0) s

/-- The tiles that no fence holds are released, and engines accept commands. -/
def tilesUp (s : State) : State :=
  let up := (List.range 8).filter fun t => !tileFenced s t
  let s := forEach up (fun t s => setReady t (tileClocks t s)) (setStage 7 s)
  forEach (List.range 17) homeAdmin (updateLimit (plaitJoin (forEach (List.range 16) resetEngine s)))

/-- TILES_READY ends step 7. -/
def execTilesReady (failed : List Nat) (s : State) : Res :=
  .next <| iff_ (stage s = 6) (fun s => stepEnds (bootShare s 1000 200) s (tilesUp (tilesFail failed s))) s

/-- TILE_GO of a tile: its ports are released and its slabs run. -/
def goTile (t : Nat) (s : State) : State :=
  let s := forEach (tilePorts s t) portRelease (rset .pltBootCtl 0 0 t t 1 s)
  rset .tcmBankSel t 0 1 0 0 s

/-- A write of TILE_GO bits; a tile in reset keeps the bit until it rejoins. -/
def goWrite (mask : Nat) (s : State) : State :=
  forEach (maskTiles (mask % 256)) (fun t s => if tileReady s t then goTile t s else rset .pltBootCtl 0 0 t t 1 s) s

/-- TILE_GO. -/
def execTileGo (mask : Nat) (s : State) : Res := .next (iff_ (hifUp s) (goWrite mask) s)

/-- TILE_GO for every running tile; cages leave reset. -/
def allGo (s : State) : State :=
  let s := forEach (runningTiles s) goTile s
  forEach (List.range (min 64 (cageCount s))) (fun c s => cagePins c false (cage s c).lpmode s) s

/-- CALENDAR_RUNNING: step 8 ends and step 9 begins, which the first forwarded frame ends (R87). -/
def execCalendarRunning (s : State) : Res :=
  .next (iff_ (stage s = 7 && !inSafe s) (fun s => allGo (stepEnds 10000000 s (setStage 8 s))) s)

/-- A unit whose island is not released is fenced, also in a tile that rejoins. -/
def islandFails (u : Nat) (s : State) : State :=
  if inSafe s || (unitTile u).any (tileFenced s) then report u 0x0202 0 0 s else takeFault u 0x0202 0 0 s

/-- ISLAND_RELEASE_TIMEOUT (R75): the unit of an island that is not quiet is fenced. -/
def execIslandReleaseTimeout (unit : Nat) (s : State) : Res :=
  .next <| iff_ (6 ≤ stage s && stage s ≤ 9 &&
      ((unit / 4096 = 2 && unit % 4096 < 64) || (unit / 4096 = 4 && unit % 4096 < 16) || (unit / 4096 = 6 && unit % 4096 < 8)))
    (islandFails unit) s

/-- The replicas of a tile are copied from the lowest-numbered other running tile: what differs is LAST_HIT (R71; log 7). -/
def copyHits (t : Nat) (s : State) : State :=
  match (runningTiles s).find? fun u => u ≠ t with
  | none => s
  | some u =>
    { s with exm := { s.exm with entries := tmap (fun _ e => hitFrom t u e) s.exm.entries }, tblBad := s.tblBad.filter fun x => x.1 ≠ t }

/-- The gate lists of a tile's ports run by module time again. -/
def restartGates (t : Nat) (s : State) : State :=
  { s with sch := { s.sch with gates := tmap (fun p g =>
      if portTile p = t then { activeGate s g.active g.bind with listBit := g.listBit } else g) s.sch.gates } }

/-- A tile rejoins: image values, slabs from the baseline in RECOVERY mode, DRAM, engines, the calendar, a pending swap. -/
def rejoin (t : Nat) (s : State) : State :=
  let s := tileClocks t (restartGates t (setReady t (copyHits t s)))
  let s := setBank t 3 1 (loadRows (fun gp _ => gp / 8 = t) (tileRegs t (img s) s))
  let s := forEach (List.range 8) (fun l => setChannel (t * 8 + l) fun c => { c with selfRefresh := false }) s
  let s := { s with fab := { s.fab with flushed := s.fab.flushed.filter fun x => leafTile x.2 ≠ t } }
  let s := updateLimit (plaitJoin (resetEngine (2 * t + 1) (resetEngine (2 * t) s)))
  let s := iff_ (commitPending s) (scheduleSwap t s.img.commitAt) s
  forEach (runningTiles s) selectTile (iff_ (tileGoBit s t) (goTile t) s)

/-- TILE_REJOIN_DONE, for a tile in reset that no fault holds fenced. -/
def execTileRejoinDone (t : Nat) (s : State) : Res :=
  .next (iff_ (t < 8 && 7 ≤ stage s && stage s ≤ 9 && !tileReady s t && !tileFenced s t) (rejoin t) s)

/-! ## Clocks (R73, R74) -/

/-- CLK_LOST with the code of the first loss. -/
def clkLost (code : Nat) (s : State) : State :=
  if pbit s .pltClkStat 31 then s else pset .pltClkStat 31 true (rset .pltClkStat 0 0 7 0 code s)

/-- Every ring stops; iterative commands end (R73). -/
def stopRings (s : State) : State :=
  forEach (s.hif.rings.map (·.1)) (fun k => disableRing (k / 256) (k % 256)) s

/-- What the reset of a lost domain does. -/
def domainLost (code : Nat) (s : State) : State :=
  if code < 64 then
    forEach (groupPorts s code) (fun p s => clearSas p (setPort p (fun q => { q with aligned := false, signal := false })
      (adjLost p (portHoldDown p false s)))) s
  else if code < 0x80 then forEach (List.range 9) (fun r => retireRank (code - 64) r) s
  else if code = 0x80 then stopRings (endpointReset s)
  else s

/-- The time base is in reset: it starts at 0 when it is released. -/
def timeLost (code : Nat) (s : State) : State := iff_ (code = 0x81) (fun s => pset .timStat 0 false { ppsLow s with tim := {} }) s

/-- The domain is released. -/
def domainUp (s : State) (code : Nat) : Bool :=
  if code < 64 then tileRunning s (code / 8)
  else if code < 0x80 then 5 ≤ stage s && (stage s ≤ 9 || stage s = 0x81)
  else code ≤ 0x82 && 3 ≤ stage s

/-- The monitor notes that a domain's clock is not good. -/
def clockBad (code : Nat) (s : State) : State := { s with flt := { s.flt with clkBad := code :: s.flt.clkBad } }

/-- A released domain has lost its clock: its reset, CLK_LOST, and the fault of its class. -/
def clockFails (code : Nat) (s : State) : State :=
  timeLost code (report (unitId 8 code) (if code < 0x81 then 0x0201 else 0x0303) 0 0 (domainLost code (clkLost code (clockBad code s))))

/-- CLOCK_LOSS: a clock that fails before its domain is released only keeps the domain from being released (R73). -/
def execClockLoss (code : Nat) (s : State) : Res :=
  .next <| iff_ (s.pwr.powered && code ≤ 0x82 && !s.flt.clkBad.contains code) (fun s =>
    if domainUp s code then clockFails code s else clockBad code s) s

/-- CLOCK_REQUALIFIED: the PCIe and HIF domain is released on its own. -/
def execClockRequalified (s : State) : Res :=
  .next (iff_ (s.flt.clkBad.contains 0x80) (fun s => setUnit (unitId 8 0x80) (fun u => { u with fenced := false }) (clockGood 0x80 s)) s)

/-! ## Software resets (R66, R69, PLT_SW_RST) -/

/-- A tile, port or engine that has been released; a request for another is absorbed (R69). -/
def unitReleased (s : State) (t : Nat) : Bool := 7 ≤ stage s && stage s ≤ 9 && tileReady s t

/-- An engine reset is taken at a boundary of the microcode that runs (R360), or at once. -/
def askEngineReset (e : Nat) (s : State) : State :=
  if (engine s e).cmd.isSome then setEngine e (fun g => { g with resetReq := true }) s else engineReset e mgr s

/-- The target of a scope exists. -/
def targetOk (s : State) (scope target : Nat) : Bool :=
  match scope with
  | 0 | 1 => true
  | 2 => target < 8
  | 3 => sliceOn s target && target < 16
  | 4 => target < 512 && portExists s target
  | 5 => target < 16
  | _ => false

/-- A reset of a smaller scope. -/
def scopeReset (scope target : Nat) (s : State) : State :=
  match scope with
  | 2 => iff_ (7 ≤ stage s && stage s ≤ 9) (tileReset target mgr) s
  | 3 => sliceResetStart target s
  | 4 => iff_ (unitReleased s (target / 64)) (portReset target mgr) s
  | 5 => iff_ (unitReleased s (target / 2)) (askEngineReset target) s
  | _ => s

/-- A write of PLT_SW_RST. -/
def swReset (key scope target : Nat) (s : State) : State :=
  if key ≠ 0xC1EA || !targetOk s scope target then s
  else if scope ≤ 1 then leadReset 10 (scope = 0) s
  else scopeReset scope target s

def execSwResetCold (key : Nat) (s : State) : Res := .next (iff_ (hifUp s) (swReset key 0 0) s)
def execSwResetWarm (key : Nat) (s : State) : Res := .next (iff_ (hifUp s) (swReset key 1 0) s)
def execSwResetTile (key tile : Nat) (s : State) : Res := .next (iff_ (hifUp s) (swReset key 2 tile) s)
def execSwResetSlice (key slice : Nat) (s : State) : Res := .next (iff_ (hifUp s) (swReset key 3 slice) s)
def execSwResetPort (key port : Nat) (s : State) : Res := .next (iff_ (hifUp s) (swReset key 4 port) s)
def execSwResetEngine (key e : Nat) (s : State) : Res := .next (iff_ (hifUp s) (swReset key 5 e) s)

/-! ## SYS.RESET, SYS.OPT_WR, SYS.OPT_RD, SYS.FW_STAGE (R79, R83, R335) -/

/-- A command completes OK unless the reset that it asked for has ended it. -/
def finUnless (c : Cmd) (cons : Nat) (s : State) : State := if (ringSt s c.req c.ring).cons = cons then fin c stOK [] s else s

/-- What SYS.RESET does: cold and warm after its completion; a slice reset, and an engine's at a boundary, before it. -/
def sysResetRun (c : Cmd) (s : State) : State :=
  let scope := opf c 4 2 0
  let target := opf c 5 9 0
  if scope ≤ 1 then leadReset 8 (scope = 0) (fin c stOK [] s)
  else if scope = 3 then resetAndWait c target s
  else if scope = 5 && unitReleased s (target / 2) && (engine s target).cmd.isSome then commandWaits c (askEngineReset target s)
  else finUnless c (ringSt s c.req c.ring).cons (scopeReset scope target s)

/-- SYS.RESET; the ROM serves cold and warm scope only. -/
def execSysReset (c : Cmd) (s : State) : Res :=
  .next <| runCmd c 0x443 .manager
    [(stage s = 0x80 && 2 ≤ opf c 4 2 0, stFENCED_UNIT), (!targetOk s (opf c 4 2 0) (opf c 5 9 0), stBAD_OPERAND)] (sysResetRun c) s

/-- The copy that a write goes to: `true` is B. -/
def optTarget (s : State) : Bool := s.opt.picked = some 0

/-- Its sequence number. -/
def optNext (s : State) : Nat := if s.opt.picked.isNone then 1 else ((rget s .pltOptSeq 0 0).toNat + 1) % 4294967296

/-- A whole copy of option bytes. -/
def optImage (l : List Byte) (seq : Nat) : List Byte :=
  let b := (l ++ List.replicate 64 0).take 64 ++ leBytes 4 seq
  b ++ leBytes 4 (crc32c b).toNat

/-- A copy after n actions of a write: the erase, the bytes 1 to 71, byte 0. -/
def optAfter (n : Nat) (old x : List Byte) : List Byte :=
  if n = 0 then old
  else if n ≤ 72 then 0xFF :: ((x.drop 1).take (n - 1) ++ List.replicate (72 - n) 0xFF)
  else x

/-- The copy not picked takes n actions of the write of options. -/
def writeOptions (n : Nat) (l : List Byte) (s : State) : State :=
  let x := optImage l (optNext s)
  { s with nvm := if optTarget s then { s.nvm with optB := optAfter n s.nvm.optB x } else { s.nvm with optA := optAfter n s.nvm.optA x } }

/-- The options are accepted: the whole copy is written and PENDING sets; a write that is cut off ends no command (log 91). -/
def takeOptions (c : Cmd) (cut : Option Nat) (l : List Byte) (s : State) : State :=
  match cut with
  | some n => writeOptions (min n 72) l s
  | none => fin c stOK [] (rset .pltOptStat 0 0 4 4 1 (writeOptions 73 l s))

/-- SYS.OPT_WR. -/
def execSysOptWr (c : Cmd) (s : State) : Res :=
  .next <| runCmd c 0x444 .manager [] (fun s =>
    match c.data with
    | none => fin c stSQUASHED [] s
    | some bs => if optOk bs then takeOptions c c.cut bs s else fin c stBAD_OPERAND [] s) s

/-- SYS.OPT_RD. -/
def execSysOptRd (c : Cmd) (s : State) : Res :=
  .next <| runCmd c 0x445 .manager [] (fun s =>
    if c.wrOk then fin c stOK [] (emitHost (.hostWrite c.req (opAddr c 6) (optCopy s.nvm (opf c 4 0 0))) s) else fin c stSQUASHED [] s) s

/-- A firmware image is taken into a slot: signed, and no roll-back behind a valid other slot. -/
def fwTaken (n : Nvm) (b : Bool) (fw : FwImage) : Bool :=
  let other := if b then n.fwA else n.fwB
  fw.sigOk && (!fwValid other || fwSeq other < fw.seq.toNat)

def putFw (b : Bool) (x : Option FwImage) (s : State) : State :=
  { s with nvm := if b then { s.nvm with fwB := x } else { s.nvm with fwA := x } }

def putPatch (b : Bool) (x : Option PatchBlock) (s : State) : State :=
  { s with nvm := if b then { s.nvm with patB := x } else { s.nvm with patA := x } }

/-- The firmware slot that is not running, and the patch copy that was not loaded. In ROM recovery no slot runs and FW_SLOT reads 0,
so slot B is written (DESIGN CHOICE, log 90). -/
def fwIdle (s : State) : Bool := !pbit s .pltBootStat 9
def patchIdle (s : State) : Bool := s.patch.locked && !s.patch.copyB

/-- SYS.FW_STAGE for firmware: the area is erased, written and verified. -/
def stageFw (c : Cmd) (fw : FwImage) (s : State) : State :=
  let b := fwIdle s
  let s := putFw b none s
  if c.data.isNone then fin c stSQUASHED [] s
  else if fwTaken s.nvm b fw then fin c stOK [] (putFw b (some fw) s)
  else fin c stAUTH_FAIL [] s

/-- SYS.FW_STAGE for a patch block. -/
def stagePatch (c : Cmd) (p : PatchBlock) (s : State) : State :=
  let b := patchIdle s
  let s := putPatch b none s
  if c.data.isNone then fin c stSQUASHED [] s
  else if patchOk s p then fin c stOK [] (putPatch b (some p) s)
  else fin c stAUTH_FAIL [] s

/-- SYS.FW_STAGE; the ROM serves firmware only. -/
def execSysFwStage (c : Cmd) (fw : FwImage) (patch : PatchBlock) (s : State) : Res :=
  let isPatch := opb c 4 0
  .next <| runCmd c 0x446 .manager
    [(stage s = 0x80 && isPatch, stFENCED_UNIT), ((if isPatch then 65536 else 8388608) < (opw c 8).toNat, stBAD_OPERAND)]
    (fun s =>
      if c.cut.isSome then (if isPatch then putPatch (patchIdle s) none s else putFw (fwIdle s) none s)
      else if isPatch then stagePatch c patch s else stageFw c fw s) s

/-! ## Firmware over the service UART (R83) -/

/-- UART_FW_HEADER: an upload opens; the slot is erased. -/
def execUartFwHeader (slotB : Bool) (length : Nat) (s : State) : Res :=
  .next <| iff_ (stage s = 0x80 && 0 < length && length ≤ 8388608) (fun s =>
    putFw slotB none { s with pwr := { s.pwr with uart := some (slotB, length, 0) } }) s

/-- The last block has come: the slot is verified. -/
def uartEnds (b : Bool) (fw : FwImage) (s : State) : State :=
  let s := { s with pwr := { s.pwr with uart := none } }
  if fwTaken s.nvm b fw then emit (.uart "FW OK") (putFw b (some fw) s) else emit (.uart "FW FAIL") s

/-- UART_FW_BLOCK: acknowledged or refused. -/
def execUartFwBlock (crcOk : Bool) (fw : FwImage) (s : State) : Res :=
  .next <| match s.pwr.uart with
    | none => s
    | some (b, len, got) =>
      if !crcOk then emit (.uartByte 0x15) s
      else
        let s := emit (.uartByte 0x06) { s with pwr := { s.pwr with uart := some (b, len, got + 1024) } }
        if len ≤ got + 1024 then uartEnds b fw s else s

end Sys2Proof.Machine
end

