-- ==== Sys2Proof/Machine/Faults.lean ====
section
/-! DEFINITION. The fault collector's rows, the safe state, pace and adaptive voltage, junctions, the governor and its power states
(19_faults_power.md), the end of the leave lead (R318). -/
namespace Sys2Proof.Machine

/-! ## Reports (R400, R403, R404) -/

/-- Unit IDs that name a unit. -/
def unitOk (u : Nat) : Bool :=
  let i := u % 4096
  match u / 4096 with
  | 0 | 12 | 13 | 14 => i = 0
  | 1 => i < 528 || i = 1023
  | 2 => i < 64
  | 3 => i < 512
  | 4 | 7 => i < 16
  | 5 => i / 16 < 64 && (i % 16 < 9 || i % 16 = 15)
  | 6 | 10 | 11 => i < 8
  | 8 => i ≤ 0x82
  | 9 => i < 64
  | 15 => i < 256
  | _ => false

/-- Unit kinds of a code (R404); none for a code that it does not list. -/
def codeKinds (code : Nat) : List Nat :=
  if [0x0101, 0x0102, 0x0103, 0x0301, 0x0302, 0x0305].contains code then [0]
  else if code = 0x0104 || code = 0x0205 then [11]
  else if code = 0x0105 then [10]
  else if [0x0106, 0x0107, 0x0210].contains code then [1, 4, 7, 15]
  else if code = 0x0108 then [12]
  else if code = 0x0109 then [13]
  else if code = 0x010A || code = 0x010B then [6]
  else if code = 0x0201 || code = 0x0303 then [8]
  else if code = 0x0202 || code = 0x0203 then [2, 4, 6]
  else if code = 0x0204 then [2]
  else if code = 0x0206 then [3]
  else if code = 0x0207 then [9]
  else if code = 0x0208 || code = 0x0209 || code = 0x020A then [5]
  else if 0x020B ≤ code && code ≤ 0x020F then [4]
  else if code = 0x0211 then [1]
  else if code = 0x0304 then [0, 6]
  else if code = 0x0401 || code = 0x0402 then [14]
  else []

/-- A code and a unit that go together. -/
def faultOk (u code : Nat) : Bool :=
  unitOk u && (codeKinds code).contains (u / 4096) &&
  (if code = 0x0201 then u % 4096 < 0x81 else if code = 0x0303 then 0x81 ≤ u % 4096
   else if code = 0x020A then u % 16 = 15 else if code = 0x0208 || code = 0x0209 then u % 16 ≠ 15 else true)

/-- FAULT_REPORT: an error that a block cannot settle reaches the collector. -/
def execFaultReport (unit code info addr : Nat) (s : State) : Res :=
  .next <| iff_ (s.pwr.powered && faultOk unit code) (fun s =>
    if code = 0x0304 then thermTrip unit s else report unit code info addr s) s

/-- SAFE_POLICY_TIMEOUT: 10 s after entry under SAFE_POLICY 1. -/
def execSafePolicyTimeout (s : State) : Res := .next (iff_ (inSafe s && optByte s 5 = 1) (requestReset 6 true) s)

/-- COLLECTOR_RESET_TIMEOUT: the warm reset that follows a COLLECTOR fault (R411). -/
def execCollectorResetTimeout (s : State) : Res :=
  .next (iff_ s.flt.collectorReset (arbitrateAs true 4 false) s)

/-- FLT_POP. -/
def popFault (s : State) : State := { s with flt := { s.flt with fifo := s.flt.fifo.drop 1 } }

def execFltPop (s : State) : Res := .next (iff_ (hifUp s) popFault s)

/-- A write of FLT_CTL.ENTER_SAFE. -/
def safeWrite (key : Nat) (s : State) : State := iff_ (key = 0x5AFE) enterSafe s

def execEnterSafe (key : Nat) (s : State) : Res := .next (iff_ (hifUp s) (safeWrite key) s)

/-! ## Pace (R412 to R414) -/

/-- The worst island of a tile and its margin. -/
def worstOf (x : Sensors) : Option (Nat × Int) :=
  (List.range 11).foldl (fun b i =>
    match tget x.margins i, b with
    | some m, some (j, n) => if m < n then some (i, m) else some (j, n)
    | some m, none => some (i, m)
    | none, b => b) none

def setSens (t : Nat) (f : Sensors → Sensors) (s : State) : State := { s with sens := tupd s.sens t f }

/-- The latest margins of a tile; below 0 the regulator goes straight to 0.80 V. -/
def takeMargins (l : List (Nat × Int)) (x : Sensors) : Sensors :=
  { x with
    margins := (l.filter fun m => m.1 < 11).foldl (fun t m => tput t m.1 (some m.2)) []
    vcore := if l.any (fun m => m.2 < 0) then 800 else x.vcore }

/-- PACE_MONITOR_SAMPLE. -/
def execPaceMonitorSample (tile : Nat) (margins : List (Nat × Int)) (s : State) : Res :=
  .next (iff_ (tileRunning s tile) (setSens tile (takeMargins margins)) s)

/-- TARGET of PLT_PACE_TARGET. -/
def paceTarget (s : State) : Nat := clamp 20 500 (rfld s .pltPaceTarget 0 0 15 0)

/-- One period of the voltage loop (R413). -/
def avsStep (en : Bool) (target : Nat) (m : Int) (x : Sensors) : Sensors :=
  let high := if (target : Int) + 30 ≤ m then min 10 (x.high + 1) else 0
  if !en then { x with vcore := 800, high := high }
  else if m < (target : Int) then { x with vcore := min (x.vcore + 10) 800, high := high }
  else if high = 10 then { x with vcore := max (x.vcore - 5) 700, high := high }
  else { x with high := high }

/-- AVS_LOOP. -/
def execAvsLoop (tile : Nat) (s : State) : Res :=
  .next <| match worstOf (tget s.sens tile) with
    | some (_, m) => iff_ (tileRunning s tile) (setSens tile (avsStep (pbit s .pltPaceTarget 31) (paceTarget s) m)) s
    | none => s

/-- The unit of an island of a tile. -/
def islandUnit (t i : Nat) : Nat := if i < 8 then unitId 2 (t * 8 + i) else if i < 10 then unitId 4 (t * 2 + (i - 8)) else unitId 6 t

/-- PACE_LOW holds: the island's margin is below 0 at 0.80 V. -/
def paceIsLow (s : State) (t i : Nat) : Bool := (tget s.sens t).vcore = 800 && (tget (tget s.sens t).margins i).any fun m => m < 0

/-- PACE_LOW. -/
def execPaceLow (tile island : Nat) (s : State) : Res :=
  .next (iff_ (tileRunning s tile && island ≤ 10 && paceIsLow s tile island) (report (islandUnit tile island) 0x0203 0 0) s)

/-- The worst margin is below the target at 0.80 V. -/
def belowTarget (s : State) (t : Nat) : Bool :=
  (tget s.sens t).vcore = 800 && (worstOf (tget s.sens t)).any fun x => x.2 < (paceTarget s : Int)

/-- PACE_MARGIN. -/
def execPaceMargin (tile : Nat) (s : State) : Res :=
  .next <| iff_ (tileRunning s tile && belowTarget s tile && (worstOf (tget s.sens tile)).any fun x => 0 ≤ x.2)
    (report (unitId 6 tile) 0x010A 0 0) s

/-! ## Junctions (R415) -/

/-- The hottest of the readings. -/
def hottest : List Int → Option Int
  | [] => none
  | x :: l => some (l.foldl max x)

/-- A reading above 105 degrees C. -/
def tooHot (x : Int) : Bool := 840 < x

/-- JUNCTION_SAMPLE: the hottest drives PLT_JUNCTION, the throttle and THERM_HIGH. -/
def execJunctionSample (tile : Nat) (temps : List Int) (s : State) : Res :=
  .next <| match hottest temps with
    | none => s
    | some x => iff_ (s.pwr.powered && tile < 8) (fun s =>
        iff_ (tooHot x) (report (unitId 6 tile) 0x010B 0 0) (throttleRise tile x (setSens tile (fun y => { y with junction := x }) s))) s

/-! ## Clearing (R406, R407) -/


/-- The cause of a unit's latest record persists. -/
def causeActive (s : State) (u : Nat) : Bool :=
  let i := u % 4096
  if u / 4096 = 8 then s.flt.clkBad.contains i && (i = 0x80 || !clockReads s)
  else match (unitSt s u).code with
  | 0x0203 =>
    match u / 4096 with
    | 2 => paceIsLow s (i / 8) (i % 8)
    | 4 => paceIsLow s (i / 2) (8 + i % 2)
    | _ => paceIsLow s i 10
  | 0x010A => belowTarget s i
  | 0x010B => tooHot (tget s.sens i).junction
  | 0x0105 => (tget s.i2c i).sdaLow
  | 0x0108 => rfld s .secStat 0 0 3 0 ≠ 0
  | 0x0207 => 16 ≤ ((tget s.fab.crcFails i).filter fun x => s.tim.frc < x + 1000000).length
  | _ => false

/-- Units that return to service with the clearing of their fault: slices, I2C buses, clock domains. -/
def unitReturns (u : Nat) (s : State) : State :=
  let i := u % 4096
  match u / 4096 with
  | 7 => setUnit u (fun x => { x with fenced := false }) { s with hif := { s.hif with sliceFenced := s.hif.sliceFenced.filter fun x => x ≠ i } }
  | 8 =>
    let s := setUnit u (fun x => { x with fenced := false }) (clockGood i s)
    if i < 64 then forEach (groupPorts s i) portRelease s else s
  | 10 => { s with i2c := tupd s.i2c i fun b => { b with stopped := b.sdaLow } }
  | _ => s

/-- A write of 1 to FLT_UNIT.HELD for the selected unit. -/
def clearUnit (s : State) : State :=
  let u := rfld s .fltUnitSel 0 0 15 0
  if causeActive s u then advanceFree s
  else unitReturns u (advanceFree (setUnit u (fun x => { x with held := false, rep := false, repeats := 0 }) s))

def execFltUnitClear (s : State) : Res := .next (iff_ (hifUp s) clearUnit s)

/-! ## The leave lead's end and DORMANT (R318, R419) -/

/-- Every port is held down and every leaf flushed (R419 step 2). -/
def holdAll (s : State) : State :=
  let s := forEach (((List.range 8).map (tilePorts s)).flatten) (fun p => portHoldDown p true) s
  forEach (List.range 16) (fun i => flushPort (512 + i)) s

/-- The lead ends: the reset or the DORMANT entry acts. -/
def leadEnds (l : Lead) (s : State) : State :=
  let s := { s with pwr := { s.pwr with lead := none } }
  match l with
  | .reset cold => arbitrate 0 cold s
  | .dormant => dormantStep (holdAll s)

/-- LEAVE_LEAD_EXPIRY. -/
def execLeaveLeadExpiry (s : State) : Res :=
  .next <| match s.pwr.lead with
    | some l => leadEnds l s
    | none => s

/-- DORMANT is entered from ACTIVE through the lead. -/
def dormantBegins (s : State) : State :=
  iff_ (s.ps.module = 0 && calRuns s && s.pwr.lead.isNone && s.pwr.sagStep = 0) (fun s =>
    startLead .dormant { s with ps := { s.ps with module := 1 } }) s

/-- Every gated scope starts to wake; DORMANT is left. -/
def wakeAll (s : State) : State :=
  { s with ps := { s.ps with
      waking := s.ps.proof ++ s.ps.chill.map (64 + ·), module := if s.ps.module = 2 then 3 else s.ps.module } }

/-- DORMANT ends. -/
def dormantEnds (s : State) : State := iff_ (s.ps.module = 2) wakeAll s

/-- A write of PLT_PWR_CTL acts only with its key. -/
def pwrCtlWrite (val : Word) (s : State) : State :=
  iff_ (fld val 31 16 = 0xD0A5) (fun s => iff_ (bit val 1) dormantEnds (iff_ (bit val 0) dormantBegins s)) s

/-- DORMANT_ENTRY. -/
def execDormantEntry (val : Word) (s : State) : Res := .next (iff_ (hifUp s) (pwrCtlWrite val) s)

/-- DORMANT_WAKE. -/
def execDormantWake (val : Word) (s : State) : Res := .next (iff_ (hifUp s) (pwrCtlWrite val) s)

/-- PLT_GOV.EN. -/
def govOn (s : State) : Bool := pbit s .pltGov 31

/-- A window of the plan is open now. -/
def windowOpen (s : State) (w : Time80 × Time80) : Bool := w.1.toNs ≤ nowNs s && nowNs s < w.2.toNs

/-- DORMANT_WINDOW_START. -/
def execDormantWindowStart (s : State) : Res :=
  .next (iff_ (govOn s && s.pwr.powered && (img s).cal.dormant.any (windowOpen s)) (fun s => dormantBegins { s with ps := { s.ps with dormantWin := true } }) s)

/-- The end of a dormant window: a module in DORMANT wakes; an entry still in its lead, or waiting for a migration, ends. -/
def windowEnds (s : State) : State :=
  let s := { s with ps := { s.ps with dormantWin := false } }
  if s.ps.module = 1 then
    { s with ps := { s.ps with module := if s.pwr.lead.isSome then 0 else 3 }, pwr := { s.pwr with lead := none },
             cfb := { s.cfb with leaving := false } }
  else dormantEnds s

def execDormantWindowEnd (s : State) : Res := .next (iff_ s.ps.dormantWin windowEnds s)

/-! ## The governor (R417, R418, R420, R421) -/

def guardNs (s : State) : Nat := clamp 100 10000 (rfld s .pltGov 0 0 15 0)

/-- A pipeline is idle: nothing in its landing buffer. -/
def pipeIdle (s : State) (g : Nat) : Bool := landingUsed s g = 0 && !(s.frames.any fun f => f.pipe = g && f.phase = .arrived)

/-- CHILL is allowed: the ports are held down, or a quiet window is open. -/
def chillAllowed (s : State) (t : Nat) : Bool :=
  pbit s .pltGov 30 && ((tilePorts s t).all (portHeld s) || s.ps.quiet.contains t) &&
  (List.range 8).all fun i => pipeIdle s (t * 8 + i)

/-- Ports of a scope. -/
def scopePorts (s : State) : PwrScope → List Nat
  | .pipe g => groupPorts s g
  | .tile t => tilePorts s t
  | .module => []

/-- Time to the next change of a list: its entry's end, or the switch to a committed list. -/
def gateEvent (s : State) (k : Nat) (g : Gate) : List Nat :=
  if g.active.count = 0 then (if g.pending.isSome then [effective s g.switchAt - nowNs s] else [])
  else ((ahead s k g 0).head?.map (·.1)).toList

/-- The known events that the state holds, as times from now (R420): gate and bound stream-gate changes in the scope, an image commit
with its bank swap, timers, and the ends of open windows. -/
def knownEvents (s : State) (scope : PwrScope) : List Nat :=
  let ports := scopePorts s scope
  let bound (g : Gate) : Bool := g.bind.any fun b => ports.contains b.1
  let tiles : List Nat := match scope with
    | .tile t => [t]
    | _ => []
  (ports.map fun p => gateEvent s (1 + p) (tget s.sch.gates p)).flatten ++
  (s.sch.sgates.map fun x => if bound x.2 then gateEvent s (513 + x.1) x.2 else []).flatten ++
  (if s.img.shadow.isSome then [effective s s.img.commitAt - nowNs s] else []) ++
  (s.hif.timers.filter fun x => x.2.on).map (fun x => x.2.at_.toNs - nowNs s) ++
  ((img s).cal.quiet.filter fun w => tiles.contains w.1 && windowOpen s w.2).map (fun w => w.2.2.toNs - nowNs s) ++
  ((img s).cal.dormant.filter (windowOpen s)).map fun w => w.2.toNs - nowNs s

/-- A scope enters its gated state when entry, wake and guard fit before its next event. -/
def govern (scope : PwrScope) (next : Nat) (s : State) : State :=
  match scope with
  | .pipe g =>
    iff_ (g < 64 && tileRunning s (g / 8) && pipeIdle s g && !s.ps.proof.contains g && 1900 + guardNs s ≤ next) (fun s =>
      { s with ps := { s.ps with proof := g :: s.ps.proof } }) s
  | .tile t =>
    iff_ (tileRunning s t && chillAllowed s t && !s.ps.chill.contains t && 70000 + guardNs s ≤ next) (fun s =>
      { s with ps := { s.ps with chill := t :: s.ps.chill } }) s
  | .module => s

/-- GOVERNOR_EVALUATE. `next`: the time to the scope's next aging tick or dump period, which no field of the state holds. -/
def execGovernorEvaluate (scope : PwrScope) (next : Nat) (s : State) : Res :=
  .next (iff_ (govOn s && calRuns s && s.ps.module = 0) (govern scope ((knownEvents s scope).foldl min next)) s)

/-- A scope starts to wake; a tile's quiet window is over. -/
def startWake (scope : PwrScope) (s : State) : State :=
  match scope with
  | .pipe g => iff_ (s.ps.proof.contains g && !s.ps.waking.contains g) (fun s => { s with ps := { s.ps with waking := g :: s.ps.waking } }) s
  | .tile t =>
    let w := if s.ps.chill.contains t && !s.ps.waking.contains (64 + t) then (64 + t) :: s.ps.waking else s.ps.waking
    { s with ps := { s.ps with waking := w, quiet := s.ps.quiet.filter fun x => x ≠ t } }
  | .module => iff_ s.ps.dormantWin dormantEnds s

/-- GOVERNOR_WAKE. -/
def execGovernorWake (scope : PwrScope) (s : State) : Res := .next (iff_ (govOn s) (startWake scope) s)

/-- The module is awake: DRAM leaves self-refresh, the calendar starts, the ports train. -/
def moduleAwake (s : State) : State :=
  let s := { s with dram := tmap (fun c (x : Channel) => if tileRunning s (c / 8) then { x with selfRefresh := false } else x) s.dram,
                    ps := { s.ps with module := 0, proof := [], chill := [], waking := [] }, cfb := { s.cfb with leaving := false } }
  let s := forEach (runningTiles s) closeStripes s
  forEach ((((runningTiles s).filter (tileGoBit s)).map (tilePorts s)).flatten) portRelease s

/-- The unit's island wakes with a scope (R417): a pipeline with its own or its tile's, an engine or a plait endpoint with the
module's. -/
def wakesWith (scope : PwrScope) (u : Nat) : Bool :=
  match scope with
  | .pipe g => u = unitId 2 g
  | .tile t => u / 4096 = 2 && u % 4096 < 64 && u % 4096 / 8 = t
  | .module => (u / 4096 = 2 && u % 4096 < 64) || (u / 4096 = 4 && u % 4096 < 16) || (u / 4096 = 6 && u % 4096 < 8)

/-- The scope leaves its gated state. -/
def scopeAwake (scope : PwrScope) (s : State) : State :=
  match scope with
  | .pipe g => { s with ps := { s.ps with proof := s.ps.proof.filter (fun x => x ≠ g), waking := s.ps.waking.filter fun x => x ≠ g } }
  | .tile t => { s with ps := { s.ps with chill := s.ps.chill.filter (fun x => x ≠ t), waking := s.ps.waking.filter fun x => x ≠ 64 + t } }
  | .module => moduleAwake s

/-- A scope is on its way out of a gated state. -/
def scopeWaking (s : State) : PwrScope → Bool
  | .pipe g => s.ps.waking.contains g
  | .tile t => s.ps.waking.contains (64 + t)
  | .module => s.ps.module = 3

/-- ISLAND_WAKE_DONE; units whose islands fail the handshake are fenced (R75, R418). -/
def execIslandWakeDone (scope : PwrScope) (failed : List Nat) (s : State) : Res :=
  .next <| iff_ (scopeWaking s scope) (fun s =>
    forEach (failed.filter (wakesWith scope)) (fun u => report u 0x0202 0 0) (scopeAwake scope s)) s

/-- PLT_GOV.EN written 0. -/
def governorOff (s : State) : State := wakeAll (pset .pltGov 31 false s)

def execGovernorDisable (s : State) : Res := .next (iff_ (hifUp s) governorOff s)

/-- QUIET_WINDOW_START. -/
def execQuietWindowStart (tile : Nat) (s : State) : Res :=
  .next <| iff_ (tileRunning s tile && (img s).cal.quiet.any fun w => w.1 = tile && windowOpen s w.2) (fun s =>
    { s with ps := { s.ps with quiet := if s.ps.quiet.contains tile then s.ps.quiet else tile :: s.ps.quiet } }) s

/-! ## Open-drain outputs (R49, R50): `true` is asserted, driven low; unpowered they float -/

/-- Some unit is HELD with CLASS CONTAINED or CRITICAL. -/
def heldFault (s : State) : Bool := s.flt.units.any fun x => x.2.held && (x.2.cls = 1 || x.2.cls = 2)

/-- Start-up has stopped under R80, R85 or R74. -/
def startStopped (s : State) : Bool := stage s = 0x80 || stage s = 0x81 || stage s = 0x82

/-- MOD_FAULT_N (R405). -/
def modFaultPin (s : State) : Bool := s.pwr.powered && (heldFault s || inSafe s || startStopped s)

/-- MOD_SAFE_N (R410). -/
def modSafePin (s : State) : Bool := s.pwr.powered && inSafe s

/-- SAG_N (R59, R60). -/
def sagPin (s : State) : Bool := s.pwr.powered && pbit s .pwrStat 3

end Sys2Proof.Machine
end

