-- ==== Sys2Proof/Machine/Registers.lean ====
section
/-! DEFINITION. Register accesses (R9, R365, R435 to R444): what every register reads as, what a write does, read side effects, BAR2
ring registers, the service UART (R81). -/
namespace Sys2Proof.Machine

/-! ## Values of the read-only registers -/

/-- Bits of a word from a condition on their number. -/
def bitsOf (f : Nat → Bool) : Word := word (((List.range 32).filter f).foldl (fun n b => n + 2 ^ b) 0)

/-- PLT_PACE of a tile (R412). -/
def paceWord (x : Sensors) : Word :=
  let w := (worstOf x).getD (0, 0)
  pack [(31, 26, w.1), (25, 16, x.vcore), (15, 0, twos 16 w.2)]

/-- PLT_PWR_STAT. -/
def pwrStatWord (s : State) : Word :=
  pack [(31, 30, s.ps.module), (23, 16, (bitsOf fun b => s.ps.chill.contains b).toNat), (6, 0, s.ps.proof.length)]

/-- SEC_LOCK: HOLDER is 0x01 during an urgent message (R394, R395). -/
def secLockWord (s : State) : Word :=
  let urgent := s.sec.running.any fun m => m.holder = 1
  pack [(12, 8, s.sec.queue.length), (7, 0, if urgent then 1 else s.sec.holder)]

/-- SEC_STAT. -/
def secStatWord (s : State) : Word :=
  setFld (setBit (rget s .secStat 0 0) 30 s.sec.running.isSome) 29 28 s.sec.contexts.length

/-- SEC_TAG of a slot (R389). -/
def secTagWord (s : State) (k : Nat) : Word :=
  let x := secSlot s k
  pack [(31, 31, x.valid.toNat), (30, 30, (x.valid && decide (x.key.length = 32)).toNat), (29, 29, (kekSlot s k).toNat),
    (4, 4, (decide (32 ≤ k)).toNat), (3, 0, if 32 ≤ k then slotSlice s k else 0)]

/-- FLT_STAT with COUNT and FROZEN (R402). -/
def fltStatWord (s : State) : Word := setFld (setBit (rget s .fltStat 0 0) 30 (frozen s)) 22 16 s.flt.fifo.length

/-- Word k of the head record; 0 when the FIFO is empty. -/
def fltRecWord (s : State) (k : Nat) : Word :=
  match s.flt.fifo with
  | r :: _ => (recWords r).getD k 0
  | [] => 0

/-- FLT_UNIT of the selected unit (R403, R406). -/
def fltUnitWord (s : State) : Word :=
  let u := rfld s .fltUnitSel 0 0 15 0
  let x := unitSt s u
  pack [(31, 31, x.held.toNat), (30, 30, (causeActive s u).toNat), (29, 29, x.fenced.toNat), (28, 28, x.rep.toNat),
    (27, 26, x.cls), (23, 16, x.repeats), (15, 0, x.code)]

/-- CFB_STAT: NO_KEY while the running image's key slot is empty, and the module's own ID (R314). -/
def cfbStatWord (s : State) : Word :=
  setFld (setBit (rget s .cfbStat 0 0) 31 (s.img.run.isSome && !hasKey s)) 19 12 (ownId s)

/-- CFB_ADJ of a port (R308). -/
def cfbAdjWord (s : State) (p : Nat) : Word :=
  if !(isFabric s p && portExists s p) then 0xff00
  else
    let a := adjOf s p
    let l := a.last.getD {}
    pack [(25, 16, l.port), (15, 8, l.fabricId), (3, 3, a.admitted.isSome.toNat), (2, 0, a.state)]

/-- PRT_LG_MODE of a lane group. -/
def lgModeWord (s : State) (g : Nat) : Word :=
  let x := group s g
  pack [(31, 31, (groupShed s g).toNat), (30, 28, (cage s g).state),
    (23, 16, (bitsOf fun b => decide (b < 8) && (port s (g * 8 + b)).up).toNat), (9, 8, x.fec), (3, 0, x.mode)]

/-- EXM_TBL_CFG of a table. -/
def tblCfgWord (s : State) (n : Nat) : Word :=
  let p := exmProf s n
  pack [(31, 31, p.en.toNat), (30, 30, p.shared.toNat), (29, 29, p.learn.toNat), (28, 28, p.journal.toNat),
    (27, 16, tget s.exm.gen n), (15, 6, p.ageTick), (4, 0, p.keyBytes)]

/-- LPM_ROOT_CFG of a root. -/
def rootWord (s : State) (r : Nat) : Word :=
  let c := rootCfg s r
  let d := tget s.trie.dflt r
  pack [(31, 31, c.en.toNat), (30, 30, c.ip6.toNat), (29, 29, c.shared.toNat), (28, 25, c.slice), (24, 24, d.isSome.toNat),
    (17, 0, d.getD 0)]

/-- TCM_TABLE of a pipeline's table. -/
def tcmTableWord (rt : RuleTable) : Word :=
  pack [(31, 31, rt.en.toNat), (30, 30, rt.shared.toNat), (29, 28, rt.width),
    (27, 20, (bitsOf fun b => rt.slabs.contains b).toNat), (15, 0, rt.missAct)]

/-- TCM_FALLBACK: priority and action. -/
def fallbackWord (x : Nat × Nat) : Word := pack [(31, 16, x.1), (15, 0, x.2)]

/-- DRM_CH_STAT of a channel. -/
def chStatWord (c : Channel) : Word :=
  pack [(31, 31, c.trainFail.toNat), (30, 28, c.migState), (27, 24, c.migLrank), (23, 23, (c.remap.contains 8).toNat),
    (19, 16, c.debt.foldl (fun n x => max n x.2) 0), (15, 12, c.gen), (8, 0, (bitsOf fun b => c.out.contains b).toNat)]

/-- DRM_REMAP of a channel. -/
def remapWord (c : Channel) : Word := pack ((List.range 8).map fun k => (4 * k + 3, 4 * k, c.remap.getD k 15))

/-- SCH_GATE_STAT of a port. -/
def gateStatWord (s : State) (p : Nat) : Word :=
  let g := gateOf s p
  pack [(17, 17, g.pending.isSome.toNat), (16, 16, g.listBit), (15, 8, g.entry), (7, 0, openStates s p)]

/-- CME_STAT of an engine (R361). -/
def cmeStatWord (s : State) (e : Nat) : Word :=
  let x := engine s e
  pack [(31, 31, x.running.toNat), (30, 30, x.fenced.toNat), (29, 29, x.inReset.toNat), (28, 28, (x.standin || lends s e).toNat), (23, 16, x.fault),
    (11, 0, (homedRings s e).length)]

/-- TEL_DUMP_PER of a set. -/
def dumpPerWord (s : State) (k : Nat) : Word :=
  setBit (rget s .telDumpPer 0 k) 31 (s.tel.nextIdx.any fun x => decide (x.1 / 32 = k) && x.2.isSome)

/-! ## Reads -/

/-- What a register reads as: registers whose value another part of the state holds are computed from it, a WO field reads 0 (R9). -/
def regRead (s : State) (r : Reg) (t i : Nat) : Word :=
  match r with
  | .pltIdent => s.ident
  | .pltImgSeqLo => word (img s).seq.toNat
  | .pltImgSeqHi => word ((img s).seq.toNat / 4294967296)
  | .pltPace => paceWord (tget s.sens i)
  | .pltJunction => word (twos 12 (tget s.sens i).junction)
  | .pltPwrStat => pwrStatWord s
  | .timNowNs => word s.tim.now.ns
  | .secLock => secLockWord s
  | .secStat => secStatWord s
  | .secValid => bitsOf fun b => (secSlot s (i * 32 + b)).valid
  | .secTag => secTagWord s i
  | .fltStat => fltStatWord s
  | .fltRec => fltRecWord s i
  | .fltUnit => fltUnitWord s
  | .telDumpPer => dumpPerWord s i
  | .cfbEtype => word (cfbEtype s)
  | .cfbAuth => setFld (rget s .cfbAuth 0 0) 21 16 (fabricSlot s)
  | .cfbStat => cfbStatWord s
  | .prtLgMode => lgModeWord s (t * 8 + i)
  | .prtCageBudget => setFld (rget s .prtCageBudget t 0) 31 16 (cageAdmitted s t)
  | .exmTblCfg => tblCfgWord s i
  | .exmTblSeed => (exmProf s i).seed
  | .exmSliceUse => word (exmUse s i)
  | .exmJrnlStat => pack [(31, 31, s.exm.jTrunc.toNat), (16, 0, s.exm.journal.length)]
  | .lpmRootCfg => rootWord s i
  | .lpmSliceUse => word (lpmUse s i)
  | .tcmTable => tcmTableWord (ruleTable s (t * 8 + i / 4) (i % 4))
  | .tcmFallback => fallbackWord (fallbackOf (ruleTable s (t * 8 + i / 16) (i % 16 / 4)) (i % 4))
  | .tcmFence => bitsOf fun b => s.tcm.fenced.contains (t * 64 + i * 32 + b)
  | .actProfProg => word (tget (img s).action.profProg i)
  | .actHashFld => tget (img s).action.hashFld i
  | .actHashSeed => tget (img s).action.hashSeed i
  | .bufPoolFree => setFld (rget s .bufPoolFree t i) 15 0 (poolFree s t i)
  | .bufSliceOcc => word (sliceOcc s t i)
  | .drmChStat => chStatWord (channel s (t * 8 + i))
  | .drmRemap => remapWord (channel s (t * 8 + i))
  | .schLenProf => word (twos 7 (tget (img s).queues.lenProfs i))
  | .schGateStat => gateStatWord s (t * 64 + i)
  | .cmeStat => cmeStatWord s (t * 2 + i)
  | .cmeUpc => pack [(19, 16, (engine s (t * 2 + i)).stopDepth), (15, 0, (engine s (t * 2 + i)).stopUpc)]
  | .cmePatch => pack [(31, 16, s.patch.level), (0, 0, s.patch.locked.toNat)]
  | .cmeHook => bitsOf fun b => decide (32768 ≤ (tget s.patch.vectors (i * 32 + b)).toNat)
  | .cfbAdj => cfbAdjWord s (t * 64 + i)
  | r => rget s r t i

/-- A tile block that does not answer: its tile is not released or is in tile reset, and the register is no mirror (R439, R442). -/
def blockSilent (s : State) (r : Reg) (t : Nat) : Bool := (regRow r).tile && !regMirror r && !tileReady s t

/-- A tile block that takes no write: its tile is not running (R442). -/
def blockShut (s : State) (r : Reg) (t : Nat) : Bool := (regRow r).tile && !regMirror r && !tileRunning s t

/-- What a read leaves: RC fields start again (LOW from the buffers free now, PEAK from an excess that stands), TIM_NOW_NS captures
the time (R9, R112, R246). -/
def readEffect (r : Reg) (t i : Nat) (s : State) : State :=
  match r with
  | .timNowNs => captureNow s
  | .fltUnit => advanceFree s
  | .bufPoolFree => rset .bufPoolFree t i 31 16 (poolFree s t i) s
  | .fltStat => rset .fltStat 0 0 15 0 0 s
  | .bufGuardPeak => guardPeak t i (rset .bufGuardPeak t i 16 0 0 s)
  | _ => s

/-- The window, ring and register of a BAR2 offset; `none` is outside every window (R367). -/
def ringTarget (off : Nat) : Option (Nat × Nat × Nat) :=
  if off < 0x100000 then some (off / 65536, off % 65536 / 256, off % 256 / 4)
  else if 0x1000000 ≤ off && off < 0x1010000 then some (mgr, off % 65536 / 256, off % 256 / 4)
  else none

/-- RING_STAT. -/
def ringStatWord (g : Ring) (waits : Bool) : Word :=
  pack [(31, 31, g.resetting.toNat), (7, 7, g.evtOverflow.toNat), (6, 6, g.phaseErr.toNat), (5, 5, g.dbErr.toNat), (4, 4, waits.toNat),
    (0, 0, (ringIdle g).toNat)]

/-- RING_CFG; ENGINE is the engine that serves the ring now. -/
def ringCfgWord (s : State) (g : Ring) : Word :=
  let e := if g.kind = 0 then homeNow s g else 0
  pack [(31, 24, g.evtRing), (23, 23, g.mgmt.toNat), (22, 22, g.dflt.toNat), (21, 17, e), (16, 12, g.cfgLog), (11, 8, g.kind),
    (7, 0, g.classMask)]

/-- What a register of a ring that exists reads as. -/
def ringRead (s : State) (req r k : Nat) : Word :=
  let g := ringSt s req r
  match k with
  | 1 => pack [(1, 1, g.irqEn.toNat), (0, 0, g.en.toNat)]
  | 2 => ringStatWord g (bufHeld s req r)
  | 3 => word (if g.kind ≤ 2 then g.cons else g.prod)
  | 4 => word g.base
  | 5 => word (g.base / 4294967296)
  | 6 => ringCfgWord s g
  | 7 => pack [(26, 16, g.vector), (15, 0, g.holdoff)]
  | _ => 0

/-- Pending bits of a dword of the array. -/
def msixPendWord (s : State) (k : Nat) : Word := bitsOf fun b => s.hif.msixPend.contains (k * 32 + b)

/-- An offset lies in its BAR (R367, R435). -/
def inBar (a : Access) : Bool :=
  (a.bar = 0 && a.off < 0x4000000) || (a.bar = 2 && a.off < 0x2000000) || (a.bar = 4 && a.off < 0x10000)

/-- The read of a BAR0 register: a slice sees the slice-visible ones. -/
def bar0Read (a : Access) (s : State) : State :=
  match decodeBar0 a.off with
  | none => emit (.readData 0) (decodeErr 30 0 a.off s)
  | some (r, t, i) =>
    if blockSilent s r t || (a.pasid.isSome && !(regRow r).sliceVisible) then emit (.readData 0) s
    else emit (.readData (regRead s r t i)) (readEffect r t i s)

/-- The read of a ring register. -/
def bar2Read (a : Access) (s : State) : State :=
  match ringTarget a.off with
  | none => emit (.readData 0) (decodeErr 30 1 a.off s)
  | some (q, r, k) =>
    if !ringExists s q r then emit (.readData 0) s
    else if 8 ≤ k then emit (.readData 0) (decodeErr 30 1 a.off s)
    else emit (.readData (ringRead s q r k)) s

/-- A read of the MSI-X structures. -/
def bar4Read (a : Access) (s : State) : State :=
  if a.off < 0x8000 then emit (.readData (msixDword s (a.off / 4))) s
  else if a.off < 0x8100 then emit (.readData (msixPendWord s ((a.off - 0x8000) / 4))) s
  else emit (.readData 0) (decodeErr 30 2 a.off s)

/-- A host read of one DWORD; a rejected one returns all ones and is not decoded (R365). -/
def hostRead (a : Access) (s : State) : State :=
  if pasidRejected s a then emit (.readData 0xFFFFFFFF) (pasidReject s)
  else if a.bar = 0 then bar0Read a s
  else if a.bar = 2 then bar2Read a s
  else bar4Read a s

/-- RC_FIELD_READ. -/
def execRcFieldRead (off : Nat) (s : State) : Res :=
  let a : Access := { off := off }
  .next (iff_ (inBar a) (readReaches (hostRead a)) s)

/-- UNMAPPED_READ. -/
def execUnmappedRead (a : Access) (s : State) : Res := .next (iff_ (inBar a) (readReaches (hostRead a)) s)

/-! ## Writes to BAR0 -/

/-- A write under the field types: RW fields take the value, 1s clear RW1C bits and set RW1S bits (R9). -/
def typedWrite (w : RegRow) (old val : Word) : Word :=
  let o := old.toNat
  let v := val.toNat
  let o := Nat.xor o (Nat.land o w.rw) + Nat.land v w.rw
  let o := Nat.xor o (Nat.land o (Nat.land v w.rw1c))
  word (Nat.lor o (Nat.land v w.rw1s))

/-- A write of a register whose write only changes its fields. -/
def plainWrite (r : Reg) (t i : Nat) (val : Word) (s : State) : State := rput r t i (typedWrite (regRow r) (rget s r t i) val) s

/-- A port profile that R120 refuses. -/
def profBad (val : Word) : Bool := fld val 13 8 < 4 || 32 < fld val 13 8 || fld val 18 14 < 1 || 24 < fld val 18 14

/-- Thresholds that rise. -/
def thresholdsOk (val : Word) : Bool := fld val 7 0 < fld val 15 8 && fld val 15 8 < fld val 23 16

/-- A write of a cage power budget; a raised one is a reason to reconsider the denied cages (R107). -/
def budgetWrite (t : Nat) (val : Word) (s : State) : State :=
  let s' := plainWrite .prtCageBudget t 0 val s
  if cageBudget s t < fld val 15 0 then reconsider t s' else s'

/-- A write of PLT_GOV: EN written 0 wakes what is gated (R421). -/
def govWrite (val : Word) (s : State) : State := iff_ (!bit val 31) governorOff (plainWrite .pltGov 0 0 val s)

/-- A write of TIM_CMD. -/
def timCmdWrite (val : Word) (s : State) : State :=
  if !timeRuns s then s else if fld val 1 0 = 1 then timSetCmd s else if fld val 1 0 = 2 then timOffsetCmd s else s

/-- A write of FLT_CTL. -/
def fltCtlWrite (val : Word) (s : State) : State :=
  iff_ (bit val 1) (safeWrite (fld val 31 16)) (iff_ (bit val 0) popFault s)

/-- A write of SEC_STAT. Whether a cause persists is not the register's to say: a free value decides it (log 9). -/
def secStatWrite (val : Word) (s : State) : State :=
  advanceFree (clearCauses (Nat.land (fld val 3 0) (drawn s % 16)) s)

/-- A write of PLT_BOOT_CTL. -/
def bootCtlWrite (val : Word) (s : State) : State := goWrite (fld val 7 0) (iff_ (bit val 8) retryNow s)

/-- What a register's write does. -/
def regWrite (r : Reg) (t i : Nat) (val : Word) (s : State) : State :=
  match r with
  | .pltSwRst => swReset (fld val 31 16) (fld val 2 0) (fld val 13 4) s
  | .pltBootCtl => bootCtlWrite val s
  | .pltPwrCtl => pwrCtlWrite val s
  | .pltGov => govWrite val s
  | .timAdj => timAdjSet val s
  | .timCmd => timCmdWrite val s
  | .secStat => secStatWrite val s
  | .fltCtl => fltCtlWrite val s
  | .fltUnit => iff_ (bit val 31) clearUnit s
  | .prtCageBudget => budgetWrite t val s
  | .parProf => if profBad val then rset .parStat t 0 0 0 1 s else plainWrite r t i val s
  | .tcmThrottle => if thresholdsOk val then plainWrite r t i val s else rset .tcmStat t 0 31 31 1 s
  | .tcmBankSel => bankSelWrite t val s
  | .drmRdCfg => debtsAtLimit t (plainWrite r t i val s)
  | .drmMigCtl => plainWrite r t i val (forEach (List.range 8) (fun l => settleMig (t * 8 + l)) s)
  | .schCfg => plainWrite r t i val (mcGive t 0 s)
  | r => plainWrite r t i val s

/-- A BAR0 write: what decoding records, then the register's write, which a slice never has (R365, R438, R440, R442). -/
def bar0Write (a : Access) (s : State) : State :=
  let s := iff_ (a.be % 16 ≠ 15) (decodeErr 31 0 a.off) s
  match decodeBar0 a.off with
  | none => decodeErr 30 0 a.off s
  | some (r, t, i) => iff_ (a.be % 16 = 15 && a.pasid.isNone && !blockShut s r t) (regWrite r t i a.val) s

/-! ## Writes to BAR2 (R367 to R380, R444) -/

/-- A write of RING_CTL. -/
def ringCtlWrite (req r : Nat) (val : Word) (s : State) : State :=
  let s := setRing req r (fun g => { g with irqEn := bit val 1 }) s
  if bit val 0 then enableRing req r s else disableRing req r s

/-- A write of RING_STAT. -/
def ringStatWrite (val : Word) (g : Ring) : Ring :=
  { g with evtOverflow := g.evtOverflow && !bit val 7, phaseErr := g.phaseErr && !bit val 6, dbErr := g.dbErr && !bit val 5 }

/-- Ring 0's own registers take a write only while EN is 0. -/
def ringSetup (req r : Nat) (f : Ring → Ring) (s : State) : State := iff_ (r = 0 && !(ringSt s req 0).en) (setRing req 0 f) s

/-- RING_CFG of ring 0: LOG2 outside 6 to 16 acts as the nearer limit. -/
def ringCfgWrite (val : Word) (g : Ring) : Ring :=
  { g with evtRing := fld val 31 24, cfgLog := fld val 16 12, log2 := clamp 6 16 (fld val 16 12) }

/-- RING_IRQ: a vector outside the owner's range acts as none. -/
def ringIrqWrite (n : Nat) (val : Word) (g : Ring) : Ring :=
  { g with vector := if n ≤ fld val 26 16 then 0x7FF else fld val 26 16, holdoff := fld val 15 0 }

/-- What a write of a ring register does. -/
def ringWrite (req r k : Nat) (val : Word) (s : State) : State :=
  match k with
  | 0 => doorbell req r (fld val 16 0) s
  | 1 => ringCtlWrite req r val s
  | 2 => setRing req r (ringStatWrite val) s
  | 4 => ringSetup req r (fun g => { g with base := g.base / 4294967296 * 4294967296 + val.toNat / 4096 * 4096 }) s
  | 5 => ringSetup req r (fun g => { g with base := g.base % 4294967296 + val.toNat * 4294967296 }) s
  | 6 => ringSetup req r (ringCfgWrite val) s
  | 7 => setRing req r (ringIrqWrite (vectorRange s req).2 val) s
  | _ => s

/-- A BAR2 write. The block of a ring that does not exist sets no flag (R444). -/
def bar2Write (a : Access) (s : State) : State :=
  match ringTarget a.off with
  | none => decodeErr 30 1 a.off (iff_ (a.be % 16 ≠ 15) (decodeErr 31 1 a.off) s)
  | some (q, r, k) =>
    iff_ (ringExists s q r) (fun s =>
      let s := iff_ (a.be % 16 ≠ 15) (decodeErr 31 1 a.off) s
      if 8 ≤ k then decodeErr 30 1 a.off s else iff_ (a.be % 16 = 15) (ringWrite q r k a.val) s) s

/-- A host write of one DWORD. -/
def hostWrites (a : Access) (s : State) : State :=
  if pasidRejected s a then pasidReject s
  else if a.bar = 0 then bar0Write a s
  else if a.bar = 2 then bar2Write a s
  else bar4Effect a.off a.be a.val s

/-- REGISTER_WRITE. -/
def execRegisterWrite (a : Access) (s : State) : Res := .next (iff_ (hifUp s && inBar a) (hostWrites a) s)

/-! ## The service UART (R81) -/

/-- DEBUG_LOCK is unlocked. -/
def debugOpen (s : State) : Bool := optByte s 4 = 0xA5

/-- A line of status or recovery output, whose text no rule gives: a free value (log 9). -/
def uartLine (s : State) : State := advanceFree (emit (.uart (Config.uartText (drawn s))) s)

/-- The non-volatile memory with an area written; content of another area's kind changes nothing. -/
def nvmWritten (area : NvmArea) (x : NvmContent) (n : Nvm) : Nvm :=
  match area, x with
  | .options b, .bytes l => if l.length ≠ 72 then n else if b then { n with optB := l } else { n with optA := l }
  | .firmware b, .firmware f => if b then { n with fwB := f } else { n with fwA := f }
  | .patch b, .patch p => if b then { n with patB := p } else { n with patA := p }
  | .image b, .image i => if b then { n with slotB := i } else { n with slotA := i }
  | .imageKey, .key k => { n with imgKey := k }
  | .save b, .blank => if b then { n with save1 := {} } else { n with save0 := {} }
  | .dramRecord c, .blank => { n with dram := tput n.dram c {} }
  | _, _ => n

/-- What an NVM read sends: the bytes of an option copy; of the areas whose bytes the model does not hold, a text that is free (log 97). -/
def nvmSend (area : NvmArea) (s : State) : State :=
  match area with
  | .options b => forEach (optCopy s.nvm b.toNat) (fun x => emit (.uartByte x)) s
  | _ => uartLine s

/-- What the service UART does with a command: status and recovery always, register and NVM access while DEBUG_LOCK is unlocked. -/
def uartServe (u : UartCmd) (s : State) : State :=
  match u with
  | .status | .recovery => uartLine s
  | .regRead off => if debugOpen s then bar0Read { off := off } s else s
  | .regWrite off val => if debugOpen s then bar0Write { off := off, val := val } s else s
  | .nvmRead area => if debugOpen s then nvmSend area s else s
  | .nvmWrite area x => if debugOpen s then { s with nvm := nvmWritten area x s.nvm } else s

/-- The steward's debug port answers: DEBUG_LOCK is unlocked and the firmware runs (R81). -/
def debugPort (s : State) : Bool := debugOpen s && stewardRuns s

/-- SERVICE_UART_COMMAND: the UART runs from step 3 on. -/
def execServiceUartCommand (u : UartCmd) (s : State) : Res := .next (iff_ (3 ≤ stage s) (uartServe u) s)

end Sys2Proof.Machine
end

