-- ==== Sys2Proof/Machine/Dispatch.lean ====
section
/-! DEFINITION. Which meaning each command has, one arm per constructor. -/
namespace Sys2Proof.Machine

/-- The effect of a command on everything but the queue. -/
def exec (i : Instr) (s : State) : Host.Outcome State Fault Refusal :=
  match i with
  | .mainsLost => Sys2Proof.Machine.execMainsLost s
  | .mainsReturn => Sys2Proof.Machine.execMainsReturn s
  | .converterStop => Sys2Proof.Machine.execConverterStop s
  | .converterFault => Sys2Proof.Machine.execConverterFault s
  | .supplyGood => Sys2Proof.Machine.execSupplyGood s
  | .plateColdHoldEnd => Sys2Proof.Machine.execPlateColdHoldEnd s
  | .sagThresholdCrossing => Sys2Proof.Machine.execSagThresholdCrossing s
  | .sagShedTick => Sys2Proof.Machine.execSagShedTick s
  | .saveStart => Sys2Proof.Machine.execSaveStart s
  | .saveWritten => Sys2Proof.Machine.execSaveWritten s
  | .busBelow250v => Sys2Proof.Machine.execBusBelow250v s
  | .busAtReturnThreshold => Sys2Proof.Machine.execBusAtReturnThreshold s
  | .modResetNAssert => Sys2Proof.Machine.execModResetNAssert s
  | .modResetNRelease => Sys2Proof.Machine.execModResetNRelease s
  | .perstNAssert => Sys2Proof.Machine.execPerstNAssert s
  | .functionLevelReset => Sys2Proof.Machine.execFunctionLevelReset s
  | .watchdogExpiry => Sys2Proof.Machine.execWatchdogExpiry s
  | .optionsCommitted => Sys2Proof.Machine.execOptionsCommitted s
  | .firmwareRunning => Sys2Proof.Machine.execFirmwareRunning s
  | .patchesDone => Sys2Proof.Machine.execPatchesDone s
  | .dramReady failed march => Sys2Proof.Machine.execDramReady failed march s
  | .imageInTiles failed => Sys2Proof.Machine.execImageInTiles failed s
  | .tilesReady failed => Sys2Proof.Machine.execTilesReady failed s
  | .calendarRunning => Sys2Proof.Machine.execCalendarRunning s
  | .islandReleaseTimeout unit => Sys2Proof.Machine.execIslandReleaseTimeout unit s
  | .tileRejoinDone t => Sys2Proof.Machine.execTileRejoinDone t s
  | .clockLoss code => Sys2Proof.Machine.execClockLoss code s
  | .clockRequalified => Sys2Proof.Machine.execClockRequalified s
  | .safePolicyTimeout => Sys2Proof.Machine.execSafePolicyTimeout s
  | .collectorResetTimeout => Sys2Proof.Machine.execCollectorResetTimeout s
  | .thermShed plate => Sys2Proof.Machine.execThermShed plate s
  | .thermUnshed plate => Sys2Proof.Machine.execThermUnshed plate s
  | .pcsAlignmentHeld port => Sys2Proof.Machine.execPcsAlignmentHeld port s
  | .portDownDetect port los => Sys2Proof.Machine.execPortDownDetect port los s
  | .portHoldExpiry port => Sys2Proof.Machine.execPortHoldExpiry port s
  | .fecWindowEnd port cw corr uncorr symbols => Sys2Proof.Machine.execFecWindowEnd port cw corr uncorr symbols s
  | .cagePoll cage x => Sys2Proof.Machine.execCagePoll cage x s
  | .cageReadyTimeout cage => Sys2Proof.Machine.execCageReadyTimeout cage s
  | .i2cSdaStuck bus stuck => Sys2Proof.Machine.execI2cSdaStuck bus stuck s
  | .timSet => Sys2Proof.Machine.execTimSet s
  | .timOffset => Sys2Proof.Machine.execTimOffset s
  | .timAdjWrite val => Sys2Proof.Machine.execTimAdjWrite val s
  | .timNowCapture => Sys2Proof.Machine.execTimNowCapture s
  | .slewEnd => Sys2Proof.Machine.execSlewEnd s
  | .scheduleRealign sched => Sys2Proof.Machine.execScheduleRealign sched s
  | .ppsOutEdge => Sys2Proof.Machine.execPpsOutEdge s
  | .todLine => Sys2Proof.Machine.execTodLine s
  | .ppsInEdge => Sys2Proof.Machine.execPpsInEdge s
  | .freqInPhase ps => Sys2Proof.Machine.execFreqInPhase ps s
  | .todRxByte bytes => Sys2Proof.Machine.execTodRxByte bytes s
  | .frameArrival fid port f => Sys2Proof.Machine.execFrameArrival fid port f s
  | .headerCellsPresent fid present x => Sys2Proof.Machine.execHeaderCellsPresent fid present x s
  | .frameTail fid => Sys2Proof.Machine.execFrameTail fid s
  | .expressLaunch fid => Sys2Proof.Machine.execExpressLaunch fid s
  | .expressArrival src dst => Sys2Proof.Machine.execExpressArrival src dst s
  | .cellSpread fid => Sys2Proof.Machine.execCellSpread fid s
  | .cellArrival src dst crcOk => Sys2Proof.Machine.execCellArrival src dst crcOk s
  | .spillWriteDone w => Sys2Proof.Machine.execSpillWriteDone w s
  | .noticeReceive src dst crcOk => Sys2Proof.Machine.execNoticeReceive src dst crcOk s
  | .pullReceive src dst crcOk => Sys2Proof.Machine.execPullReceive src dst crcOk s
  | .returnSend tile dst => Sys2Proof.Machine.execReturnSend tile dst s
  | .returnArrival src dst crcOk => Sys2Proof.Machine.execReturnArrival src dst crcOk s
  | .reseqTimeout tile src leaf ssn pos => Sys2Proof.Machine.execReseqTimeout tile src leaf ssn pos s
  | .reassemblyComplete tile src leaf ssn pos => Sys2Proof.Machine.execReassemblyComplete tile src leaf ssn pos s
  | .frameTxStart port => Sys2Proof.Machine.execFrameTxStart port s
  | .frameTxEnd port => Sys2Proof.Machine.execFrameTxEnd port s
  | .evictReqReceive src dst crcOk => Sys2Proof.Machine.execEvictReqReceive src dst crcOk s
  | .evictReceive src dst crcOk => Sys2Proof.Machine.execEvictReceive src dst crcOk s
  | .evictNackReceive src dst crcOk => Sys2Proof.Machine.execEvictNackReceive src dst crcOk s
  | .pushoutTimeout fid => Sys2Proof.Machine.execPushoutTimeout fid s
  | .evictionFilterExpiry tile => Sys2Proof.Machine.execEvictionFilterExpiry tile s
  | .portIdleSend tile => Sys2Proof.Machine.execPortIdleSend tile s
  | .portIdleReceive src dst crcOk => Sys2Proof.Machine.execPortIdleReceive src dst crcOk s
  | .linkDeclaredFailed rx tx => Sys2Proof.Machine.execLinkDeclaredFailed rx tx s
  | .fenceReceive tile f => Sys2Proof.Machine.execFenceReceive tile f s
  | .bankSwap => Sys2Proof.Machine.execBankSwap s
  | .imgCommitSwap => Sys2Proof.Machine.execImgCommitSwap s
  | .gateEntryChange port => Sys2Proof.Machine.execGateEntryChange port s
  | .gateSwitch port => Sys2Proof.Machine.execGateSwitch port s
  | .streamGateEntryChange g => Sys2Proof.Machine.execStreamGateEntryChange g s
  | .streamGateSwitch g => Sys2Proof.Machine.execStreamGateSwitch g s
  | .frerReset stream => Sys2Proof.Machine.execFrerReset stream s
  | .depthSample tile => Sys2Proof.Machine.execDepthSample tile s
  | .raceWindowClose tile table slice key => Sys2Proof.Machine.execRaceWindowClose tile table slice key s
  | .filterHoldExpiry tile table slice key => Sys2Proof.Machine.execFilterHoldExpiry tile table slice key s
  | .tableWordRepaired tile mem addr => Sys2Proof.Machine.execTableWordRepaired tile mem addr s
  | .junctionSample tile temps => Sys2Proof.Machine.execJunctionSample tile temps s
  | .throttleFall tile => Sys2Proof.Machine.execThrottleFall tile s
  | .slabGroupAwake tile group => Sys2Proof.Machine.execSlabGroupAwake tile group s
  | .slabSelfTestEnd tile failed => Sys2Proof.Machine.execSlabSelfTestEnd tile failed s
  | .junctionThermTrip tile => Sys2Proof.Machine.execJunctionThermTrip tile s
  | .plateThermTrip => Sys2Proof.Machine.execPlateThermTrip s
  | .thermHoldRelease => Sys2Proof.Machine.execThermHoldRelease s
  | .paceMonitorSample tile margins => Sys2Proof.Machine.execPaceMonitorSample tile margins s
  | .avsLoop tile => Sys2Proof.Machine.execAvsLoop tile s
  | .paceLow tile island => Sys2Proof.Machine.execPaceLow tile island s
  | .paceMargin tile => Sys2Proof.Machine.execPaceMargin tile s
  | .refreshDue ch rank busy => Sys2Proof.Machine.execRefreshDue ch rank busy s
  | .refreshDebtPayment ch => Sys2Proof.Machine.execRefreshDebtPayment ch s
  | .dramReadDone tile idx x => Sys2Proof.Machine.execDramReadDone tile idx x s
  | .retirementRecordWritten ch => Sys2Proof.Machine.execRetirementRecordWritten ch s
  | .migrationLastRow r => Sys2Proof.Machine.execMigrationLastRow r s
  | .remapCommit ch => Sys2Proof.Machine.execRemapCommit ch s
  | .rngReseed => Sys2Proof.Machine.execRngReseed s
  | .migrationAbandon ch => Sys2Proof.Machine.execMigrationAbandon ch s
  | .helloTimer port => Sys2Proof.Machine.execHelloTimer port s
  | .helloReceive port h => Sys2Proof.Machine.execHelloReceive port h s
  | .holdTimeExpiry port => Sys2Proof.Machine.execHoldTimeExpiry port s
  | .managementFrameReceive port m => Sys2Proof.Machine.execManagementFrameReceive port m s
  | .failAdvRepeat => Sys2Proof.Machine.execFailAdvRepeat s
  | .repairStable port => Sys2Proof.Machine.execRepairStable port s
  | .revertTime => Sys2Proof.Machine.execRevertTime s
  | .leaveLeadExpiry => Sys2Proof.Machine.execLeaveLeadExpiry s
  | .mgmtPortFrameRx bytes m => Sys2Proof.Machine.execMgmtPortFrameRx bytes m s
  | .faultReport unit code info addr => Sys2Proof.Machine.execFaultReport unit code info addr s
  | .engineFenceTimeout e => Sys2Proof.Machine.execEngineFenceTimeout e s
  | .governorEvaluate scope next => Sys2Proof.Machine.execGovernorEvaluate scope next s
  | .governorWake scope => Sys2Proof.Machine.execGovernorWake scope s
  | .islandWakeDone scope failed => Sys2Proof.Machine.execIslandWakeDone scope failed s
  | .dormantEntry val => Sys2Proof.Machine.execDormantEntry val s
  | .dormantWake val => Sys2Proof.Machine.execDormantWake val s
  | .dormantWindowEnd => Sys2Proof.Machine.execDormantWindowEnd s
  | .governorDisable => Sys2Proof.Machine.execGovernorDisable s
  | .dumpPeriod set => Sys2Proof.Machine.execDumpPeriod set s
  | .engineSample e skid => Sys2Proof.Machine.execEngineSample e skid s
  | .timerExpiry req timer => Sys2Proof.Machine.execTimerExpiry req timer s
  | .ringDoorbell req ring idx => Sys2Proof.Machine.execRingDoorbell req ring idx s
  | .descriptorFetchDone req ring entries micro => Sys2Proof.Machine.execDescriptorFetchDone req ring entries micro s
  | .phaseRecheck req ring entry => Sys2Proof.Machine.execPhaseRecheck req ring entry s
  | .ringEnable req ring => Sys2Proof.Machine.execRingEnable req ring s
  | .ringDisable req ring => Sys2Proof.Machine.execRingDisable req ring s
  | .msixHoldoffEnd req ring => Sys2Proof.Machine.execMsixHoldoffEnd req ring s
  | .hostReadTimeout req ring ringMem => Sys2Proof.Machine.execHostReadTimeout req ring ringMem s
  | .packetTxTake c => Sys2Proof.Machine.execPacketTxTake c s
  | .sliceResetDone slice => Sys2Proof.Machine.execSliceResetDone slice s
  | .secLockClaim id => Sys2Proof.Machine.execSecLockClaim id s
  | .secMessageEnd => Sys2Proof.Machine.execSecMessageEnd s
  | .urgentRequest level => Sys2Proof.Machine.execUrgentRequest level s
  | .secAlarm cause => Sys2Proof.Machine.execSecAlarm cause s
  | .secCauseClear mask persists => Sys2Proof.Machine.execSecCauseClear mask persists s
  | .uartFwHeader slotB length => Sys2Proof.Machine.execUartFwHeader slotB length s
  | .uartFwBlock crcOk fw => Sys2Proof.Machine.execUartFwBlock crcOk fw s
  | .swResetCold key => Sys2Proof.Machine.execSwResetCold key s
  | .swResetWarm key => Sys2Proof.Machine.execSwResetWarm key s
  | .swResetTile key tile => Sys2Proof.Machine.execSwResetTile key tile s
  | .swResetSlice key slice => Sys2Proof.Machine.execSwResetSlice key slice s
  | .swResetPort key port => Sys2Proof.Machine.execSwResetPort key port s
  | .swResetEngine key e => Sys2Proof.Machine.execSwResetEngine key e s
  | .retryImage => Sys2Proof.Machine.execRetryImage s
  | .tileGo mask => Sys2Proof.Machine.execTileGo mask s
  | .tcmBankSelWrite tile val => Sys2Proof.Machine.execTcmBankSelWrite tile val s
  | .fltPop => Sys2Proof.Machine.execFltPop s
  | .enterSafe key => Sys2Proof.Machine.execEnterSafe key s
  | .fltUnitClear => Sys2Proof.Machine.execFltUnitClear s
  | .rcFieldRead off => Sys2Proof.Machine.execRcFieldRead off s
  | .registerWrite a => Sys2Proof.Machine.execRegisterWrite a s
  | .tblSrch c => Sys2Proof.Machine.execTblSrch c s
  | .tblIns c => Sys2Proof.Machine.execTblIns c s
  | .tblDel c => Sys2Proof.Machine.execTblDel c s
  | .tblNext c => Sys2Proof.Machine.execTblNext c s
  | .tblFlushp c => Sys2Proof.Machine.execTblFlushp c s
  | .tblAge c raced => Sys2Proof.Machine.execTblAge c raced s
  | .tblCkpt c => Sys2Proof.Machine.execTblCkpt c s
  | .lpmIns c => Sys2Proof.Machine.execLpmIns c s
  | .lpmDel c => Sys2Proof.Machine.execLpmDel c s
  | .lpmSrch c => Sys2Proof.Machine.execLpmSrch c s
  | .lpmLkup c => Sys2Proof.Machine.execLpmLkup c s
  | .lpmNext c => Sys2Proof.Machine.execLpmNext c s
  | .tcmWr c => Sys2Proof.Machine.execTcmWr c s
  | .tcmVal c => Sys2Proof.Machine.execTcmVal c s
  | .tcmAct c => Sys2Proof.Machine.execTcmAct c s
  | .tcmRd c => Sys2Proof.Machine.execTcmRd c s
  | .tcmBase c => Sys2Proof.Machine.execTcmBase c s
  | .actNhWr c => Sys2Proof.Machine.execActNhWr c s
  | .actNhRd c => Sys2Proof.Machine.execActNhRd c s
  | .actGrpSet c => Sys2Proof.Machine.execActGrpSet c s
  | .actBkt c => Sys2Proof.Machine.execActBkt c s
  | .actBktRd c => Sys2Proof.Machine.execActBktRd c s
  | .actMemAdd c => Sys2Proof.Machine.execActMemAdd c s
  | .actMemDel c => Sys2Proof.Machine.execActMemDel c s
  | .actMirSet c => Sys2Proof.Machine.execActMirSet c s
  | .schNode c => Sys2Proof.Machine.execSchNode c s
  | .schShape c => Sys2Proof.Machine.execSchShape c s
  | .schLeaf c => Sys2Proof.Machine.execSchLeaf c s
  | .schRd c => Sys2Proof.Machine.execSchRd c s
  | .schFrer c => Sys2Proof.Machine.execSchFrer c s
  | .schFrerRd c => Sys2Proof.Machine.execSchFrerRd c s
  | .polSet c => Sys2Proof.Machine.execPolSet c s
  | .polRd c => Sys2Proof.Machine.execPolRd c s
  | .gateWr c => Sys2Proof.Machine.execGateWr c s
  | .gateSgWr c => Sys2Proof.Machine.execGateSgWr c s
  | .gateCommit c => Sys2Proof.Machine.execGateCommit c s
  | .gateSgCommit c => Sys2Proof.Machine.execGateSgCommit c s
  | .gateRd c => Sys2Proof.Machine.execGateRd c s
  | .calTimer c => Sys2Proof.Machine.execCalTimer c s
  | .calRd c => Sys2Proof.Machine.execCalRd c s
  | .cntFrz c => Sys2Proof.Machine.execCntFrz c s
  | .cntRd c => Sys2Proof.Machine.execCntRd c s
  | .cntDump c => Sys2Proof.Machine.execCntDump c s
  | .cntPer c => Sys2Proof.Machine.execCntPer c s
  | .memRd c => Sys2Proof.Machine.execMemRd c s
  | .memWr c => Sys2Proof.Machine.execMemWr c s
  | .memAlloc c => Sys2Proof.Machine.execMemAlloc c s
  | .memFree c => Sys2Proof.Machine.execMemFree c s
  | .memMig c => Sys2Proof.Machine.execMemMig c s
  | .memMapClr c => Sys2Proof.Machine.execMemMapClr c s
  | .memSaveRd c => Sys2Proof.Machine.execMemSaveRd c s
  | .portMode c => Sys2Proof.Machine.execPortMode c s
  | .portSaAdd c => Sys2Proof.Machine.execPortSaAdd c s
  | .portSaDel c => Sys2Proof.Machine.execPortSaDel c s
  | .portSaTxAn c => Sys2Proof.Machine.execPortSaTxAn c s
  | .portCmisRd c optic => Sys2Proof.Machine.execPortCmisRd c optic s
  | .portCmisWr c optic => Sys2Proof.Machine.execPortCmisWr c optic s
  | .ringCrt c => Sys2Proof.Machine.execRingCrt c s
  | .ringDst c => Sys2Proof.Machine.execRingDst c s
  | .ringBind c => Sys2Proof.Machine.execRingBind c s
  | .ringUnbind c => Sys2Proof.Machine.execRingUnbind c s
  | .slcRst c => Sys2Proof.Machine.execSlcRst c s
  | .slcInfo c => Sys2Proof.Machine.execSlcInfo c s
  | .imgStage c img => Sys2Proof.Machine.execImgStage c img s
  | .imgCommit c late => Sys2Proof.Machine.execImgCommit c late s
  | .imgCancel c => Sys2Proof.Machine.execImgCancel c s
  | .imgDiscard c => Sys2Proof.Machine.execImgDiscard c s
  | .imgInfo c => Sys2Proof.Machine.execImgInfo c s
  | .imgKey c cert => Sys2Proof.Machine.execImgKey c cert s
  | .secKeyLd c => Sys2Proof.Machine.execSecKeyLd c s
  | .secKeyClr c => Sys2Proof.Machine.execSecKeyClr c s
  | .secCmac c => Sys2Proof.Machine.execSecCmac c s
  | .secCrypt c => Sys2Proof.Machine.execSecCrypt c s
  | .fabAdmit c => Sys2Proof.Machine.execFabAdmit c s
  | .fabEvict c => Sys2Proof.Machine.execFabEvict c s
  | .fabRd c => Sys2Proof.Machine.execFabRd c s
  | .sysNop c => Sys2Proof.Machine.execSysNop c s
  | .sysFence c => Sys2Proof.Machine.execSysFence c s
  | .sysReset c => Sys2Proof.Machine.execSysReset c s
  | .sysOptWr c => Sys2Proof.Machine.execSysOptWr c s
  | .sysOptRd c => Sys2Proof.Machine.execSysOptRd c s
  | .sysFwStage c fw patch => Sys2Proof.Machine.execSysFwStage c fw patch s
  | .pcsAlignmentAcquired port => Sys2Proof.Machine.execPcsAlignmentAcquired port s
  | .shaperLeavesRed level node => Sys2Proof.Machine.execShaperLeavesRed level node s
  | .gateLeadOpening port cls => Sys2Proof.Machine.execGateLeadOpening port cls s
  | .mcLimiterRefill tile => Sys2Proof.Machine.execMcLimiterRefill tile s
  | .dormantWindowStart => Sys2Proof.Machine.execDormantWindowStart s
  | .quietWindowStart tile => Sys2Proof.Machine.execQuietWindowStart tile s
  | .oscWarm => Sys2Proof.Machine.execOscWarm s
  | .freqInOkChange ok => Sys2Proof.Machine.execFreqInOkChange ok s
  | .ppsOutFall => Sys2Proof.Machine.execPpsOutFall s
  | .serviceUartCommand u => Sys2Proof.Machine.execServiceUartCommand u s
  | .unmappedRead a => Sys2Proof.Machine.execUnmappedRead a s
  | .bar4Write a => Sys2Proof.Machine.execBar4Write a s
  | .pcieLinkChange up speed width => Sys2Proof.Machine.execPcieLinkChange up speed width s

end Sys2Proof.Machine
end

