-- ==== Sys2Proof/Safety.lean ====
section
/-! DEFINITION. What counts as a sound state, in the terms that the statements use. -/
namespace Sys2Proof.Machine

/-- Module time is an instant (R14): nanoseconds below 10^9, and no later than its last (R113). -/
abbrev State.TimeLegal (s : State) : Prop := s.tim.now.ns < 1000000000 ∧ s.tim.now.toNs ≤ maxNs

/-- The fault FIFO holds at most 64 records (R402). -/
abbrev State.FifoBounded (s : State) : Prop := s.flt.fifo.length ≤ 64

/-- Packet memory, the register file, the rings and the buffers are in canonical form. -/
abbrev State.Canonical (s : State) : Prop :=
  Memory.wf s.mem = true ∧ Tab.wf s.regs = true ∧ Tab.wf s.hif.rings = true ∧ Tab.wf s.fab.bufs = true

/-- An index of a ring of 2^k entries: 17 bits, with bits [15:k] 0 (R370). -/
abbrev RingIndex (k i : Nat) : Prop := i < 131072 ∧ i % 65536 < 2 ^ k

/-- A bit of a register after a write, under the field types of R9. -/
def bitWritten (w : RegRow) (old val : Word) (b : Nat) : Bool :=
  if w.rw.testBit b then val.getLsbD b
  else if w.rw1c.testBit b then old.getLsbD b && !val.getLsbD b
  else if w.rw1s.testBit b then old.getLsbD b || val.getLsbD b
  else old.getLsbD b

/-- The oldest wire message of kind `k` from `src` reaches the running tile `dst`: a control message has a slot, and the CRC is good
(R211, R219). -/
abbrev Received (src dst : Nat) (k : Msg → Bool) (w : Wire) (s u : State) : Prop :=
  tileRunning s dst = true ∧ (isControl w.msg = true → ctlFree s src dst = true) ∧ crcGood true w = true ∧
    ∃ v, takeWire src dst k s = some (w, v) ∧ u = iff_ (isControl w.msg) (ctlTaken src dst) v

/-- A command runs: its ring serves it, its requester may send it, and no check of R336 fails. -/
abbrev Runs (c : Cmd) (op : Nat) (w : Who) (checks : List (Bool × Nat)) (s : State) : Prop :=
  serving c op s = some none ∧ whoFails w c = false ∧ firstFail checks = none

end Sys2Proof.Machine
end

