-- ==== Sys2Proof/Certificates/Slice0/Obligations.lean ====
section
/-! DEFINITION. The statements for the provers. A statement about a command row gives the whole next state, so it is its own
frame: what the named operations do not change is unchanged. -/
open Sys2Proof Sys2Proof.Machine

/-- Mains, converter, supply and bus events: the next state of each, in every state (R44, R56, R57, R59, R60, R66, R67, 02_module_power.md). The model's own choices in it: log 6, 9. -/
def Obligations.PowerEventsComplete : Prop :=
  (∀ s : State, s.pwr.powered = true → exec .mainsLost s =
    .next (pset .pwrStat 1 false (pset .pwrStat 2 true { s with pwr := { s.pwr with convRunning := false } }))) ∧
  (∀ s : State, s.pwr.powered = false → exec .mainsLost s =
    .next (pset .pwrStat 1 false { s with pwr := { s.pwr with convRunning := false } })) ∧
  (∀ s : State, exec .mainsReturn s = .next (pset .pwrStat 1 true { s with
    pwr := { s.pwr with convRunning := true, mainsReturned := s.pwr.mainsReturned || sagRunning s } })) ∧
  (∀ s : State, exec .converterStop s = .next { s with pwr := { s.pwr with convRunning := false } }) ∧
  (∀ s : State, s.pwr.powered = true → exec .converterFault s = .next (report (unitId 13 0) 0x0109 0 0 (pset .pwrStat 5 true s))) ∧
  (∀ s : State, s.pwr.powered = false → exec .converterFault s = .next s) ∧
  (∀ s : State, pbit s .pwrStat 1 = true → s.pwr.convRunning = true → s.pwr.powered = true → exec .supplyGood s =
    .next (measureBus (fun v => max 760 (v % 1024)) (pset .pwrStat 0 true s))) ∧
  (∀ s : State, pbit s .pwrStat 1 = true → s.pwr.convRunning = true → s.pwr.powered = false → exec .supplyGood s =
    .next (measureBus (fun v => max (startBus s) (v % 1024)) (powerOn s))) ∧
  (∀ s : State, pbit s .pwrStat 1 = false ∨ s.pwr.convRunning = false → exec .supplyGood s = .next s) ∧
  (∀ s : State, s.pwr.convRunning = false → exec .busBelow250v s =
    .next (rput .pwrTherm 0 0 (rget s .pwrTherm 0 0) (rput .pwrStat 0 0 (pack [(1, 1, rfld s .pwrStat 0 0 1 1)])
      { (default : State) with
        pending := s.pending, freeCtr := s.freeCtr, serial := s.serial, ident := s.ident, out := s.out, sens := s.sens, nvm := s.nvm,
        pwr := { powered := false, convRunning := false, pinHold := s.pwr.pinHold } }))) ∧
  (∀ s : State, s.pwr.convRunning = true → exec .busBelow250v s = .next s)

/-- The sag sequence: crossing, shedding, save and return (R58, R59, R60, R61, R62, R63, R396, 02_module_power.md). The model's own choices in it: log 6, 9, 48, 104. -/
def Obligations.SagSequenceCompletes : Prop :=
  (∀ s : State, s.pwr.powered = true → s.pwr.sagStep = 0 → stewardRuns s = true →
    stewardRuns (measureBus (fun v => v % sagThreshold s) (pset .pwrStat 0 false s)) = true →
    exec .sagThresholdCrossing s = .next (sagBegins (measureBus (fun v => v % sagThreshold s) (pset .pwrStat 0 false s)))) ∧
  (∀ s : State, s.pwr.powered = true → s.pwr.sagStep = 0 → stewardRuns s = false →
    stewardRuns (measureBus (fun v => v % sagThreshold s) (pset .pwrStat 0 false s)) = false →
    exec .sagThresholdCrossing s = .next (sagEarly (measureBus (fun v => v % sagThreshold s) (pset .pwrStat 0 false s)))) ∧
  (∀ s : State, s.pwr.sagStep = 1 ∨ s.pwr.sagStep = 2 → exec .sagShedTick s =
    .next (forEach ((sagLeft s).take 8) shedGroup
      { s with pwr := { s.pwr with sagStep := 2, sagShed := s.pwr.sagShed ++ (sagLeft s).take 8 } })) ∧
  (∀ s : State, s.pwr.powered = false → exec .sagThresholdCrossing s = .next { s with pwr := { s.pwr with earlyHold := true } }) ∧
  (∀ s : State, s.pwr.sagStep = 1 ∨ s.pwr.sagStep = 2 → sagLeft s = [] → (∀ x ∈ s.engines, x.2.cmd = none) →
    exec .saveStart s = .next (saveBegins s)) ∧
  (∀ s : State, s.pwr.sagStep = 4 → exec .saveWritten s =
    .next (rset .pwrSaveStat 0 0 4 4 1 { putSave (saveTarget s)
      { saveSlot s (saveTarget s) with committed := true, mainsReturned := s.pwr.mainsReturned } s with
        pwr := { s.pwr with sagStep := 5 } })) ∧
  (∀ s : State, s.pwr.powered = true → s.pwr.earlyHold = true ∨ s.pwr.sagStep = 5 → exec .busAtReturnThreshold s =
    .next (let t := measureBus (fun v => max (returnThreshold s) (v % 1024)) s
      sagReset (pset .pltRstCause 1 true (iff_ (760 ≤ rfld t .pwrStat 0 0 21 12) (pset .pwrStat 0 true) t)))) ∧
  (∀ s : State, s.pwr.powered = false → s.pwr.earlyHold = true → pbit s .pwrStat 1 = true → s.pwr.convRunning = true →
    exec .busAtReturnThreshold s = .next (measureBus (fun v => max (startBus s) (v % 1024)) (powerOn s)))

/-- Reset pins, function-level reset, watchdog and the software resets of PLT_SW_RST (R51, R66, R67, R68, R69, R70, R318, R363, 02_module_power.md, 21_registers.md). The model's own choices in it: log 6, 71, 80, 88, 89. -/
def Obligations.ResetSourcesComplete : Prop :=
  (∀ s : State, s.pwr.powered = true → exec .modResetNAssert s =
    .next (requestReset 2 true (rset .pltRstInfo 0 0 30 30 0 { s with pwr := { s.pwr with pinHold := true } }))) ∧
  (∀ s : State, exec .modResetNRelease s = .next { s with pwr := { s.pwr with pinHold := false } }) ∧
  (∀ s : State, s.pwr.powered = true → optByte s 9 ≠ 1 → exec .perstNAssert s =
    .next (requestReset 2 false (rset .pltRstInfo 0 0 30 30 1 s))) ∧
  (∀ s : State, s.pwr.powered = true → optByte s 9 = 1 →
    Tab.wf s.regs = true → hifReleased s = true → sagRunning s = false → exec .perstNAssert s =
      .next (hostReset (pset .pltRstCause 2 true (rset .pltRstInfo 0 0 30 30 1 s)))) ∧
  (∀ s : State, hifUp s = true → sagRunning s = false → exec .functionLevelReset s = .next (hostReset s)) ∧
  (∀ s : State, stewardRuns s = true → exec .watchdogExpiry s = .next (report (unitId 0 0) 0x0305 0 0 s)) ∧
  (∀ s : State, hifUp s = true → exec (.swResetCold 0xC1EA) s = .next (leadReset 10 true s)) ∧
  (∀ s : State, hifUp s = true → exec (.swResetWarm 0xC1EA) s = .next (leadReset 10 false s)) ∧
  (∀ (t : Nat) (s : State), hifUp s = true → t < 8 → 7 ≤ stage s → stage s ≤ 9 →
    exec (.swResetTile 0xC1EA t) s = .next (tileReset t mgr s)) ∧
  (∀ (key t : Nat) (s : State), key ≠ 0xC1EA → exec (.swResetTile key t) s = .next s) ∧
  (∀ (i : Nat) (s : State), hifUp s = true → i < 16 → sliceOn s i = true →
    exec (.swResetSlice 0xC1EA i) s = .next (sliceResetStart i s)) ∧
  (∀ (p : Nat) (s : State), hifUp s = true → p < 512 → portExists s p = true → unitReleased s (p / 64) = true →
    exec (.swResetPort 0xC1EA p) s = .next (portReset p mgr s)) ∧
  (∀ (e : Nat) (s : State), hifUp s = true → e < 16 → unitReleased s (e / 2) = true → (engine s e).cmd = none →
    exec (.swResetEngine 0xC1EA e) s = .next (engineReset e mgr s)) ∧
  (∀ (e : Nat) (s : State), hifUp s = true → e < 16 → unitReleased s (e / 2) = true → (engine s e).cmd.isSome = true →
    exec (.swResetEngine 0xC1EA e) s = .next (setEngine e (fun g => { g with resetReq := true }) s))

/-- Start-up steps 2 to 5 and the retry of the image (R76, R77, R79, R80, R82, R83, R84, R85, R111, R275, R357, 03_startup.md). The model's own choices in it: log 9, 28, 65, 67, 68, 69. -/
def Obligations.EarlyStartUpCompletes : Prop :=
  (∀ s : State, stage s = 0 → startHeld s = false → exec .optionsCommitted s = .next (loadOptions s)) ∧
  (∀ s : State, stage s = 2 → fwPick s.nvm = none → exec .firmwareRunning s = .next (setStage 0x80 s)) ∧
  (∀ (b : Bool) (s : State), stage s = 2 → fwPick s.nvm = some b → critClockBad s = true → exec .firmwareRunning s =
    .next (if drawn s % 2 = 1 then fwStarts b (advanceFree (critClockGood s))
      else setStage 0x82 (advanceFree (pset .pltBootStat 9 b s)))) ∧
  (∀ (b : Bool) (s : State), stage s = 2 → fwPick s.nvm = some b → critClockBad s = false → exec .firmwareRunning s =
    .next (fwStarts b s)) ∧
  (∀ (b : Bool) (p : PatchBlock) (s : State), stage s = 3 → patchPick (setStage 4 s) = some (b, p) → exec .patchesDone s =
    .next (stepEnds 50000000 s (pset .pltBootStat 11 true { setStage 4 s with
      patch := { level := p.level, locked := true, copyB := b, vectors := p.vectors, code := p.code }
      nvm := { s.nvm with patHighest := max s.nvm.patHighest p.level } }))) ∧
  (∀ s : State, stage s = 3 → patchPick (setStage 4 s) = none → exec .patchesDone s =
    .next (stepEnds 50000000 s (report (unitId 0 0) 0x0103 0 0 { setStage 4 s with patch := {} }))) ∧
  (∀ (failed : List Nat) (march : List (Nat × Nat)) (s : State), stage s = 4 → s.flt.clkBad = [] → exec (.dramReady failed march) s =
    .next (stepEnds (bootShare s 2500 200) s (let t := trainAll failed s
      chooseSlot (reseed (forEach (if coldStart t then march.filter (fun x => x.1 < 64 && x.2 < 9) else []) (fun x => marchFails x.1 x.2) t))))) ∧
  (∀ s : State, hifUp s = true → stage s = 0x81 → exec .retryImage s =
    .next (chooseSlot { s with pwr := { s.pwr with stepAt := s.tim.frc } }))

/-- Start-up steps 6 to 9, TILE_GO, island release and tile rejoin (R71, R75, R86, R87, R88, R35, 03_startup.md, 21_registers.md). The model's own choices in it: log 49, 50, 65. -/
def Obligations.LateStartUpCompletes : Prop :=
  (∀ (failed : List (Nat × Nat)) (i : Image) (s : State), stage s = 5 → imgIn s (imgSlot s) = some i →
    exec (.imageInTiles failed) s = .next (stepEnds (bootShare s 3000 900) s (iff_ (coldStart s) (coldTest failed) (loadImage i (setStage 6 s))))) ∧
  (∀ (failed : List Nat) (s : State), stage s = 6 → exec (.tilesReady failed) s = .next (stepEnds (bootShare s 1000 200) s (
      let t := forEach ((List.range 8).filter failed.contains) (fun t => report (unitId 6 t) 0x0202 0 0) s
      let t := forEach ((List.range 8).filter fun k => !tileFenced t k) (fun k u => setReady k (tileClocks k u)) (setStage 7 t)
      forEach (List.range 17) homeAdmin (updateLimit (plaitJoin (forEach (List.range 16) resetEngine t)))))) ∧
  (∀ (mask : Nat) (s : State), hifUp s = true → exec (.tileGo mask) s =
    .next (forEach (maskTiles (mask % 256))
      (fun t u => if tileReady u t then goTile t u else rset .pltBootCtl 0 0 t t 1 u) s)) ∧
  (∀ s : State, stage s = 7 → inSafe s = false → exec .calendarRunning s = .next (
      let u := stepEnds 10000000 s (setStage 8 s)
      let t := forEach (runningTiles u) goTile u
      forEach (List.range (min 64 (cageCount t))) (fun c u => cagePins c false (cage u c).lpmode u) t)) ∧
  (∀ (unit : Nat) (s : State), 6 ≤ stage s → stage s ≤ 9 →
    unit / 4096 = 2 ∧ unit % 4096 < 64 ∨ unit / 4096 = 4 ∧ unit % 4096 < 16 ∨ unit / 4096 = 6 ∧ unit % 4096 < 8 →
    exec (.islandReleaseTimeout unit) s = .next (if inSafe s || (unitTile unit).any (tileFenced s) then report unit 0x0202 0 0 s
      else takeFault unit 0x0202 0 0 s)) ∧
  (∀ (t : Nat) (s : State), t < 8 → 7 ≤ stage s → stage s ≤ 9 → tileReady s t = false → tileFenced s t = false →
    exec (.tileRejoinDone t) s = .next (rejoin t s))

/-- Clock loss, requalification, warm oscillator and the frequency input (R73, R74, R111, R404, 03_startup.md). The model's own choices in it: log 6, 70. -/
def Obligations.ClockEventsComplete : Prop :=
  (∀ (code : Nat) (s : State), s.pwr.powered = true → domainUp s code = true → code ∉ s.flt.clkBad → code ≠ 0x81 → code ≤ 0x82 →
    exec (.clockLoss code) s = .next (
      report (unitId 8 code) (if code < 0x81 then 0x0201 else 0x0303) 0 0
        (domainLost code (clkLost code { s with flt := { s.flt with clkBad := code :: s.flt.clkBad } })))) ∧
  (∀ (code : Nat) (s : State), s.pwr.powered = true → domainUp s code = false → code ∉ s.flt.clkBad → code ≤ 0x82 →
    exec (.clockLoss code) s = .next { s with flt := { s.flt with clkBad := code :: s.flt.clkBad } }) ∧
  (∀ s : State, s.pwr.powered = true → domainUp s 0x81 = true → 0x81 ∉ s.flt.clkBad →
    ∃ t, exec (.clockLoss 0x81) s = .next t ∧ t.tim = {}) ∧
  (∀ s : State, 0x80 ∈ s.flt.clkBad → exec .clockRequalified s = .next (
      setUnit (unitId 8 0x80) (fun u => { u with fenced := false })
        { s with flt := { s.flt with clkBad := s.flt.clkBad.filter fun x => x ≠ 0x80 } })) ∧
  (∀ s : State, s.pwr.powered = true → exec .oscWarm s = .next (pset .timStat 6 true s)) ∧
  (∀ (ok : Bool) (s : State), s.pwr.powered = true → exec (.freqInOkChange ok) s = .next (pset .timStat 5 ok s))

/-- Plate derating, thermal trips, junction samples and the slab throttle (R39, R40, R41, R415, R416, R183, 19_faults_power.md, 02_module_power.md). The model's own choices in it: log 6, 9, 66. -/
def Obligations.ThermalEventsComplete : Prop :=
  (∀ s : State, plateT s < -320 → exec .plateColdHoldEnd s = .next (setPlate (-320) s)) ∧
  (∀ (plate : Int) (s : State), screened s = true → calRuns s = true → bandAllows (plateBand plate) < enabledCount s →
    exec (.thermShed plate) s = .next (report (unitId 0 0) 0x0101 0 0 (noteShed (shedTo (bandAllows (plateBand plate)) (img s).shedOrder
      { setPlate plate s with pwr := { s.pwr with appliedBand := plateBand plate } })))) ∧
  (∀ (plate : Int) (b : Nat) (s : State), screened s = true → calRuns s = true → s.pwr.thermShed ≠ [] → coolerBand s plate = some b →
    exec (.thermUnshed plate) s = .next (noteShed (unshedTo (bandAllows b) s.pwr.thermShed.reverse
      { setPlate plate s with pwr := { s.pwr with appliedBand := b } }))) ∧
  (∀ (t : Nat) (s : State), s.pwr.powered = true → stage s ≠ 0 → t < 8 → tripPoint s ≤ (tget s.sens t).junction →
    exec (.junctionThermTrip t) s = .next (report (unitId 6 t) 0x0304 0 0
      (iff_ (tripActs s (unitId 6 t)) (fun s => { s with pwr := { s.pwr with thermHold := true } }) s))) ∧
  (∀ s : State, s.pwr.powered = true → stage s ≠ 0 → exec .plateThermTrip s = .next (
      let t := advanceFree (setPlate (plateLimit s + 81 + drawn s % 1024 : Nat) s)
      report (unitId 0 0) 0x0304 0 0 (iff_ (tripActs t (unitId 0 0)) (fun s => { s with pwr := { s.pwr with thermHold := true } }) t))) ∧
  (∀ s : State, s.pwr.thermHold = true → exec .thermHoldRelease s = .next (
      setPlate (min (plateT s) (plateLimit s : Nat)) { s with pwr := { s.pwr with thermHold := false } })) ∧
  (∀ (t : Nat) (x : Int) (temps : List Int) (s : State), s.pwr.powered = true → t < 8 → hottest temps = some x →
    exec (.junctionSample t temps) s = .next (iff_ (tooHot x) (report (unitId 6 t) 0x010B 0 0)
      (throttleRise t x (setSens t (fun y => { y with junction := x }) s)))) ∧
  (∀ (t lvl : Nat) (s : State), t < 8 → rfld s .tcmThrottle t 0 25 24 = lvl → 0 < lvl →
    (tget s.sens t).junction < (rfld s .tcmThrottle t 0 (lvl * 8 - 1) (lvl * 8 - 8) : Nat) * 8 - 32 →
    exec (.throttleFall t) s = .next (
      let u := rset .tcmThrottle t 0 25 24 (lvl - 1) s
      { u with tcm := { u.tcm with waking := (t * 4 + (4 - lvl)) :: u.tcm.waking } }))

/-- Fault reports, the FIFO's pop, safe state and the clearing of a unit (R400, R403, R404, R406, R407, R408, R409, R410, R411, R360, 19_faults_power.md). The model's own choices in it: log 6, 9, 66, 74. -/
def Obligations.FaultRowsComplete : Prop :=
  (∀ (u code info addr : Nat) (s : State), s.pwr.powered = true → faultOk u code = true → code ≠ 0x0304 →
    exec (.faultReport u code info addr) s = .next (report u code info addr s)) ∧
  (∀ (u info addr : Nat) (s : State), s.pwr.powered = true → faultOk u 0x0304 = true →
    exec (.faultReport u 0x0304 info addr) s = .next (thermTrip u s)) ∧
  (∀ s : State, inSafe s = true → optByte s 5 = 1 → exec .safePolicyTimeout s = .next (requestReset 6 true s)) ∧
  (∀ s : State, s.flt.collectorReset = true → sagRunning s = false → exec .collectorResetTimeout s =
    .next (if pendingCold s then coldReset s else warmReset s)) ∧
  (∀ s : State, s.flt.collectorReset = true → sagRunning s = true → exec .collectorResetTimeout s =
    .next (freezeFifo { s with pwr := { s.pwr with waiting := s.pwr.waiting ++ [{ cause := 4 }] } })) ∧
  (∀ s : State, hifUp s = true → exec .fltPop s = .next { s with flt := { s.flt with fifo := s.flt.fifo.drop 1 } }) ∧
  (∀ s : State, hifUp s = true → exec (.enterSafe 0x5AFE) s = .next (enterSafe s)) ∧
  (∀ s : State, hifUp s = true → causeActive s (rfld s .fltUnitSel 0 0 15 0) = false → exec .fltUnitClear s = .next (
      unitReturns (rfld s .fltUnitSel 0 0 15 0) (advanceFree
        (setUnit (rfld s .fltUnitSel 0 0 15 0) (fun x => { x with held := false, rep := false, repeats := 0 }) s)))) ∧
  (∀ (e : Nat) (s : State), (engine s e).fenceReq = true → exec (.engineFenceTimeout e) s =
    .next (fenceEngine e (engine s e).fault s)) ∧
  (∀ (e : Nat) (s : State), (engine s e).fenceReq = false → (engine s e).resetReq = true → exec (.engineFenceTimeout e) s =
    .next (engineReset e mgr s))

/-- Pace monitors and the voltage loop; the governor, its windows and DORMANT (R318, R412, R413, R414, R417, R418, R419, R420, R421, 19_faults_power.md, 13_corridor.md). The model's own choices in it: log 6, 72, 73, 80. -/
def Obligations.PaceAndGovernorRowsComplete : Prop :=
  (∀ (t : Nat) (l : List (Nat × Int)) (s : State), tileRunning s t = true → exec (.paceMonitorSample t l) s =
    .next (setSens t (fun x => { x with
      margins := (l.filter fun m => m.1 < 11).foldl (fun t m => tput t m.1 (some m.2)) []
      vcore := if l.any (fun m => m.2 < 0) then 800 else x.vcore }) s)) ∧
  (∀ (t i : Nat) (m : Int) (s : State), tileRunning s t = true → worstOf (tget s.sens t) = some (i, m) →
    exec (.avsLoop t) s = .next (setSens t (avsStep (pbit s .pltPaceTarget 31) (paceTarget s) m) s)) ∧
  (∀ (t i : Nat) (s : State), tileRunning s t = true → i ≤ 10 → paceIsLow s t i = true →
    exec (.paceLow t i) s = .next (report (islandUnit t i) 0x0203 0 0 s)) ∧
  (∀ (t i : Nat) (m : Int) (s : State), tileRunning s t = true → belowTarget s t = true → worstOf (tget s.sens t) = some (i, m) →
    0 ≤ m → exec (.paceMargin t) s = .next (report (unitId 6 t) 0x010A 0 0 s)) ∧
  (∀ (g next : Nat) (s : State), govOn s = true → calRuns s = true → s.ps.module = 0 → g < 64 → tileRunning s (g / 8) = true →
    pipeIdle s g = true → g ∉ s.ps.proof → 1900 + guardNs s ≤ (knownEvents s (.pipe g)).foldl min next →
    exec (.governorEvaluate (.pipe g) next) s = .next { s with ps := { s.ps with proof := g :: s.ps.proof } }) ∧
  (∀ (t next : Nat) (s : State), govOn s = true → calRuns s = true → s.ps.module = 0 → tileRunning s t = true →
    chillAllowed s t = true → t ∉ s.ps.chill → 70000 + guardNs s ≤ (knownEvents s (.tile t)).foldl min next →
    exec (.governorEvaluate (.tile t) next) s = .next { s with ps := { s.ps with chill := t :: s.ps.chill } }) ∧
  (∀ (g : Nat) (s : State), govOn s = true → g ∈ s.ps.proof → g ∉ s.ps.waking →
    exec (.governorWake (.pipe g)) s = .next { s with ps := { s.ps with waking := g :: s.ps.waking } }) ∧
  (∀ (g : Nat) (failed : List Nat) (s : State), g ∈ s.ps.waking → exec (.islandWakeDone (.pipe g) failed) s = .next (
    forEach (failed.filter fun u => u = unitId 2 g) (fun u => report u 0x0202 0 0)
      { s with ps := { s.ps with proof := s.ps.proof.filter (fun x => x ≠ g), waking := s.ps.waking.filter fun x => x ≠ g } })) ∧
  (∀ (val : Word) (s : State), hifUp s = true → fld val 31 16 = 0xD0A5 → bit val 0 = true → bit val 1 = false → s.ps.module = 0 →
    calRuns s = true → s.pwr.lead = none → s.pwr.sagStep = 0 →
    exec (.dormantEntry val) s = .next (startLead .dormant { s with ps := { s.ps with module := 1 } })) ∧
  (∀ (val : Word) (s : State), hifUp s = true → fld val 31 16 = 0xD0A5 → bit val 0 = false → bit val 1 = true → s.ps.module = 2 →
    exec (.dormantWake val) s = .next { s with ps := { s.ps with waking := s.ps.proof ++ s.ps.chill.map (64 + ·), module := 3 } }) ∧
  (∀ (w : Time80 × Time80) (s : State), govOn s = true → s.pwr.powered = true → s.ps.module = 0 → calRuns s = true →
    s.pwr.lead = none → s.pwr.sagStep = 0 → w ∈ (img s).cal.dormant → w.1.toNs ≤ nowNs s → nowNs s < w.2.toNs →
    exec .dormantWindowStart s = .next (startLead .dormant { s with ps := { s.ps with dormantWin := true, module := 1 } })) ∧
  (∀ s : State, s.ps.dormantWin = true → s.ps.module = 2 → exec .dormantWindowEnd s = .next { s with ps := { s.ps with
    dormantWin := false, waking := s.ps.proof ++ s.ps.chill.map (64 + ·), module := 3 } }) ∧
  (∀ s : State, hifUp s = true → exec .governorDisable s = .next (wakeAll (pset .pltGov 31 false s))) ∧
  (∀ (t : Nat) (w : Time80 × Time80) (s : State), tileRunning s t = true → t ∉ s.ps.quiet → (t, w) ∈ (img s).cal.quiet →
    w.1.toNs ≤ nowNs s → nowNs s < w.2.toNs → exec (.quietWindowStart t) s = .next { s with ps := { s.ps with quiet := t :: s.ps.quiet } }) ∧
  (∀ (cold : Bool) (s : State), s.pwr.lead = some (.reset cold) →
    exec .leaveLeadExpiry s = .next (arbitrate 0 cold { s with pwr := { s.pwr with lead := none } })) ∧
  (∀ s : State, s.pwr.lead = some .dormant →
    exec .leaveLeadExpiry s = .next (dormantStep (holdAll { s with pwr := { s.pwr with lead := none } })))

/-- Link events of a port: up, aligned, down, end of hold, FEC window (R93, R94, R95, R257, R258, 04_ports_time.md, 10_store.md). The model's own choices in it: log 6. -/
def Obligations.PortEventsComplete : Prop :=
  (∀ (p : Nat) (s : State), portAllowed s p = true → (port s p).aligned = true → exec (.pcsAlignmentHeld p) s =
    .next (upIfReady p (setPort p (fun q => { q with alignHeld := true }) s))) ∧
  (∀ (p : Nat) (s : State), p < 512 → portExists s p = true → tileRunning s (p / 64) = true → exec (.pcsAlignmentAcquired p) s =
    .next (setPort p (fun q => { q with aligned := true, signal := true, remoteFault := false }) s)) ∧
  (∀ (p : Nat) (los : Bool) (s : State), p < 512 → (port s p).up = true → exec (.portDownDetect p los) s = .next (adjLost p
    (setPort p (fun q => { q with remoteFault := true }) (portGoDown p false (portCnt p (if los then 37 else 38) 1
      (setPort p (fun q => { q with aligned := false, alignHeld := false, signal := !los }) s)))))) ∧
  (∀ (p : Nat) (los : Bool) (s : State), p < 512 → (port s p).up = false → (port s p).aligned = true →
    exec (.portDownDetect p los) s =
      .next (adjLost p (setPort p (fun q => { q with aligned := false, alignHeld := false, signal := !los }) s))) ∧
  (∀ (p : Nat) (s : State), (port s p).hold = true → (port s p).up = false → exec (.portHoldExpiry p) s =
    .next (retryWaits (portTile p) (flushPort p (setPort p (fun q => { q with hold := false, holdDone := true }) s)))) ∧
  (∀ (p cw corr uncorr symbols : Nat) (s : State), p < 512 → portExists s p = true → (port s p).aligned = true →
    exec (.fecWindowEnd p cw corr uncorr symbols) s =
      .next (fecNotice p symbols (portCnt p 35 symbols (portCnt p 34 uncorr (portCnt p 33 corr (portCnt p 32 cw s))))))

/-- Cages: polls, the ready timeout and a stuck I2C bus (R104, R105, R106, R107, R108, R109, R110, 04_ports_time.md). The model's own choices in it: log 6, 76. -/
def Obligations.CageEventsComplete : Prop :=
  (∀ (c : Nat) (x : CageSample) (s : State), cagePolled s c = true → x.present ≠ (cage s c).present → (cage s c).lastSample = x.present →
    exec (.cagePoll c x) s = .next (
      let t := setCage c (fun y => { y with lastSample := x.present }) s
      if x.present then insertCage c t else removeCage c t)) ∧
  (∀ (c : Nat) (x : CageSample) (s : State), cagePolled s c = true → x.present = (cage s c).present →
    exec (.cagePoll c x) s = .next (
      let t := setCage c (fun y => { y with lastSample := x.present }) s
      pollOptic c x (iff_ (cage t c).present (emit (.i2cSelect (c / 8) (2 ^ (c % 8)))) t))) ∧
  (∀ (c : Nat) (s : State), (cage s c).state = 1 → exec (.cageReadyTimeout c) s =
    .next (post mgr 0x1B c [] (cagePins c true true (setCage c (fun x => { x with state := 6 }) s)))) ∧
  (∀ (b : Nat) (s : State), b < 8 → calRuns s = true → (tget s.i2c b).stopped = false → exec (.i2cSdaStuck b true) s = .next (report (unitId 10 b) 0x0105 0 0
    { emit (.i2cPulses b) s with i2c := tput s.i2c b { sdaLow := true, stopped := true } })) ∧
  (∀ (b : Nat) (s : State), b < 8 → calRuns s = true → (tget s.i2c b).stopped = false → exec (.i2cSdaStuck b false) s = .next
    { emit (.i2cPulses b) s with i2c := tupd s.i2c b fun x => { x with sdaLow := false } })

/-- Rule slabs: a group awake, the bank select and the end of a self-test (R183, R184, R185, R186, 07_trie_slabs.md). The model's own choices in it: log 6, 41. -/
def Obligations.SlabEventsComplete : Prop :=
  (∀ (t g : Nat) (s : State), exec (.slabGroupAwake t g) s =
    .next { s with tcm := { s.tcm with waking := s.tcm.waking.filter (· ≠ t * 4 + g) } }) ∧
  (∀ (t : Nat) (v : Word) (s : State), hifUp s = true → tileRunning s t = true → tileGoBit s t = true →
    exec (.tcmBankSelWrite t v) s = .next (rset .tcmStat t 0 31 31 1 s)) ∧
  (∀ (t : Nat) (v : Word) (s : State), hifUp s = true → tileRunning s t = true → tileGoBit s t = false → fld v 1 0 ≠ 2 →
    exec (.tcmBankSelWrite t v) s = .next (setBank t (fld v 1 0) (fld v 7 4) s)) ∧
  (∀ (t : Nat) (v : Word) (s : State), hifUp s = true → tileRunning s t = true → tileGoBit s t = false → fld v 1 0 = 2 →
    rfld s .tcmStat t 0 30 30 = 0 → exec (.tcmBankSelWrite t v) s = .next (
      let u := setBank t 2 (fld v 7 4) s
      rset .tcmStat t 0 30 30 1 { u with tcm := { u.tcm with saved := tput u.tcm.saved t (some (rget s .tcmBankSel t 0)) } })) ∧
  (∀ (t : Nat) (failed : List (Nat × Nat)) (w : Word) (s : State), t < 8 → rfld s .tcmStat t 0 30 30 = 1 →
    fld (rget s .tcmBankSel t 0) 1 0 = 2 → tget s.tcm.saved t = some w → exec (.slabSelfTestEnd t failed) s = .next (
      fenceSlabs t (failed.map fun x => (t * 8 + x.1, x.2)) (rset .tcmStat t 0 30 30 0 (rput .tcmBankSel t 0 w
        (clearValid t ((List.range 4).filter fun g => !(fld (rget s .tcmBankSel t 0) 7 4).testBit g) s)))))

/-- A frame from its arrival to its tail in the source tile (R18, R92, R96, R97, R100, R128, R131, R237, R309, 05_parser.md, 10_store.md). The model's own choices in it: log 43, 84, 98, 99, 111, 117. -/
def Obligations.IngressFramesComplete : Prop :=
  (∀ (fid p : Nat) (f : RxFrame) (s : State), p < 512 → cfbTakes s p f.bytes = false → quarantined s p = true →
    (port s p).aligned = true → exec (.frameArrival fid p f) s = .next (fabCnt p 7 s)) ∧
  (∀ (fid p : Nat) (f : RxFrame) (s : State), p < 512 → cfbTakes s p f.bytes = false → quarantined s p = false →
    portUp s p = true → frame? s fid = none → fid < 4294967296 → macsecMode (wakePipe (p / 8) s) p = 0 → beAt f.bytes 12 2 ≠ 0x8808 →
    landingUsed (wakePipe (p / 8) s) (p / 8) < 2048 → exec (.frameArrival fid p f) s = .next (
      let g : Frame := {
        fid := fid, port := p, tile := p / 64, pipe := p / 8, bytes := f.bytes, fcsGood := f.fcsGood, codeErr := f.codeErr,
        icvGood := f.icvGood, ts := (wakePipe (p / 8) s).tim.now, landing := 1, carry := { frcIn := (wakePipe (p / 8) s).tim.frc } }
      { wakePipe (p / 8) s with frames := (wakePipe (p / 8) s).frames ++ [g] })) ∧
  (∀ (fid p : Nat) (f : RxFrame) (s : State), p < 512 → cfbTakes s p f.bytes = false → quarantined s p = false →
    portUp s p = true → frame? s fid = none → fid < 4294967296 → f.secTag = none → beAt f.bytes 12 2 = 0x8808 →
    exec (.frameArrival fid p f) s = .next (portCnt p 8 1 { wakePipe (p / 8) s with
      frames := (wakePipe (p / 8) s).frames ++ [{ newFrame (wakePipe (p / 8) s) fid p f none with phase := .dropped, landing := 0 }] })) ∧
  (∀ (fid present n : Nat) (x : Findings) (f : Frame) (s : State), frame? s fid = some f →
    n = (if f.tailSeen then f.bytes.length else present) → canParse s f n = true → overflows s f (cellsOf n) = false →
    x.graphErr = true →
    exec (.headerCellsPresent fid present x) s = .next (pipeCnt f.pipe 6 1 (gone f (report (unitId 2 f.pipe) 0x0204 0 0
      (rset .parStat f.tile 0 (8 + f.pipe % 8) (8 + f.pipe % 8) 1 s))))) ∧
  (∀ (fid present n : Nat) (x : Findings) (f : Frame) (s : State), frame? s fid = some f →
    n = (if f.tailSeen then f.bytes.length else present) → canParse s f n = true → overflows s f (cellsOf n) = false →
    x.graphErr = false → (parseFrame s f.tile (profileOf s f.port) n f.bytes).exc = 0 →
    exec (.headerCellsPresent fid present x) s = .next (
      let r := parseFrame s f.tile (profileOf s f.port) n f.bytes
      let g := { f with parseEnd := r.parseEnd, present := n, landing := max f.landing (cellsOf n) }
      forwardFrame g r (parsedMeta s f n r) x (countParse g r (setFrame fid (fun _ => g) s)))) ∧
  (∀ (fid i : Nat) (f : Frame) (s : State), frame? s fid = some f → f.fid = fid → f.tailSeen = false → shortTail f = false →
    tailFault f = some i → exec (.frameTail fid) s = .next (forTail fid tailBad (portCnt f.port i 1 (rxCount f s)))) ∧
  (∀ (fid : Nat) (f : Frame) (s : State), frame? s fid = some f → f.fid = fid → f.tailSeen = false → tailFault f = none →
    shortTail f = false → f.secured = false → overflows (rxCount f s) f (landingNeed f) = false →
    exec (.frameTail fid) s = .next (forTail fid tailGood (setFrame fid (fun g => { g with landing := landingKept g })
      (portCnt f.port (castIdx 2 f.bytes) 1 (rxCount f s)))))

/-- An express frame's launch and arrival (R19, R20, R21, R117, R220, R221, R222, R301, 09_plait.md). The model's own choices in it: log 35, 116, 119. -/
def Obligations.ExpressFramesComplete : Prop :=
  (∀ (fid : Nat) (f : Frame) (s : State), frame? s fid = some f → s.pwr.sagStep = 0 → f.phase = .express →
    tileRunning s f.tile = true → tileRunning s f.dst = true → 2048 ≤ (s.tim.frc - f.carry.frcEnq) * 1000 →
    canSend s f.tile f.dst kindExpress (min 16 (expWords f)) = true → exec (.expressLaunch fid) s =
      .next (send f.tile f.dst (.express (expressSlot f) f.egress (expWords f))
        (setFrame fid (fun g => { g with phase := .launched, landing := 0 })
          (useLink f.tile f.dst kindExpress (min 16 (expWords f)) s)))) ∧
  (∀ (src dst p n : Nat) (sl : Slot) (w : Wire) (s u : State), Received src dst isExpress w s u → w.msg = .express sl p n →
    noticeComes s dst sl = false →
    portUp (setPort p (fun q => { q with reserved := false }) (endLaunched sl.fid u)) p = true →
    (port (setPort p (fun q => { q with reserved := false }) (endLaunched sl.fid u)) p).tx = none →
    leafEarlier (setPort p (fun q => { q with reserved := false }) (endLaunched sl.fid u)) sl p = false →
    exec (.expressArrival ⟨src, true⟩ dst) s =
      .next (selectPort p (startTx p sl (setPort p (fun q => { q with reserved := false }) (endLaunched sl.fid u)))))

/-- Cells and their NOTICE: spread, arrival, spill, pull, return and reorder (R214, R219, R224, R225, R229, R237, R239, R240, R265, 09_plait.md, 10_store.md). The model's own choices in it: log 51, 52, 103, 114. -/
def Obligations.StoreCellsComplete : Prop :=
  (∀ (fid : Nat) (f : Frame) (d : Deal) (c : Cell) (r : List Cell) (s : State), frame? s fid = some f → f.phase = .stored →
    tileRunning s f.tile = true → f.deals.find? (fun d => cellReady f d && linkTakes s f d) = some d → d.cells = c :: r →
    exec (.cellSpread fid) s = .next (spreadCell f d c s)) ∧
  (∀ (src dst : Nat) (c : Cell) (w : Wire) (s u : State), Received src dst isSpread w s u → w.msg = .spread c →
    knowsFenced u dst (leafTile c.leaf) = false → u.fab.filters = [] →
    exec (.cellArrival src dst true) s = .next (placeCell dst c u)) ∧
  (∀ (src dst : Nat) (c : Cell) (w : Wire) (s u : State), takeWire src dst isSpread s = some (w, u) → w.msg = .spread c →
    tileRunning s dst = true → exec (.cellArrival src dst false) s = .next (linkCrc src dst u)) ∧
  (∀ (t i : Nat) (h : Held) (s : State), oldestSpill s t = some (h, i) → exec (.spillWriteDone ⟨t, .clean⟩) s = .next (pumpDram t (
    let u := writeMem (dramAddr t i 0) ((h.cell.data ++ List.replicate 256 0).take 256) (setChannel (cellChannel t i)
      (fun y => { y with marks := y.marks.filter (· ≠ i) }) (touchCell t i true s))
    { u with fab := { u.fab with
        held := u.fab.held.map (fun x => if x = h then { x with place := .dram i } else x)
        reads := if h.pulled then u.fab.reads ++ [(t, i)] else u.fab.reads } }))) ∧
  (∀ (src dst p : Nat) (n : Notice) (w : Wire) (s u : State), Received src dst isNotice w s u → w.msg = .notice n →
    let v := setLeaf n.leaf (fun l => { l with depth := min 134217727 (l.depth + n.cells) })
      { u with fab := { u.fab with notices := u.fab.notices ++ [n] } }
    isReplLeaf v n.leaf = false → leafPort v n.leaf = some p → portUp v p = true →
    exec (.noticeReceive src dst true) s = .next (selectPort p v)) ∧
  (∀ (src dst : Nat) (w : Wire) (s u : State), Received src dst isPull w s u →
    exec (.pullReceive src dst true) s = .next (arrivePull src dst w.msg u)) ∧
  (∀ (t d : Nat) (h : Held) (s : State), tileRunning s t = true → tileRunning s d = true →
    dueCell s t d = some h → h.cell.holder = false → h.poison = false → t ≠ d → canSend s t d kindReturn (cellWords h.cell) = true →
    0 < cellWords h.cell → exec (.returnSend t d) s = .next (tileCnt t 1 1 (send t d (.ret h.cell)
      (useLink t d kindReturn (cellWords h.cell) { s with fab := { s.fab with held := s.fab.held.erase h } })))) ∧
  (∀ (src dst : Nat) (w : Wire) (s u : State), Received src dst isReturn w s u →
    exec (.returnArrival src dst true) s = .next (arriveReturn dst w.msg u)) ∧
  (∀ (t src leaf ssn pos : Nat) (s : State), s.fab.asms.any (asmOwed t src leaf ssn pos) = true →
    exec (.reseqTimeout t src leaf ssn pos) s = .next (tileCnt t 4 1 (missPosition t src leaf ssn pos s)))

/-- Reassembly and transmission at the destination (R20, R98, R102, R226, R254, R285, R300, R382, R383, 10_store.md, 09_plait.md). The model's own choices in it: log 34, 84. -/
def Obligations.EgressFramesComplete : Prop :=
  (∀ (t src leaf ssn pos : Nat) (a : Asm) (s : State),
    s.fab.asms.find? (fun a => a.tile = t && a.note.src = src && a.note.leaf = leaf && a.note.ssn = ssn && a.note.pos = pos) = some a →
    asmDone s a = true → tileRunning s t = true → recovered a = [] → asmLost a = false → a.drop = false →
    exec (.reassemblyComplete t src leaf ssn pos) s = .next (afterAsm a (deliverAsm a (orderedCells a) s))) ∧
  (∀ (p c : Nat) (sl : Slot) (s : State), txFree s p = true →
    (List.range 8).reverse.find? (canFinish (countWaits p s) p) = some c → slotOf (countWaits p s) p c = some sl →
    exec (.frameTxStart p) s = .next (selectPort p (startTx p sl
      (setPort p (fun q => { q with slots := tput q.slots c none }) (countWaits p s))))) ∧
  (∀ (p : Nat) (sl : Slot) (s : State), p < 512 → (port s p).tx = some sl → sl.ready = true →
    macsecMode s p = 0 → exec (.frameTxEnd p) s = .next (endTx p sl (txStamp sl true
      (txCount p sl (wireBytes s p sl) (emit (.frame p (wireBytes s p sl ++ fcsOf (wireBytes s p sl))) s))))) ∧
  (∀ (p : Nat) (sl : Slot) (s : State), 512 ≤ p → (port s p).tx = some sl → sl.ready = true →
    exec (.frameTxEnd p) s = .next (endTx p sl (txStamp sl true
      (toHost p sl (wireBytes s p sl) (txCount p sl (wireBytes s p sl) s)))))

/-- Eviction, push-out and PORT_IDLE (R219, R221, R228, R229, R247, R248, 09_plait.md, 10_store.md). The model's own choices in it: log 6, 115. -/
def Obligations.EvictionRowsComplete : Prop :=
  (∀ (src dst l cls : Nat) (n : Notice) (w : Wire) (s u : State), Received src dst isEvictReq w s u → w.msg = .evictReq l cls →
    leafClass l < cls → newestNotice u l = some n →
    exec (.evictReqReceive src dst true) s = .next (dropLeaf l 1 (16 + 2) (evictNote dst n u))) ∧
  (∀ (src dst l cls : Nat) (w : Wire) (s u : State), Received src dst isEvictReq w s u → w.msg = .evictReq l cls →
    cls ≤ leafClass l → exec (.evictReqReceive src dst true) s = .next (tileCnt dst 11 1 (send dst src (.evictNack l) u))) ∧
  (∀ (src dst : Nat) (n : Notice) (w : Wire) (s u : State), Received src dst isEvict w s u → w.msg = .evict n →
    (u.fab.filters.filter fun x => x.tile = dst).length < 64 →
    exec (.evictReceive src dst true) s = .next { u with fab := { u.fab with
      held := u.fab.held.filter (fun h => !(h.tile = dst && inNote n h.cell)), filters := u.fab.filters ++ [{ tile := dst, note := n }] } }) ∧
  (∀ (src dst l k v c : Nat) (f : Frame) (w : Wire) (s u : State), Received src dst isNack w s u → w.msg = .evictNack l →
    u.frames.find? (triedLeaf dst l) = some f → f.phase = .pushout k v c →
    exec (.evictNackReceive src dst true) s = .next (pushOut f k (c + 1) u)) ∧
  (∀ (fid k v c : Nat) (f : Frame) (s : State), frame? s fid = some f → f.phase = .pushout k v c →
    exec (.pushoutTimeout fid) s = .next (dealAdmitted f.tile (admitFrame f s))) ∧
  (∀ (t : Nat) (s : State), exec (.evictionFilterExpiry t) s =
    .next { s with fab := { s.fab with filters := s.fab.filters.eraseP fun x => x.tile = t } }) ∧
  (∀ (t : Nat) (s : State), tileRunning s t = true → exec (.portIdleSend t) s =
    .next (forEach ((runningTiles s).filter (· ≠ t)) (fun d => send t d (.portIdle (idleBits s t))) s)) ∧
  (∀ (src dst b : Nat) (w : Wire) (s u : State), Received src dst isPortIdle w s u → w.msg = .portIdle b →
    exec (.portIdleReceive src dst true) s = .next { u with fab := { u.fab with idle := tput u.fab.idle (dst * 8 + src) b } })

/-- A failed link, a fence, the bank swap and the commit of an image (R212, R227, R230, R231, R233, R235, R325, 09_plait.md, 14_images.md). The model's own choices in it: log 31, 52, 115. -/
def Obligations.PlaitControlCompletes : Prop :=
  (∀ (rx tx : Nat) (s : State), rx ≠ tx → tileRunning s rx = true →
    16 ≤ ((tget s.fab.crcFails (rx * 8 + tx)).filter fun x => s.tim.frc < x + 1000000).length →
    exec (.linkDeclaredFailed rx tx) s = .next (report (unitId 9 (rx * 8 + tx)) 0x0207 0 0 (rset .latLinkErr rx 0 tx tx 1 s))) ∧
  (∀ (t f : Nat) (s : State), tileRunning s t = true → t ≠ f → f < 8 → tileRunning s f = false →
    rfld s .latCalStat t 0 (16 + f) (16 + f) = 0 → exec (.fenceReceive t f) s = .next (fenceAt t f s)) ∧
  (∀ s : State, s.img.shadow.isSome = true → (runningTiles s).any (swapPending s) = true → exec .bankSwap s =
    .next { forEach (runningTiles s) swapBank s with img := { s.img with
      calSwapped := true, other := { slots := (img s).cal.slots, tiers := (img s).queues.tierMap } } }) ∧
  (∀ (i : Image) (s : State), s.img.shadow = some i → exec .imgCommitSwap s = .next (commitNow i s))

/-- Module time: TIM_CMD, TIM_ADJ, capture, slew, realignment, PPS and time of day (R10, R112, R113, R114, R115, R116, R117, 04_ports_time.md). The model's own choices in it: log 6, 56, 94, 95, 120. -/
def Obligations.TimeRowsComplete : Prop :=
  (∀ s : State, hifUp s = true → timeRuns s = true → 999999999 < (rget s .timSetNs 0 0).toNat →
    exec .timSet s = .next (pset .timStat 3 true s)) ∧
  (∀ (sec : Nat) (s : State), hifUp s = true → timeRuns s = true → (rget s .timSetNs 0 0).toNat ≤ 999999999 →
    sec = (rget s .timSetSecLo 0 0).toNat + rfld s .timSetSecHi 0 0 15 0 * 4294967296 →
    exec .timSet s = .next (newTime (sec * 1000000000 + (rget s .timSetNs 0 0).toNat) s)) ∧
  (∀ (n : Nat) (s : State), (n : Int) = (nowNs s : Int) + sext 32 (rget s .timSetNs 0 0).toNat → n ≤ maxNs →
    hifUp s = true → timeRuns s = true → exec .timOffset s = .next (newTime n s)) ∧
  (∀ (n : Nat) (d : Int) (s : State), d = (n : Int) - (nowNs s : Int) → d ≠ 0 → d.natAbs ≤ stepLimit s →
    newTime n s = pset .timStat 4 true { s with tim := { s.tim with slewLeft := d * 10000 } }) ∧
  (∀ (v : Word) (s : State), hifUp s = true → -109951163 ≤ sext 32 v.toNat → sext 32 v.toNat ≤ 109951163 →
    exec (.timAdjWrite v) s = .next (rput .timAdj 0 0 v s)) ∧
  (∀ (v : Word) (s : State), hifUp s = true → 109951163 < sext 32 v.toNat →
    exec (.timAdjWrite v) s = .next (pset .timStat 3 true (rput .timAdj 0 0 (word (twos 32 109951163)) s))) ∧
  (∀ (v : Word) (s : State), hifUp s = true → sext 32 v.toNat < -109951163 →
    exec (.timAdjWrite v) s = .next (pset .timStat 3 true (rput .timAdj 0 0 (word (twos 32 (-109951163))) s))) ∧
  (∀ s : State, hifUp s = true → exec .timNowCapture s = .next (emit (.readData (word s.tim.now.ns))
    (rput .timNowSecHi 0 0 (word (s.tim.now.sec / 4294967296 % 65536)) (rput .timNowSecLo 0 0 (word s.tim.now.sec) s)))) ∧
  (∀ s : State, pbit s .timStat 4 = true → exec .slewEnd s = .next (
    let u := addUnits (s.tim.slewLeft * 1099511627776) s
    pset .timStat 4 false { u with tim := { u.tim with slewLeft := 0 } })) ∧
  (∀ (k : Nat) (s : State), k ∈ s.tim.realign → exec (.scheduleRealign k) s =
    .next (realignOne k (setRealign (s.tim.realign.filter (· ≠ k)) s))) ∧
  (∀ s : State, timeRuns s = true → edgeSkipped s = false → exec .ppsOutEdge s = .next (emit (.ppsOut true) { s with tim := { s.tim with
    ppsHigh := true, ppsStep := false, lastPps := some s.tim.frc, ppsSec := edgeSecond s } })) ∧
  (∀ s : State, s.tim.ppsHigh = true → exec .ppsOutFall s = .next (emit (.ppsOut false) { s with tim := { s.tim with ppsHigh := false } })) ∧
  (∀ s : State, timeRuns s = true → s.tim.lastPps.isSome = true → exec .todLine s = .next (
    emit (.tod (asciiBytes ("TOD,".toList ++ Nat.toDigits 10 s.tim.ppsSec ++
      [',', '0', Nat.digitChar (s.tim.todStepped.toNat + (!pbit s .timStat 6).toNat * 2), '\r', '\n'])))
      { s with tim := { s.tim with todStepped := false } })) ∧
  (∀ s : State, timeRuns s = true → exec .ppsInEdge s = .next (post mgr 0x28 0 [] s)) ∧
  (∀ (ps : Word) (s : State), timeRuns s = true → pbit s .timStat 5 = true → exec (.freqInPhase ps) s = .next (post mgr 0x29 0 [ps] s)) ∧
  (∀ (bytes : List Byte) (s : State), timeRuns s = true → exec (.todRxByte bytes) s =
    .next (postTod 8 { s with tim := { s.tim with todBacklog := (s.tim.todBacklog ++ bytes).take 256 } }))

/-- Gates, shapers, the multicast limiter, 802.1CB reset and depth samples (R282, R285, R292, R293, R294, R296, R297, R300, R301, R432, 12_scheduling.md). The model's own choices in it: log 6, 15, 54. -/
def Obligations.GateAndShaperEventsComplete : Prop :=
  (∀ (p : Nat) (s : State), (gateOf s p).active.count ≠ 0 → (1 + p) ∉ s.tim.realign → exec (.gateEntryChange p) s =
    .next (selectPort p (setGate p (fun g => { g with entry := nextEntry g }) s))) ∧
  (∀ (p : Nat) (s : State), (gateOf s p).pending.isSome = true → s.tim.realign = [] → exec (.gateSwitch p) s =
    .next (selectPort p (setGate p gateSwitched s))) ∧
  (∀ (g : Nat) (s : State), (sgateOf s g).active.count ≠ 0 → (513 + g) ∉ s.tim.realign → exec (.streamGateEntryChange g) s =
    .next (selectBound g (setSgate g (fun x => { x with entry := nextEntry x }) s))) ∧
  (∀ (g : Nat) (s : State), (sgateOf s g).pending.isSome = true → (sgateOf s g).bind = none → s.tim.realign = [] →
    exec (.streamGateSwitch g) s = .next (selectBound g (setSgate g gateSwitched s))) ∧
  (∀ (p c : Nat) (s : State), portExists s p = true → classOpen s p c = false → exec (.gateLeadOpening p c) s =
    .next (selectPort p s)) ∧
  (∀ (level n p : Nat) (s : State), nodePort s level n = some p → nodeShade s level n = .red →
    exec (.shaperLeavesRed level n) s = .next (selectPort p (setNode level n (outOfRed s) s))) ∧
  (∀ (t : Nat) (s : State), tileRunning s t = true → exec (.mcLimiterRefill t) s = .next (selectRepl t s)) ∧
  (∀ (i : Nat) (s : State), (tget s.sch.streams i).cfg.kind = 2 → (tget s.sch.streams i).takeAny = false →
    exec (.frerReset i) s = .next (streamCnt i 3 (setStream i (fun f => { f with takeAny := true, hist := [] }) s))) ∧
  (∀ (t l : Nat) (s : State), tileRunning s t = true → rfld s .schSample t 0 31 31 = 1 → nextSample s t = some l →
    exec (.depthSample t) s = .next (telRecord (leafSlice s l) (pack [(23, 16, 0x01)]) (word l)
      [word (leafSt s l).depth, word (leafSt s l).delay]
      { s with sch := { s.sch with sampleAt := tput s.sch.sampleAt t (l % 131072 + 1) } }))

/-- Learn filter, repaired table words, dump periods, engine samples and timers (R157, R158, R160, R174, R346, R404, R428, R430, R431, R432, 20_telemetry.md, 06_exact_match.md). The model's own choices in it: log 6, 30, 38, 107. -/
def Obligations.LearnAndTelemetryRowsComplete : Prop :=
  (∀ (t n sl : Nat) (key : BitVec 128) (l : Learn) (s : State),
    s.exm.learn.find? (fun l => sameLearn t n sl key l && !l.posted) = some l →
    exec (.raceWindowClose t n sl key) s = .next (postLearn l s)) ∧
  (∀ (t n sl : Nat) (key : BitVec 128) (s : State), exec (.filterHoldExpiry t n sl key) s =
    .next { s with exm := { s.exm with learn := s.exm.learn.filter fun l => !(sameLearn t n sl key l && l.posted) } }) ∧
  (∀ (t u mem addr : Nat) (s : State), tileRunning s t = true → (runningTiles s).find? (· ≠ t) = some u →
    (t, mem, addr) ∈ s.tblBad → mem < 16 → exec (.tableWordRepaired t mem addr) s =
      .next (lpmCnt t 3 (report (unitId 11 t) 0x0104 0 addr { s with tblBad := s.tblBad.filter (· ≠ (t, mem, addr)) }))) ∧
  (∀ (t u mem addr : Nat) (s : State), tileRunning s t = true → (runningTiles s).find? (· ≠ t) = some u →
    (t, mem, addr) ∈ s.tblBad → 16 ≤ mem → exec (.tableWordRepaired t mem addr) s =
      .next { s with tblBad := s.tblBad.filter (· ≠ (t, mem, addr))
                     exm := { s.exm with entries := tupd s.exm.entries addr (hitFrom t u) } }) ∧
  (∀ (n : Nat) (s : State), dumpsRun s n = true → exec (.dumpPeriod n) s = .next (forEach (List.range 17) (beginDump n) s)) ∧
  (∀ (e skid req r op : Nat) (tag : Word) (s : State), (engine s e).last = some (req, r, op, tag) → e < 16 →
    bit (sampler s e) 31 = true → engineUp s e = true → skid < 3 → exec (.engineSample e skid) s = .next (
      telRecord mgr (pack [(23, 16, 2), (15, 0, e)]) (pack [(1, 0, skid), (6, 4, sampledClass (sampler s e))])
        [pack [(10, 0, op), (11, 11, (decide (req = mgr)).toNat), (15, 12, if req = mgr then 0 else req), (23, 16, r)], tag,
         word (drawn s % 65536)] (advanceFree s))) ∧
  (∀ (e skid req r op : Nat) (tag : Word) (s : State), (engine s e).last = some (req, r, op, tag) → e < 16 →
    bit (sampler s e) 31 = true → engineUp s e = true → 3 ≤ skid → exec (.engineSample e skid) s = .next (ownerCnt mgr 12 1 s)) ∧
  (∀ (q k : Nat) (s : State), (timer s q k).on = true → exec (.timerExpiry q k) s =
    .next (postAt q 0x02 k (timer s q k).tag (timer s q k).at_ [] (setTimer q k {} s)))

/-- DRAM: refresh and its debt, a read, retirement and migration (R267, R268, R269, R270, R271, R273, R275, R276, 11_dram.md). The model's own choices in it: log 6, 9, 51, 53, 105, 114. -/
def Obligations.DramRowsComplete : Prop :=
  (∀ (ch r : Nat) (busy : Bool) (s : State), channelUp s ch = true → r < 9 →
    (busy = false ∧ rankQueued s ch r = []) ∨ postponeMax s (ch / 8) = 0 → exec (.refreshDue ch r busy) s =
    .next (refreshes ch r 1 s)) ∧
  (∀ (ch r : Nat) (busy : Bool) (s : State), channelUp s ch = true → r < 9 → busy = true ∨ rankQueued s ch r ≠ [] → 0 < postponeMax s (ch / 8) →
    exec (.refreshDue ch r busy) s = .next (payAtLimit ch r (drmCnt ch r 5 1
      (setChannel ch (fun c => { c with debt := tput c.debt r (tget c.debt r + 1) }) s)))) ∧
  (∀ (ch : Nat) (s : State), channelUp s ch = true → channelLoad s ch = 0 → exec (.refreshDebtPayment ch) s =
    .next (forEach (channel s ch).debt (fun x => refreshes ch x.1 x.2) (setChannel ch (fun c => { c with debt := [] }) s))) ∧
  (∀ (t i : Nat) (x : EccFinding) (s : State), tileRunning s t = true → oldestRead s t = some i →
    exec (.dramReadDone t i x) s = .next (
      let u := (readCell t i x s).2
      let got (h : Held) : Held :=
        { h with place := .read i, poison := h.poison || (readCell t i x s).1,
                 cell := { h.cell with data := readMem u (dramAddr t i 0) h.cell.data.length } }
      pumpDram t { u with fab := { u.fab with
        held := u.fab.held.map (fun h => if h.tile = t && h.place = .reading i then got h else h)
        reads := u.fab.reads.erase (t, i) } })) ∧
  (∀ (ch : Nat) (s : State), ch < 64 → 3 ≤ stage s → stage s ≤ 9 → (channel s ch).trainFail = false →
    exec (.retirementRecordWritten ch) s =
    .next { s with nvm := { s.nvm with dram := tupd s.nvm.dram ch fun r =>
      { r with remap := (channel s ch).remap, retired := (channel s ch).out } } }) ∧
  (∀ (ch : Nat) (s : State), channelUp s ch = true → (channel s ch).migState = 1 → (channel s ch).draining = false →
    exec (.migrationLastRow ⟨ch, []⟩) s = .next (
      let phys := (channel s ch).remap.getD (channel s ch).migLrank 15
      setChannel ch (fun c => if c.migState = 1 then { c with migPos := allRows, draining := true } else c)
        (copyRows ch phys (channel s ch).migPos allRows s))) ∧
  (∀ (ch : Nat) (s : State), channelUp s ch = true → (channel s ch).draining = true → exec (.remapCommit ch) s =
    .next (dormantStep (updateLimit (setChannel ch (fun c =>
      { c with remap := c.remap.set c.migLrank 8, migState := 0, migPos := 0, draining := false }) s)))) ∧
  (∀ s : State, 5 ≤ stage s → stage s ≤ 9 → exec .rngReseed s = .next (reseed s)) ∧
  (∀ (ch : Nat) (s : State), (channel s ch).migState = 3 → exec (.migrationAbandon ch) s =
    .next (setChannel ch (fun c => nextGen (migOver c)) s))

/-- The corridor: hellos, hold time, management frames, failures and repairs (R306, R308, R309, R310, R311, R312, R313, R314, R315, R384, 13_corridor.md). The model's own choices in it: log 6, 55, 93. -/
def Obligations.CorridorRowsComplete : Prop :=
  (∀ (p : Nat) (s : State), helloAllowed s p = true → exec (.helloTimer p) s = .next (emit (.hello p
    (beBytes 6 0x0180C200000E ++ beBytes 6 (Config.portMac p).toNat ++ beBytes 2 (cfbEtype s) ++ helloBytes (helloOf s p))) (fabCnt p 0 s))) ∧
  (∀ (p : Nat) (h : Hello) (s : State), isFabric s p = true → portExists s p = true → (port s p).aligned = true →
    h.version = 1 → 46 ≤ h.payloadLen → exec (.helloReceive p h) s = .next (takeHello p h s)) ∧
  (∀ (p : Nat) (h : Hello) (s : State), isFabric s p = true → portExists s p = true → (port s p).aligned = true →
    h.version ≠ 1 → exec (.helloReceive p h) s = .next (fabCnt p 2 s)) ∧
  (∀ (p : Nat) (s : State), isFabric s p = true → (adjOf s p).state ≠ 1 → exec (.holdTimeExpiry p) s = .next (adjLost p s)) ∧
  (∀ (p : Nat) (m : Mgmt) (s : State), isFabric s p = true → portExists s p = true → (port s p).aligned = true →
    m.type ≠ 1 → takesMgmt s m = true → quarantined s p = false → exec (.managementFrameReceive p m) s = .next (checkMgmt p m s)) ∧
  (∀ (p : Nat) (m : Mgmt) (s : State), isFabric s p = true → portExists s p = true → (port s p).aligned = true →
    m.type ∉ [1, 4, 5] → quarantined s p = true → exec (.managementFrameReceive p m) s = .next (fabCnt p 7 s)) ∧
  (∀ s : State, activeFail s ≠ 0 → activeFail s ∈ s.cfb.originated → exec .failAdvRepeat s =
    .next (sendMgmt (upFabric s) 2 (beBytes 2 (activeFail s)) s)) ∧
  (∀ (p : Nat) (s : State), isFabric s p = true → announces s p = true → exec (.repairStable p) s = .next (
    sendMgmt (upFabric s) 3 (beBytes 2 (activeFail s) ++ time10 (revertOf s))
      { s with cfb := { s.cfb with revertId := activeFail s, revertAt := some (revertOf s) } })) ∧
  (∀ s : State, s.cfb.revertAt.isSome = true → activeFail s = s.cfb.revertId → exec .revertTime s = .next (
    let t := rset .cfbStat 0 0 11 0 0 s
    { t with cfb := { s.cfb with revertId := 0, revertAt := none, originated := s.cfb.originated.filter (· ≠ s.cfb.revertId) } })) ∧
  (∀ (bytes : List Byte) (r : Nat) (s : State), 3 ≤ stage s → findRing s mgr (fun g => g.kind = 2 && g.mgmt) = some r →
    exec (.mgmtPortFrameRx bytes none) s = .next (deliverRx mgr r bytes (mdSet 89 80 1023 0) s))

/-- Rings: doorbells, fetches, enabling, holdoff, timeouts, packet TX and slice reset (R339, R363, R368, R369, R371, R373, R374, R375, R378, R382, R385, 17_host.md). The model's own choices in it: log 6, 33, 60, 63, 64, 112, 123, 124. -/
def Obligations.RingRowsComplete : Prop :=
  (∀ (q r i : Nat) (s : State), hifUp s = true → exec (.ringDoorbell q r i) s = .next (doorbell q r (i % 131072) s)) ∧
  (∀ (q r n : Nat) (es : List (List Word)) (s : State), fetches s q r = true → (ringSt s q r).recheck = false →
    exec (.descriptorFetchDone q r es n) s = .next (
      let t := keepFetched q r (es.drop (ringSt s q r).fetched.length) s
      microTurn q r n (dropUndefined q r (covered (ringSt t q r)) (urgentFetched q r t)))) ∧
  (∀ (q r : Nat) (e : List Word) (s : State), fetches s q r = true → (ringSt s q r).recheck = true → phase1 e = true →
    exec (.phaseRecheck q r e) s = .next (keepFetched q r [e] (setRing q r (fun g => { g with recheck := false }) s))) ∧
  (∀ (q r : Nat) (e : List Word) (s : State), fetches s q r = true → (ringSt s q r).recheck = true → phase1 e = false →
    exec (.phaseRecheck q r e) s = .next (ringFails q r (fun g => { g with phaseErr := true }) s)) ∧
  (∀ (q r : Nat) (s : State), hifUp s = true → mayEnable s q r = true → (ringSt s q r).en = false → r ≠ 0 →
    exec (.ringEnable q r) s = .next (
      let t := pumpRing q r (setRing q r (fun g => { g with en := true, recheck := false }) s)
      if q = mgr then postTod 8 t else t)) ∧
  (∀ (q r : Nat) (s : State), hifUp s = true → ringExists s q r = true → (ringSt s q r).en = true →
    exec (.ringDisable q r) s = .next (setRing q r (fun g => { g with en := false }) (endPartial q r s))) ∧
  (∀ (q r : Nat) (s : State), (ringSt s q r).irqDue = true → (ringSt s q r).irqEn = true → (ringSt s q r).vector ≠ 0x7FF →
    exec (.msixHoldoffEnd q r) s = .next (
      let t := setRing q r (fun g => { g with irqDue := false, lastIrq := some s.tim.frc }) s
      sendVector ((vectorRange t q).1 + (ringSt s q r).vector) t)) ∧
  (∀ (q r : Nat) (s : State), hifUp s = true → ringExists s q r = true → exec (.hostReadTimeout q r true) s =
    .next (ringFails q r (fun g => { g with dbErr := true }) (rset .hifStat 0 0 30 30 1 s))) ∧
  (∀ (c : Cmd) (s : State), ringExists s c.req c.ring = true → (ringSt s c.req c.ring).kind = 1 →
    (ringSt s c.req c.ring).resetting = false → hifUp s = true → calRuns s = true → s.pwr.sagStep < 3 →
    s.ps.module ≤ 1 → txFails c s = none → txClaim c s = none → exec (.packetTxTake c) s = .next (txPass c s)) ∧
  (∀ (st : Nat) (c : Cmd) (s : State), ringExists s c.req c.ring = true → (ringSt s c.req c.ring).kind = 1 →
    (ringSt s c.req c.ring).resetting = false → hifUp s = true → calRuns s = true → s.pwr.sagStep < 3 →
    s.ps.module ≤ 1 → txFails c s = some st → exec (.packetTxTake c) s = .next (txEnds c st s)) ∧
  (∀ (sl : Nat) (s : State), sl ∈ s.hif.sliceResetting → exec (.sliceResetDone sl) s = .next (sliceResetEnd sl s))

/-- The security engine's lock, urgent messages and alarm (R103, R390, R394, R395, R396, R398, 18_security.md). The model's own choices in it: log 58, 121. -/
def Obligations.SecurityEventsComplete : Prop :=
  (∀ (id : Nat) (s : State), 3 ≤ stage s → id = 1 ∨ id = 2 → s.sec.holder = 0 → s.sec.running = none → id ∉ s.sec.queue →
    exec (.secLockClaim id) s = .next { s with sec := { s.sec with holder := id, running := some { holder := id } } }) ∧
  (∀ (id : Nat) (s : State), 3 ≤ stage s → id = 1 ∨ id = 2 → s.sec.holder ≠ 0 → s.sec.holder ≠ id → id ∉ s.sec.queue →
    exec (.secLockClaim id) s = .next { s with sec := { s.sec with queue := s.sec.queue ++ [id] } }) ∧
  (∀ s : State, s.sec.halted = false → s.sec.running.isSome = true → exec .secMessageEnd s = .next { s with sec := secNext s.sec }) ∧
  (∀ s : State, 3 ≤ stage s → s.sec.halted = false → s.sec.running = none → exec (.urgentRequest 1) s =
    .next { s with sec := { s.sec with running := some { holder := 1, level := 1 } } }) ∧
  (∀ (m : SecMsg) (s : State), 3 ≤ stage s → s.sec.halted = false → s.sec.running = some m → m.level < 2 →
    exec (.urgentRequest 2) s = .next { s with sec := { s.sec with
      contexts := m :: s.sec.contexts, running := some { holder := 1, level := 2 }, halted := true } }) ∧
  (∀ (k : Nat) (s : State), 3 ≤ stage s → k ≤ 3 → s.sec.halted = false → exec (.secAlarm k) s = .next (
    let u := secCommandsEnd stFENCED_UNIT s
    let keep := if u.sec.halted then u.sec.running else none
    let t := rset .secStat 0 0 k k 1 (rset .secStat 0 0 31 31 1
      { u with sas := [], chans := [], sec := { (default : Sec) with halted := u.sec.halted, running := keep } })
    report (unitId 12 0) 0x0108 (rfld t .secStat 0 0 3 0) 0 t)) ∧
  (∀ (mask persists : Nat) (s : State), hifUp s = true → exec (.secCauseClear mask persists) s =
    .next (clearCauses (Nat.land mask (15 - persists % 16)) s))

/-- The service UART; host register reads and writes, MSI-X writes and link changes (R9, R79, R81, R83, R365, R367, R438, R440, R442, R444, 21_registers.md, 03_startup.md). The model's own choices in it: log 9, 64, 68. -/
def Obligations.HostAccessRowsComplete : Prop :=
  (∀ (b : Bool) (n : Nat) (s : State), stage s = 0x80 → 0 < n → n ≤ 8388608 → exec (.uartFwHeader b n) s =
    .next (putFw b none { s with pwr := { s.pwr with uart := some (b, n, 0) } })) ∧
  (∀ (fw : FwImage) (x : Bool × Nat × Nat) (s : State), s.pwr.uart = some x → exec (.uartFwBlock false fw) s =
    .next (emit (.uartByte 0x15) s)) ∧
  (∀ (fw : FwImage) (b : Bool) (n k : Nat) (s : State), s.pwr.uart = some (b, n, k) → k + 1024 < n → exec (.uartFwBlock true fw) s =
    .next (emit (.uartByte 0x06) { s with pwr := { s.pwr with uart := some (b, n, k + 1024) } })) ∧
  (∀ (fw : FwImage) (b : Bool) (n k : Nat) (s : State), s.pwr.uart = some (b, n, k) → n ≤ k + 1024 → exec (.uartFwBlock true fw) s =
    .next (uartEnds b fw (emit (.uartByte 0x06) { s with pwr := { s.pwr with uart := some (b, n, k + 1024) } }))) ∧
  (∀ s : State, 3 ≤ stage s → exec (.serviceUartCommand .status) s =
    .next (advanceFree (emit (.uart (Config.uartText (drawn s))) s))) ∧
  (∀ (off : Nat) (s : State), 3 ≤ stage s → debugOpen s = true → exec (.serviceUartCommand (.regRead off)) s =
    .next (bar0Read { off := off } s)) ∧
  (∀ (off t i : Nat) (r : Reg) (s : State), hifUp s = true → off < 0x4000000 → decodeBar0 off = some (r, t, i) →
    blockSilent s r t = false → exec (.rcFieldRead off) s = .next (emit (.readData (regRead s r t i)) (readEffect r t i s))) ∧
  (∀ (a : Access) (s : State), hifUp s = true → a.bar = 0 → a.off < 0x4000000 → a.pasid = none → decodeBar0 a.off = none →
    exec (.unmappedRead a) s = .next (emit (.readData 0) (decodeErr 30 0 a.off s))) ∧
  (∀ (a : Access) (t i : Nat) (r : Reg) (s : State), hifUp s = true → a.bar = 0 → a.off < 0x4000000 → a.pasid = none → a.be = 15 →
    decodeBar0 a.off = some (r, t, i) → blockShut s r t = false →
    exec (.registerWrite a) s = .next (regWrite r t i a.val s)) ∧
  (∀ (a : Access) (t i : Nat) (r : Reg) (s : State), hifUp s = true → a.bar = 0 → a.off < 0x4000000 → a.pasid = none → a.be < 15 →
    decodeBar0 a.off = some (r, t, i) → exec (.registerWrite a) s = .next (decodeErr 31 0 a.off s)) ∧
  (∀ (a : Access) (s : State), hifUp s = true → a.bar = 4 → a.off < 0x8000 → a.pasid = none → a.be = 15 →
    exec (.bar4Write a) s = .next (msixWrite (a.off / 4) a.val s)) ∧
  (∀ (speed width : Nat) (s : State), hifUp s = true → 1 ≤ speed → speed ≤ pcieGen s → width ∈ [1, 2, 4, 8] → width ≤ pcieLanes s →
    exec (.pcieLinkChange true speed width) s = .next (rput .hifStat 0 0
      (setBit (setFld (setFld (rget s .hifStat 0 0) 19 16 speed) 11 8 width) 0 true) s)) ∧
  (∀ (speed width : Nat) (s : State), hifUp s = true → exec (.pcieLinkChange false speed width) s = .next (rput .hifStat 0 0
      (setBit (setFld (setFld (rget s .hifStat 0 0) 19 16 0) 11 8 0) 0 false) s))

/-- The TBL commands complete with what they find and change (R143, R145, R146, R147, R149, R152, R162, R163, R334, 06_exact_match.md, 15_commands.md). The model's own choices in it: log 7, 27, 36, 39, 102, 106, 109, 110. -/
def Obligations.TableCommandsComplete : Prop :=
  (∀ (c : Cmd) (k : Nat) (e : ExmEntry) (s u : State), Runs c 0x41 .any (tblChecks c s false) s → u = tblReads c (noteCmd c s) →
    tblFind c u = some (k, e) → exec (.tblSrch c) s =
      .next (fin c stOK [(2, e.result), (3, pack [(15, 0, newestHit u (exmProf u (tblN c)) e), (16, 16, e.static.toNat),
        (17, 17, e.ageExempt.toNat)])] u)) ∧
  (∀ (c : Cmd) (s u : State), Runs c 0x41 .any (tblChecks c s false) s → u = tblReads c (noteCmd c s) →
    tblFind c u = none → exec (.tblSrch c) s = .next (fin c stNOT_FOUND [] u)) ∧
  (∀ (c : Cmd) (k : Nat) (s u : State), Runs c 0x42 .any (tblChecks c s (!opb c 5 31 && 528 ≤ opf c 5 17 0)) s → u = tblReads c (noteCmd c s) →
    tblFind c u = none →
    exmPlace u (bucketOf (exmProf u (tblN c)) (tblSl c) (opKey c 8)) (tblSl c) = some k → exec (.tblIns c) s = .next (
      let e : ExmEntry := {
        valid := true, key := opKey c 8, result := exmResult (opw c 5), static := opb c 4 8, ageExempt := opb c 4 9,
        slice := tblSl c, table := tblN c, bucket := bucketOf (exmProf u (tblN c)) (tblSl c) (opKey c 8),
        lastHit := List.replicate 8 (exmTick u (exmProf u (tblN c))) }
      fin c stOK [] (learnRelease (tblN c) (tblSl c) (opKey c 8) (journalAppend 1 e (exmAdd k e u))))) ∧
  (∀ (c : Cmd) (s u : State), Runs c 0x42 .any (tblChecks c s (!opb c 5 31 && 528 ≤ opf c 5 17 0)) s → u = tblReads c (noteCmd c s) →
    tblFind c u = none →
    exmPlace u (bucketOf (exmProf u (tblN c)) (tblSl c) (opKey c 8)) (tblSl c) = none → exec (.tblIns c) s =
      .next (fin c stTABLE_FULL [] (exmCnt (homeTile u c) (tblN c) 7 u))) ∧
  (∀ (c : Cmd) (k : Nat) (e : ExmEntry) (s u : State), Runs c 0x42 .any (tblChecks c s (!opb c 5 31 && 528 ≤ opf c 5 17 0)) s →
    u = tblReads c (noteCmd c s) → tblFind c u = some (k, e) → opb c 4 10 = false →
    exec (.tblIns c) s = .next (fin c stEXISTS [] u)) ∧
  (∀ (c : Cmd) (k : Nat) (e : ExmEntry) (s u : State), Runs c 0x42 .any (tblChecks c s (!opb c 5 31 && 528 ≤ opf c 5 17 0)) s →
    u = tblReads c (noteCmd c s) → tblFind c u = some (k, e) → opb c 4 10 = true → exec (.tblIns c) s = .next (
      let x : ExmEntry := { e with
        result := exmResult (opw c 5), static := opb c 4 8, ageExempt := opb c 4 9,
        lastHit := List.replicate 8 (exmTick u (exmProf u (tblN c))) }
      fin c stOK [] (learnRelease (tblN c) e.slice (opKey c 8) (journalAppend 2 x (exmPut k x u))))) ∧
  (∀ (c : Cmd) (k : Nat) (e : ExmEntry) (s u : State), Runs c 0x43 .any (tblChecks c s false) s → u = tblReads c (noteCmd c s) →
    tblFind c u = some (k, e) → exec (.tblDel c) s = .next (fin c stOK [] (exmDelete 3 k u))) ∧
  (∀ (c : Cmd) (s u : State), Runs c 0x43 .any (tblChecks c s false) s → u = tblReads c (noteCmd c s) →
    tblFind c u = none → exec (.tblDel c) s = .next (fin c stNOT_FOUND [] u)) ∧
  (∀ (c : Cmd) (s u : State), Runs c 0x44 .any (walkChecks c s true false) s → u = tblReads c (noteCmd c s) →
    exec (.tblNext c) s = .next (iterRun c (walkStart c s) (tblNextStep c) u)) ∧
  (∀ (c : Cmd) (s u : State), Runs c 0x45 .any (walkChecks c s false (528 ≤ opf c 5 9 0)) s → u = tblReads c (noteCmd c s) →
    exec (.tblFlushp c) s = .next (iterRun c (walkStart c s) (sweepStep c (flushEntry (opf c 5 9 0))) u)) ∧
  (∀ (c : Cmd) (raced : List Nat) (s u : State), Runs c 0x46 .any (walkChecks c s false (opf c 5 14 0 = 0)) s → u = exmErrors (homeTile (noteCmd c s) c) (exmUe c) (noteCmd c s) →
    exec (.tblAge c raced) s = .next (landHits (iterRun c (walkStart c s) (sweepStep c (ageEntry (homeTile s c) (opf c 5 14 0) raced)) u))) ∧
  (∀ (c : Cmd) (s u : State), Runs c 0x47 .manager [] s → u = noteCmd c s → exec (.tblCkpt c) s =
    .next (fin c stOK [(2, word u.exm.jSeq)] { u with exm := { u.exm with journal := [], jTrunc := false } }))

/-- The LPM and TCM commands complete with what they find and change (R169, R170, R171, R172, R175, R177, R179, R180, R334, 07_trie_slabs.md, 15_commands.md). The model's own choices in it: log 7, 27, 40, 100, 109, 125. -/
def Obligations.PrefixAndRuleCommandsComplete : Prop :=
  (∀ (c : Cmd) (s u : State), Runs c 0x81 .any (lpmChecks c s true (some (lpmLen c))) s → u = noteCmd c s →
    lpmExact u (lpmR c) (lpmLen c) (opKey c 8) = none → lpmUse u (lpmCharge c u) + unitCost u (lpmR c) (lpmLen c) ≤ lpmShare u →
    exec (.lpmIns c) s = .next (
      let p : Pfx := { root := lpmR c, len := lpmLen c, addr := opKey c 8, nh := opf c 5 17 0, slice := lpmCharge c u }
      fin c stOK [] (writeTrie (lpmR c) (lpmLen c) (opKey c 8) (some p.nh)
        { lpmRemove (lpmR c) (lpmLen c) (opKey c 8) u with lpm := p :: (lpmRemove (lpmR c) (lpmLen c) (opKey c 8) u).lpm }))) ∧
  (∀ (c : Cmd) (s u : State), Runs c 0x81 .any (lpmChecks c s true (some (lpmLen c))) s → u = noteCmd c s →
    lpmExact u (lpmR c) (lpmLen c) (opKey c 8) = none → lpmShare u < lpmUse u (lpmCharge c u) + unitCost u (lpmR c) (lpmLen c) →
    exec (.lpmIns c) s = .next (fin c stTABLE_FULL [] u)) ∧
  (∀ (c : Cmd) (q : Pfx) (s u : State), Runs c 0x81 .any (lpmChecks c s true (some (lpmLen c))) s → u = noteCmd c s →
    lpmExact u (lpmR c) (lpmLen c) (opKey c 8) = some q → opb c 4 12 = false → exec (.lpmIns c) s = .next (fin c stEXISTS [] u)) ∧
  (∀ (c : Cmd) (q : Pfx) (s u : State), Runs c 0x81 .any (lpmChecks c s true (some (lpmLen c))) s → u = noteCmd c s →
    lpmExact u (lpmR c) (lpmLen c) (opKey c 8) = some q → opb c 4 12 = true → exec (.lpmIns c) s = .next (
      let p : Pfx := { root := lpmR c, len := lpmLen c, addr := opKey c 8, nh := opf c 5 17 0, slice := q.slice }
      fin c stOK [] (writeTrie (lpmR c) (lpmLen c) (opKey c 8) (some p.nh)
        { lpmRemove (lpmR c) (lpmLen c) (opKey c 8) u with lpm := p :: (lpmRemove (lpmR c) (lpmLen c) (opKey c 8) u).lpm }))) ∧
  (∀ (c : Cmd) (q : Pfx) (s u : State), Runs c 0x82 .any (lpmChecks c s true (some (lpmLen c))) s → u = noteCmd c s →
    lpmExact u (lpmR c) (lpmLen c) (opKey c 8) = some q → exec (.lpmDel c) s =
      .next (fin c stOK [] (writeTrie (lpmR c) (lpmLen c) (opKey c 8) none (lpmRemove (lpmR c) (lpmLen c) (opKey c 8) u)))) ∧
  (∀ (c : Cmd) (q : Pfx) (s u : State), Runs c 0x83 .any (lpmChecks c s false (some (lpmLen c))) s → u = noteCmd c s →
    lpmExact u (lpmR c) (lpmLen c) (opKey c 8) = some q → exec (.lpmSrch c) s = .next (fin c stOK [(2, word q.nh)] u)) ∧
  (∀ (c : Cmd) (nh len : Nat) (s u v : State), Runs c 0x84 .any (lpmChecks c s false none) s → u = noteCmd c s →
    lookTrie (homeTile u c) (lpmR c) (opKey c 8).toNat c.ue u = (some (nh, len), v) → exec (.lpmLkup c) s =
      .next (fin c stOK [(2, word nh), (3, pack [(7, 0, len)])] v)) ∧
  (∀ (c : Cmd) (q : Pfx) (s u : State), Runs c 0x85 .any (lpmChecks c s false (some (lpmLen c))) s → u = noteCmd c s →
    lpmAfter u (lpmR c) (lpmLen c) (opKey c 8) = some q → exec (.lpmNext c) s =
      .next (fin c stOK ([(2, word q.nh), (4, setFld (opw c 4) 23 16 q.len)] ++ retBits 8 4 q.addr.toNat) u)) ∧
  (∀ (c : Cmd) (s u : State), Runs c 0xC1 .any (tcmChecks c s false) s → u = noteCmd c s →
    ((tcmPipes c).filter (pipeRunning u)).any (fun gp => (tcmRow u gp (namedHead u c gp) (tcmRowN c)).valid) = false →
    exec (.tcmWr c) s = .next (
      let put (gp : Nat) (r : TcmRow) : TcmRow :=
        let r := { r with value := BitVec.ofNat 160 (opBits c 6 5), mask := BitVec.ofNat 160 (opBits c 11 5) }
        if isHead u gp (tcmSlab c) then { r with prio := opf c 5 15 0, act := opf c 5 31 16 } else r
      fin c stOK [] (tcmWriteAll c (fun _ => tcmSlab c) put u))) ∧
  (∀ (c : Cmd) (s u : State), Runs c 0xC1 .any (tcmChecks c s false) s → u = noteCmd c s →
    ((tcmPipes c).filter (pipeRunning u)).any (fun gp => (tcmRow u gp (namedHead u c gp) (tcmRowN c)).valid) = true →
    exec (.tcmWr c) s = .next (fin c stEXISTS [] u)) ∧
  (∀ (c : Cmd) (s u : State), Runs c 0xC2 .any (tcmChecks c s true) s → u = noteCmd c s → exec (.tcmVal c) s =
    .next (fin c stOK [] (tcmWriteAll c (fun _ => tcmSlab c) (fun _ r => { r with valid := opb c 4 30 }) u))) ∧
  (∀ (c : Cmd) (s u : State), Runs c 0xC3 .any (tcmChecks c s true) s → u = noteCmd c s → exec (.tcmAct c) s =
    .next (fin c stOK [] (tcmWriteAll c (fun _ => tcmSlab c)
      (fun _ r => { r with prio := opf c 5 15 0, act := opf c 5 31 16 }) u))) ∧
  (∀ (c : Cmd) (gp : Nat) (s u : State), gp = opf c 4 2 0 * 8 + opf c 4 10 8 → Runs c 0xC4 .any
      [((slabTable s gp (tcmSlab c)).isNone, stBAD_OPERAND), (!ownsRow s c gp, stNO_PERMISSION), (!pipeRunning s gp, stFENCED_UNIT)] s →
    u = noteCmd c s → exec (.tcmRd c) s = .next (
      let r := tcmRow u gp (tcmSlab c) (tcmRowN c)
      fin c stOK ([(4, setBit (setBit (opw c 4) 30 r.valid) 31 r.parity), (5, pack [(15, 0, r.prio), (31, 16, r.act)])]
        ++ retBits 6 5 r.value.toNat ++ retBits 11 5 r.mask.toNat) u)) ∧
  (∀ (c : Cmd) (run : List Nat) (s u : State), run = (tcmPipes c).filter (pipeRunning s) →
    Runs c 0xC5 .manager [((tcmPipes c).isEmpty, stBAD_OPERAND), (run.isEmpty, stFENCED_UNIT)] s → u = noteCmd c s →
    exec (.tcmBase c) s = .next (fin c stOK [] (loadRows (fun gp slab => run.contains gp && slab / 2 = opf c 5 1 0) u))) ∧
  (∀ (c : Cmd) (s u : State), Runs c 0x82 .any (lpmChecks c s true (some (lpmLen c))) s → u = noteCmd c s →
    lpmExact u (lpmR c) (lpmLen c) (opKey c 8) = none → exec (.lpmDel c) s = .next (fin c stNOT_FOUND [] u)) ∧
  (∀ (c : Cmd) (s u : State), Runs c 0x83 .any (lpmChecks c s false (some (lpmLen c))) s → u = noteCmd c s →
    lpmExact u (lpmR c) (lpmLen c) (opKey c 8) = none → exec (.lpmSrch c) s = .next (fin c stNOT_FOUND [] u)) ∧
  (∀ (c : Cmd) (s u v : State), Runs c 0x84 .any (lpmChecks c s false none) s → u = noteCmd c s →
    lookTrie (homeTile u c) (lpmR c) (opKey c 8).toNat c.ue u = (none, v) → exec (.lpmLkup c) s = .next (fin c stNOT_FOUND [] v)) ∧
  (∀ (c : Cmd) (s u : State), Runs c 0x85 .any (lpmChecks c s false (some (lpmLen c))) s → u = noteCmd c s →
    lpmAfter u (lpmR c) (lpmLen c) (opKey c 8) = none → exec (.lpmNext c) s = .next (fin c stNOT_FOUND [] u))

/-- The ACT commands complete with the tables they write and read (R199, R201, R203, R205, R207, R209, R334, 08_actions.md, 15_commands.md). The model's own choices in it: log 27, 36, 40. -/
def Obligations.ActionCommandsComplete : Prop :=
  (∀ (c : Cmd) (s u : State), Runs c 0x101 .any (partChecks c s false 262144 (opf c 4 17 0)) s → u = noteCmd c s →
    exec (.actNhWr c) s =
      .next (fin c stOK [] { u with act := { u.act with nextHops := tput u.act.nextHops (opf c 4 17 0) (nextHopBits (opHop c)) } })) ∧
  (∀ (c : Cmd) (s u : State), Runs c 0x102 .any (partChecks c s false 262144 (opf c 4 17 0)) s → u = noteCmd c s →
    exec (.actNhRd c) s = .next (fin c stOK (retBits 5 4 (nextHop u (opf c 4 17 0))) u)) ∧
  (∀ (c : Cmd) (s u : State), Runs c 0x103 .any (partChecks c s false 16384 (opf c 4 13 0)) s → u = noteCmd c s →
    exec (.actGrpSet c) s = .next (fin c stOK [] { u with act := { u.act with groups := tput u.act.groups (opf c 4 13 0) (opHdr c) } })) ∧
  (∀ (c : Cmd) (s u : State), Runs c 0x104 .any (partChecks c s (opf c 5 15 8 < opf c 5 7 0) 16384 (opf c 4 13 0)) s → u = noteCmd c s →
    exec (.actBkt c) s = .next (fin c stOK [] { u with act := { u.act with
      buckets := putBuckets (opf c 4 13 0) (opf c 5 7 0) (opf c 5 15 8) (opf c 6 17 0, opf c 7 17 0) u.act.buckets } })) ∧
  (∀ (c : Cmd) (s u : State), Runs c 0x105 .any (partChecks c s false 16384 (opf c 4 13 0)) s → u = noteCmd c s →
    exec (.actBktRd c) s = .next (
      let b := tget u.act.buckets (bktKey (opf c 4 13 0) (opf c 5 7 0))
      fin c stOK [(6, word b.1), (7, word b.2)] u)) ∧
  (∀ (c : Cmd) (g : Nat) (s u : State), g = opf c 4 15 0 → Runs c 0x106 .any (partChecks c s (!opb c 5 19) 65536 g) s → u = noteCmd c s →
    (tget u.act.mcast g).members.any (fun m => m.nh = opf c 5 17 0) = false → membersFull u g = false → exec (.actMemAdd c) s =
      .next (fin c stOK [] (setMembers g ((tget u.act.mcast g).members ++ [{ nh := opf c 5 17 0, srcPrune := opb c 5 18 }]) u))) ∧
  (∀ (c : Cmd) (g : Nat) (s u : State), g = opf c 4 15 0 → Runs c 0x106 .any (partChecks c s (!opb c 5 19) 65536 g) s → u = noteCmd c s →
    (tget u.act.mcast g).members.any (fun m => m.nh = opf c 5 17 0) = true → exec (.actMemAdd c) s =
      .next (fin c stEXISTS [] (setMembers g (tget u.act.mcast g).members u))) ∧
  (∀ (c : Cmd) (g : Nat) (s u : State), g = opf c 4 15 0 → Runs c 0x107 .any (partChecks c s false 65536 g) s → u = noteCmd c s →
    (tget u.act.mcast g).members.any (fun m => m.nh = opf c 5 17 0) = true → exec (.actMemDel c) s =
      .next (fin c stOK [] (setMembers g ((tget u.act.mcast g).members.filter fun m => m.nh ≠ opf c 5 17 0) u))) ∧
  (∀ (c : Cmd) (s u : State), Runs c 0x108 .manager
      [(opf c 6 13 0 < 64 || 10240 < opf c 6 13 0, stBAD_OPERAND), (noTile s, stFENCED_UNIT)] s → u = noteCmd c s →
    exec (.actMirSet c) s = .next (fin c stOK [] { u with act := { u.act with
      mirrors := tput u.act.mirrors (opf c 4 5 0) { nh := opf c 5 17 0, len := opf c 6 13 0 } } })) ∧
  (∀ (c : Cmd) (g : Nat) (s u : State), g = opf c 4 15 0 → Runs c 0x106 .any (partChecks c s (!opb c 5 19) 65536 g) s → u = noteCmd c s →
    (tget u.act.mcast g).members.any (fun m => m.nh = opf c 5 17 0) = false → membersFull u g = true → exec (.actMemAdd c) s =
      .next (fin c stTABLE_FULL [] (setMembers g (tget u.act.mcast g).members u))) ∧
  (∀ (c : Cmd) (g : Nat) (s u : State), g = opf c 4 15 0 → Runs c 0x107 .any (partChecks c s false 65536 g) s → u = noteCmd c s →
    (tget u.act.mcast g).members.any (fun m => m.nh = opf c 5 17 0) = false → exec (.actMemDel c) s = .next (fin c stNOT_FOUND [] (setMembers g (tget u.act.mcast g).members u)))

/-- The SCH and POL commands complete with the settings they write and read (R278, R279, R281, R288, R289, R291, R298, R300, R334, 12_scheduling.md, 15_commands.md). The model's own choices in it: log 15, 27, 37, 54. -/
def Obligations.SchedulerCommandsComplete : Prop :=
  (∀ (c : Cmd) (l n : Nat) (s u : State), l = schLevel c → n = schNum c → Runs c 0x141 .any (nodeChecks c s l n (l = 0 || opf c 6 15 8 = 0)) s →
    u = noteCmd c s → exec (.schNode c) s = .next (fin c stOK [] (selectAbove l n (setNode l n (fun x => { x with
      cfg := { x.cfg with prio := opf c 6 2 0, weight := opf c 6 15 8, lenProf := opf c 6 19 16 }, deficit := 0 }) u)))) ∧
  (∀ (c : Cmd) (l n : Nat) (s u : State), l = schLevel c → n = schNum c →
    Runs c 0x142 .any (nodeChecks c s l n (l = 0 || 800000 < opf c 6 19 0 || 800000 < opf c 8 19 0)) s →
    u = noteCmd c s → exec (.schShape c) s = .next (fin c stOK [] (selectAbove l n (setNode l n (nodeShaped u c) u)))) ∧
  (∀ (c : Cmd) (n : Nat) (s u : State), n = schNum c → Runs c 0x143 .any (nodeChecks c s 3 n false) s → u = noteCmd c s →
    exec (.schLeaf c) s = .next (fin c stOK [] (setNode 3 n (fun x => { x with cfg := { x.cfg with maxRes := opf c 6 15 0 } }) u))) ∧
  (∀ (c : Cmd) (l n : Nat) (s u : State), l = schLevel c → n = schNum c → Runs c 0x144 .any (nodeChecks c s l n false) s →
    u = noteCmd c s → exec (.schRd c) s = .next (fin c stOK (nodeWords u l n) u)) ∧
  (∀ (c : Cmd) (i : Nat) (s u : State), i = opf c 4 15 0 → Runs c 0x145 .any
      [(frerBad i (opFrer c), stBAD_OPERAND), (!ownsPart s c.req 65536 i || !ownsBinding s c.req (opFrer c), stNO_PERMISSION),
       (tileDown s (i / 8192), stFENCED_UNIT)] s → u = noteCmd c s → exec (.schFrer c) s =
    .next (fin c stOK [] (setStream i (fun _ => frerFresh (opFrer c)) u))) ∧
  (∀ (c : Cmd) (i : Nat) (s u : State), i = opf c 4 15 0 → Runs c 0x146 .any
      [(!ownsPart s c.req 65536 i, stNO_PERMISSION), (tileDown s (i / 8192), stFENCED_UNIT)] s → u = noteCmd c s →
    exec (.schFrerRd c) s = .next (fin c stOK (frerWords u i) u)) ∧
  (∀ (c : Cmd) (i : Nat) (s u : State), i = opf c 4 17 0 → Runs c 0x181 .any (partChecks c s (polBad (opPol c)) 262144 i) s →
    u = noteCmd c s → exec (.polSet c) s = .next (fin c stOK [] (polTokens i (opPol c) (opTokens c)
      { u with sch := { u.sch with policers := tput u.sch.policers i (opPol c) } }))) ∧
  (∀ (c : Cmd) (i t : Nat) (s u : State), i = opf c 4 17 0 → t = opf c 4 22 20 → Runs c 0x182 .any
      [(!ownsPart s c.req 262144 i, stNO_PERMISSION), (tileDown s t, stFENCED_UNIT)] s → u = noteCmd c s →
    exec (.polRd c) s = .next (fin c stOK (polWords u t i) u))

/-- The GATE and CAL commands complete with the lists, timers and slots they act on (R234, R293, R294, R296, R334, R346, 12_scheduling.md, 15_commands.md). The model's own choices in it: log 27, 37. -/
def Obligations.GateAndTimerCommandsComplete : Prop :=
  (∀ (c : Cmd) (p : Nat) (s u : State), p = opf c 4 9 0 →
    Runs c 0x1C1 .any (gateChecks c s (gwBad c 256 portEntry) ++ [gateBusy s (gateOf s p)]) s → u = noteCmd c s →
    exec (.gateWr c) s = .next (fin c stOK [] (setGate p (gwShadow c portEntry) u))) ∧
  (∀ (c : Cmd) (g : Nat) (s u : State), g = opf c 4 9 0 →
    Runs c 0x1C2 .any (partChecks c s (gwBad c 16 sgEntry) 1024 g ++ [gateBusy s (sgateOf s g)]) s → u = noteCmd c s →
    exec (.gateSgWr c) s = .next (fin c stOK [] (setSgate g (gwShadow c sgEntry) u))) ∧
  (∀ (c : Cmd) (p : Nat) (s u : State), p = opf c 4 9 0 → Runs c 0x1C3 .any
      (gateChecks c s (gcBad c 256) ++ [gateBusy s (gateOf s p), (timePassed s (opTime c 10), stTIME_PASSED)]) s → u = noteCmd c s →
    exec (.gateCommit c) s = .next (fin c stOK [] (setGate p (gcPending c) u))) ∧
  (∀ (c : Cmd) (g : Nat) (s u : State), g = opf c 4 9 0 → Runs c 0x1C4 .any
      (partChecks c s (gcBad c 16) 1024 g ++ [gateBusy s (sgateOf s g), (timePassed s (opTime c 10), stTIME_PASSED)]) s → u = noteCmd c s →
    exec (.gateSgCommit c) s = .next (fin c stOK [] (setSgate g (gcPending c) u))) ∧
  (∀ (c : Cmd) (p : Nat) (s u : State), p = opf c 4 9 0 → opb c 4 31 = false → Runs c 0x1C5 .any (gateChecks c s false) s →
    u = noteCmd c s → exec (.gateRd c) s = .next (fin c stOK
      (listWords (if opb c 5 0 then (gateOf u p).shadow else (gateOf u p).active) (opf c 5 15 8) portEntryBits) u)) ∧
  (∀ (c : Cmd) (g : Nat) (s u : State), g = opf c 4 9 0 → opb c 4 31 = true →
    Runs c 0x1C5 .any (partChecks c s (16 ≤ opf c 5 15 8) 1024 g) s → u = noteCmd c s → exec (.gateRd c) s = .next (fin c stOK
      (listWords (if opb c 5 0 then (sgateOf u g).shadow else (sgateOf u g).active) (opf c 5 15 8) sgEntryBits) u)) ∧
  (∀ (c : Cmd) (k : Nat) (s u : State), k = opf c 4 3 0 → opb c 4 4 = false → Runs c 0x201 .any
      [(!timeOk (opTime c 5), stBAD_OPERAND), (timePassed s (opTime c 5), stTIME_PASSED)] s → u = noteCmd c s →
    exec (.calTimer c) s = .next (fin c stOK [] (setTimer c.req k { on := true, at_ := opTime c 5, tag := opw c 1 } u))) ∧
  (∀ (c : Cmd) (k : Nat) (s u : State), k = opf c 4 3 0 → opb c 4 4 = true → Runs c 0x201 .any [] s → u = noteCmd c s →
    (timer u c.req k).on = true → exec (.calTimer c) s = .next (fin c stOK [] (setTimer c.req k {} u))) ∧
  (∀ (c : Cmd) (s u : State), Runs c 0x202 .manager
      [(8 < opf c 4 7 4 || 15625 ≤ opf c 5 13 0, stBAD_OPERAND), (tileDown s (opf c 4 2 0), stFENCED_UNIT)] s → u = noteCmd c s →
    exec (.calRd c) s = .next (fin c stOK
      [(6, tget (bankSlots u (opf c 4 2 0) (opf c 4 3 3)) ((opf c 4 2 0 * 9 + opf c 4 7 4) * 15625 + opf c 5 13 0))] u)) ∧
  (∀ (c : Cmd) (k : Nat) (s u : State), k = opf c 4 3 0 → opb c 4 4 = true → Runs c 0x201 .any [] s → u = noteCmd c s →
    (timer u c.req k).on = false → exec (.calTimer c) s = .next (fin c stNOT_FOUND [] u))

/-- The CNT and MEM commands complete with the counters, buffers and bytes they act on (R62, R163, R253, R254, R273, R334, R425, R427, R428, 11_dram.md, 20_telemetry.md). The model's own choices in it: log 16, 27, 38, 53, 57, 113, 114. -/
def Obligations.CounterAndMemoryCommandsComplete : Prop :=
  (∀ (c : Cmd) (s u : State), Runs c 0x241 .any [] s → u = noteCmd c s → exec (.cntFrz c) s =
    .next (fin c stOK (retTime 5 u.tim.now) (advanceClasses (forEach (maskTiles (opf c 4 7 0)) (freeze c.req) u)))) ∧
  (∀ (c : Cmd) (s u : State), Runs c 0x242 .any (cntRdChecks c s) s → u = noteCmd c s →
    exec (.cntRd c) s = .next (fin c stOK (cntRdWords c u) u)) ∧
  (∀ (c : Cmd) (s u : State), Runs c 0x243 .any [((setShape (cntSet c)).isNone || !dumpCursorOk c || !dumpRingOk s c.req (dumpRing c), stBAD_OPERAND),
      (!readsSet c.req (cntSet c), stNO_PERMISSION)] s → u = noteCmd c s → iterating c s = false → iterating c u = false →
    exec (.cntDump c) s = .next (iterRun c (if opCursor c = startCursor then dumpCursor (cntSet c) 0 else opCursor c) (dumpStep c)
      (subscribe c.req (cntSet c) (dumpRing c) u))) ∧
  (∀ (c : Cmd) (s u : State), Runs c 0x244 .manager [((setShape (cntSet c)).isNone || 1000 < opf c 5 9 0, stBAD_OPERAND)] s →
    u = noteCmd c s → opf c 5 9 0 ≠ 0 → exec (.cntPer c) s =
      .next (periodBegins (cntSet c) (fin c stOK [] (rset .telDumpPer 0 (cntSet c) 9 0 (opf c 5 9 0) u)))) ∧
  (∀ (c : Cmd) (t k : Nat) (s u : State), t = opf c 4 6 4 → k = opf c 4 1 0 → Runs c 0x283 .any [(tileDown s t, stFENCED_UNIT)] s →
    u = noteCmd c s → exhausted u t k (reqUser c.req) = false → exec (.memAlloc c) s = .next (
      fin c stOK [(2, word (takeBuf t k 1 (ringTag c.req c.ring) u).2)] (takeBuf t k 1 (ringTag c.req c.ring) u).1)) ∧
  (∀ (c : Cmd) (t k : Nat) (s u : State), t = opf c 4 6 4 → k = opf c 4 1 0 → Runs c 0x283 .any [(tileDown s t, stFENCED_UNIT)] s →
    u = noteCmd c s → exhausted u t k (reqUser c.req) = true → exec (.memAlloc c) s = .next (fin c stTABLE_FULL [] u)) ∧
  (∀ (c : Cmd) (h : Nat) (s u : State), h = (opw c 5).toNat →
    Runs c 0x284 .any [(!handleOk s h, stBAD_OPERAND), (tileDown s (handleTile h), stFENCED_UNIT)] s → u = noteCmd c s →
    (buf u h).alloc = true → (buf u h).tag = ringTag c.req c.ring → exec (.memFree c) s =
      .next (fin c stOK [] (retryWaits (handleTile h) (bufRelease h u)))) ∧
  (∀ (c : Cmd) (s u : State), memWaits c s = false → Runs c 0x281 .any (memChecks c s) s → u = noteCmd c s →
    exec (.memRd c) s = .next (
      let got := patchBytes (bytesOf ((List.range 8).map fun i => opw c (8 + i))) 0 (memFetch c c.dram u).1
      fin c stOK ((List.range 8).map fun i => (8 + i, (wordsOf 8 got).getD i 0)) (memFetch c c.dram u).2)) ∧
  (∀ (c : Cmd) (s : State), memDram c = false → memFetch c .clean s = (readMem s (memAt c) (memLen c), s)) ∧
  (∀ (c : Cmd) (s u : State), memWaits c s = false → memDram c = false → Runs c 0x282 .any (memChecks c s) s →
    u = noteCmd c s → exec (.memWr c) s = .next (
      let bs := (bytesOf ((List.range 8).map fun i => opw c (8 + i))).take (memLen c)
      fin c stOK [] (bufWritten (memName c) (memOff c) bs (writeMem (memAt c) bs u)))) ∧
  (∀ (c : Cmd) (s u : State), memWaits c s = false → memDram c = true → Runs c 0x282 .any (memChecks c s) s →
    u = noteCmd c s → exec (.memWr c) s = .next (
      let bs := (bytesOf ((List.range 8).map fun i => opw c (8 + i))).take (memLen c)
      fin c stOK [] (memStore c c.dram bs u))) ∧
  (∀ (c : Cmd) (s u : State), Runs c 0x285 .manager (migChecks c s) s → u = noteCmd c s → iterating c u = false →
    spareFree (channel u (migCh c)) = true → exec (.memMig c) s = .next (
      let v := migBegin c u
      migAfter c (iterRun c (migCursor (channel v (migCh c)).migPos (channel v (migCh c)).gen) (migStep c c.rowErrs) v))) ∧
  (∀ (c : Cmd) (s u : State), Runs c 0x286 .manager [(tileDown s (migCh c / 8), stFENCED_UNIT)] s → u = noteCmd c s →
    exec (.memMapClr c) s = .next (fin c stOK [] { u with nvm := { u.nvm with
      dram := tupd u.nvm.dram (migCh c) fun r => { r with clearNext := true } } })) ∧
  (∀ (c : Cmd) (o : Nat) (s u : State), o = (opw c 5).toNat → Runs c 0x287 .manager [(o % 32 ≠ 0 || 16777216 ≤ o, stBAD_OPERAND)] s →
    u = noteCmd c s → exec (.memSaveRd c) s = .next (
      let ws := wordsOf 8 ((List.range 32).map fun i => saveByte (saveSlot u (opf c 4 0 0)) (o + i))
      fin c stOK ((List.range 8).map fun i => (8 + i, ws.getD i 0)) u)) ∧
  (∀ (c : Cmd) (s u : State), Runs c 0x244 .manager [((setShape (cntSet c)).isNone || 1000 < opf c 5 9 0, stBAD_OPERAND)] s → u = noteCmd c s →
    opf c 5 9 0 = 0 → exec (.cntPer c) s = .next (fin c stOK [] (rset .telDumpPer 0 (cntSet c) 9 0 0 u))) ∧
  (∀ (c : Cmd) (h : Nat) (s u : State), h = (opw c 5).toNat → Runs c 0x284 .any [(!handleOk s h, stBAD_OPERAND), (tileDown s (handleTile h), stFENCED_UNIT)] s → u = noteCmd c s →
    (buf u h).alloc = false → exec (.memFree c) s = .next (fin c stNOT_FOUND [] (freeTwice h (ringTag c.req c.ring) u))) ∧
  (∀ (c : Cmd) (h : Nat) (s u : State), h = (opw c 5).toNat → Runs c 0x284 .any [(!handleOk s h, stBAD_OPERAND), (tileDown s (handleTile h), stFENCED_UNIT)] s → u = noteCmd c s →
    (buf u h).alloc = true → (buf u h).tag ≠ ringTag c.req c.ring → exec (.memFree c) s = .next (fin c stNO_PERMISSION [] (freeForeign h (ringTag c.req c.ring) u)))

/-- The PORT and FAB commands complete with the ports, associations and adjacencies they act on (R90, R101, R102, R109, R110, R309, R334, R342, 04_ports_time.md, 13_corridor.md, 15_commands.md). The model's own choices in it: log 24, 27, 58, 59, 92, 96. -/
def Obligations.PortAndFabricCommandsComplete : Prop :=
  (∀ (c : Cmd) (s u : State), Runs c 0x2C1 .manager
      [(!modeOk (opf c 5 3 0) (opf c 5 5 4), stBAD_OPERAND), (groupOut s (opf c 4 5 0), stFENCED_UNIT)] s → u = noteCmd c s →
    exec (.portMode c) s = .next (fin c stOK [] (setMode (opf c 4 5 0) (opf c 5 3 0) (opf c 5 5 4) u))) ∧
  (∀ (c : Cmd) (kek : Nat) (s u : State), kek = opf c 9 5 0 → Runs c 0x2C2 .any
      [(saBadPort c s || (c.req = mgr && !kekSlot s kek) || (!opb c 4 16 && (opw c 8).toNat ≠ 0), stBAD_OPERAND),
       (!ownsPort s c.req (saPort c) || !mayUnwrap s c.req kek, stNO_PERMISSION),
       (portOutOfService s (saPort c) || secAlarmed s, stFENCED_UNIT)] s →
    u = secClaim (secId c.req) (noteCmd c s) → u.sec.running = some { holder := secId c.req } →
    (tget u.sas (saOf c)).isSome = false → exec (.portSaAdd c) s =
      .next (messageEnd (withKey c kek 40 (fun k v => fin c stOK [] { v with
        sas := tput v.sas (saOf c) (some (saNew c k)), chans := tput v.chans (chanOf (saOf c)) (some (chanNew c)) }) u))) ∧
  (∀ (c : Cmd) (s u : State), Runs c 0x2C3 .any (saChecks c s) s → u = noteCmd c s → (tget u.sas (saOf c)).isSome = true →
    exec (.portSaDel c) s = .next (fin c stOK [] (
      let v := { u with sas := tput u.sas (saOf c) none }
      if (List.range 4).all fun an => (tget v.sas (chanOf (saOf c) + an)).isNone then
        { v with chans := tput v.chans (chanOf (saOf c)) none }
      else v))) ∧
  (∀ (c : Cmd) (s u : State), Runs c 0x2C4 .any (saChecks c s) s → u = noteCmd c s →
    (tget u.sas (saKey (saPort c) 0 0 (saAn c))).isSome = true → exec (.portSaTxAn c) s =
      .next (fin c stOK [] (setPort (saPort c) (fun p => { p with txAn := saAn c }) u))) ∧
  (∀ (c : Cmd) (bs : List Byte) (s u : State), Runs c 0x2C5 .any (cmisChecks c s) s → u = noteCmd c s →
    (cage u (opf c 4 5 0)).present = true → c.wrOk = true → exec (.portCmisRd c (some bs)) s =
      .next (fin c stOK [] (emitHost (.hostWrite c.req (opAddr c 10) (bs.take (opf c 6 7 0))) (selectCage (opf c 4 5 0) u)))) ∧
  (∀ (c : Cmd) (s u : State), Runs c 0x2C5 .any (cmisChecks c s) s → u = noteCmd c s → (cage u (opf c 4 5 0)).present = false →
    exec (.portCmisRd c none) s = .next (fin c stNOT_FOUND [] u)) ∧
  (∀ (c : Cmd) (bs : List Byte) (s u : State),
    Runs c 0x2C6 .any ((cmisChecks c s).take 2 ++ [(ownedControl c, stNO_PERMISSION)] ++ (cmisChecks c s).drop 2) s → u = noteCmd c s →
    c.data = some bs → (cage u (opf c 4 5 0)).present = true → exec (.portCmisWr c true) s =
      .next (fin c stOK [] (emit (.cmisWrite (opf c 4 5 0) (opf c 5 7 0) (opf c 5 23 16) (bs.take (opf c 6 7 0))) (selectCage (opf c 4 5 0) u)))) ∧
  (∀ (c : Cmd) (p : Nat) (h : Hello) (s u : State), p = opf c 4 9 0 →
    Runs c 0x401 .manager [(!isFabric s p, stBAD_OPERAND), (portOut s p, stFENCED_UNIT)] s → u = noteCmd c s →
    (adjOf u p).state = 4 → (adjOf u p).last = some h → h.serial = opBits c 5 2 → exec (.fabAdmit c) s =
      .next (fin c stOK [] (setAdj p (fun a => { a with admitted := some h.serial }) u))) ∧
  (∀ (c : Cmd) (p : Nat) (s u : State), p = opf c 4 9 0 →
    Runs c 0x402 .manager [(512 ≤ p, stBAD_OPERAND), (portOut s p, stFENCED_UNIT)] s → u = noteCmd c s →
    (adjOf u p).admitted.isSome = true → exec (.fabEvict c) s = .next (fin c stOK [] (setAdj p (fun a => { a with admitted := none }) u))) ∧
  (∀ (c : Cmd) (p : Nat) (s u : State), p = opf c 4 9 0 →
    Runs c 0x403 .manager [(!isFabric s p, stBAD_OPERAND), (portOut s p, stFENCED_UNIT)] s → u = noteCmd c s →
    exec (.fabRd c) s = .next (
      let bytes := match (adjOf u p).last with
        | some h => helloBytes h
        | none => []
      fin c stOK ((5, pack [(2, 0, (adjOf u p).state), (3, 3, (adjOf u p).admitted.isSome.toNat)]) ::
        (List.range 10).map fun i => (6 + i, word (leNat ((bytes.drop (4 * i)).take 4)))) u)) ∧
  (∀ (c : Cmd) (kek : Nat) (s u : State), kek = opf c 9 5 0 → Runs c 0x2C2 .any
      [(saBadPort c s || (c.req = mgr && !kekSlot s kek) || (!opb c 4 16 && (opw c 8).toNat ≠ 0), stBAD_OPERAND),
       (!ownsPort s c.req (saPort c) || !mayUnwrap s c.req kek, stNO_PERMISSION),
       (portOutOfService s (saPort c) || secAlarmed s, stFENCED_UNIT)] s →
    u = secClaim (secId c.req) (noteCmd c s) → u.sec.running ≠ some { holder := secId c.req } → exec (.portSaAdd c) s = .next (commandWaits c u)) ∧
  (∀ (c : Cmd) (s u : State), Runs c 0x2C3 .any (saChecks c s) s → u = noteCmd c s →
    (tget u.sas (saOf c)).isSome = false → exec (.portSaDel c) s = .next (fin c stNOT_FOUND [] u)) ∧
  (∀ (c : Cmd) (s u : State), Runs c 0x2C4 .any (saChecks c s) s → u = noteCmd c s →
    (tget u.sas (saKey (saPort c) 0 0 (saAn c))).isSome = false → exec (.portSaTxAn c) s = .next (fin c stNOT_FOUND [] u)) ∧
  (∀ (c : Cmd) (p : Nat) (s u : State), p = opf c 4 9 0 → Runs c 0x401 .manager [(!isFabric s p, stBAD_OPERAND), (portOut s p, stFENCED_UNIT)] s → u = noteCmd c s →
    (adjOf u p).state ≠ 4 → exec (.fabAdmit c) s = .next (fin c stNOT_FOUND [] u)) ∧
  (∀ (c : Cmd) (p : Nat) (s u : State), p = opf c 4 9 0 → Runs c 0x402 .manager [(512 ≤ p, stBAD_OPERAND), (portOut s p, stFENCED_UNIT)] s → u = noteCmd c s →
    (adjOf u p).admitted = none → exec (.fabEvict c) s = .next (fin c stNOT_FOUND [] u))

/-- The RING and SLC commands complete with the rings, bindings and slices they act on (R6, R334, R366, R368, R376, R377, R378, 17_host.md, 15_commands.md). The model's own choices in it: log 27, 60, 64. -/
def Obligations.RingAndSliceCommandsComplete : Prop :=
  (∀ (c : Cmd) (e : Nat) (s u : State), Runs c 0x301 .adminRing
      [(crtBad c s, stBAD_OPERAND), (opb c 4 23 && c.req ≠ mgr, stNO_PERMISSION), ((crtHome c s).isNone, stFENCED_UNIT)] s →
    u = noteCmd c s → ringExists u c.req (crtRing c) = false → crtHome c u = some e → exec (.ringCrt c) s =
      .next (fin c stOK [] (setRing c.req (crtRing c) (fun _ => crtNew c e) (takeFlags c u)))) ∧
  (∀ (c : Cmd) (s u : State), Runs c 0x301 .adminRing
      [(crtBad c s, stBAD_OPERAND), (opb c 4 23 && c.req ≠ mgr, stNO_PERMISSION), ((crtHome c s).isNone, stFENCED_UNIT)] s →
    u = noteCmd c s → ringExists u c.req (crtRing c) = true → exec (.ringCrt c) s = .next (fin c stEXISTS [] u)) ∧
  (∀ (c : Cmd) (r : Nat) (s u : State), r = crtRing c → Runs c 0x302 .adminRing [(r = 0, stBAD_OPERAND)] s → u = noteCmd c s →
    ringExists u c.req r = true → ringIdle (ringSt (disableRing c.req r u) c.req r) = true → exec (.ringDst c) s =
      .next (fin c stOK [] (destroyRing c.req r (disableRing c.req r u)))) ∧
  (∀ (c : Cmd) (sl p : Nat) (s u : State), sl = opf c 4 3 0 → p = opf c 5 19 0 →
    Runs c 0x303 .manager [(!sliceOn s sl || p = 0, stBAD_OPERAND)] s → u = noteCmd c s → boundPasid u sl = none →
    (List.range 16).any (fun x => boundPasid u x = some p) = false → exec (.ringBind c) s =
      .next (fin c stOK [] (rput .hifBind 0 sl (pack [(31, 31, 1), (19, 0, p)]) u))) ∧
  (∀ (c : Cmd) (sl : Nat) (s u : State), sl = opf c 4 3 0 → Runs c 0x304 .manager [(!sliceOn s sl, stBAD_OPERAND)] s → u = noteCmd c s →
    u.hif.slcWait.contains (sl, c) = false → exec (.ringUnbind c) s = .next (
      let v := commandWaits c (sliceResetStart sl u)
      { v with hif := { v.hif with slcWait := v.hif.slcWait ++ [(sl, c)] } })) ∧
  (∀ (c : Cmd) (sl : Nat) (s u : State), sl = opf c 4 3 0 → Runs c 0x341 .manager [(!sliceOn s sl, stBAD_OPERAND)] s → u = noteCmd c s →
    u.hif.slcWait.contains (sl, c) = false → exec (.slcRst c) s = .next (
      let v := commandWaits c (sliceResetStart sl u)
      { v with hif := { v.hif with slcWait := v.hif.slcWait ++ [(sl, c)] } })) ∧
  (∀ (c : Cmd) (sl n : Nat) (s u : State), sl = (if c.req = mgr then opf c 4 3 0 else c.req) → n = nSlices u →
    Runs c 0x342 .any [(!sliceOn s sl, stBAD_OPERAND)] s → u = noteCmd c s → exec (.slcInfo c) s =
      .next (fin c stOK [(4, setFld (opw c 4) 3 0 sl), (5, word (2097152 / n)), (6, word (1572864 / n)), (7, word (1048576 / n)),
        (8, word (262144 / n)), (9, word (4096 / n)), (10, rget u .bufSliceLimit (homeTile u c) 0)] u)) ∧
  (∀ (c : Cmd) (r : Nat) (s u : State), r = crtRing c → Runs c 0x302 .adminRing [(r = 0, stBAD_OPERAND)] s → u = noteCmd c s →
    ringExists u c.req r = false → exec (.ringDst c) s = .next (fin c stNOT_FOUND [] u)) ∧
  (∀ (c : Cmd) (r : Nat) (s u : State), r = crtRing c → Runs c 0x302 .adminRing [(r = 0, stBAD_OPERAND)] s → u = noteCmd c s →
    ringExists u c.req r = true → ringIdle (ringSt (disableRing c.req r u) c.req r) = false → exec (.ringDst c) s = .next (commandWaits c (disableRing c.req r u))) ∧
  (∀ (c : Cmd) (sl p : Nat) (s u : State), sl = opf c 4 3 0 → p = opf c 5 19 0 → Runs c 0x303 .manager [(!sliceOn s sl || p = 0, stBAD_OPERAND)] s → u = noteCmd c s →
    ((boundPasid u sl).isSome || (List.range 16).any (fun x => boundPasid u x = some p)) = true → exec (.ringBind c) s = .next (fin c stEXISTS [] u))

/-- The IMG and SYS commands complete with the slots, options and resets they act on (R76, R79, R83, R321, R323, R324, R325, R328, R335, R339, 14_images.md, 15_commands.md). The model's own choices in it: log 11, 27, 28, 29, 61, 68, 90, 91. -/
def Obligations.ImageAndSystemCommandsComplete : Prop :=
  (∀ (c : Cmd) (img : Option Image) (bs : List Byte) (s u : State), Runs c 0x381 .manager
      [((opw c 6).toNat < minImage || slotSize < (opw c 6).toNat, stBAD_OPERAND), (commitPending s, stLOCK_BUSY)] s → u = noteCmd c s →
    c.cut = none → c.data = some bs → exec (.imgStage c img) s = .next (stageImage c (img.getD {}) (eraseIdle u))) ∧
  (∀ (c : Cmd) (i : Image) (s u : State), Runs c 0x382 .manager
      [(!timeOk (opTime c 4) || (opTime c 4).toNs % 16000 ≠ 0, stBAD_OPERAND), (commitPending s || gatePending s, stLOCK_BUSY),
       (timePassed s (opTime c 4), stTIME_PASSED)] s → u = noteCmd c s →
    stagedImage u = some i → i.bootDigest = (img u).bootDigest → exec (.imgCommit c false) s = .next (schedule c i u)) ∧
  (∀ (c : Cmd) (s u : State), Runs c 0x383 .manager [] s → u = noteCmd c s → commitPending u = true → inThisCycle u = false →
    exec (.imgCancel c) s = .next (fin c stOK [] (dropCommit u))) ∧
  (∀ (c : Cmd) (s u : State), Runs c 0x384 .manager [(commitPending s, stLOCK_BUSY)] s → u = noteCmd c s → exec (.imgDiscard c) s =
    .next (fin c stOK [] (setStaged false (imgBit (idleSlot u).toNat false (putImg (idleSlot u) ((imgIn u (idleSlot u)).map noMagic) u))))) ∧
  (∀ (c : Cmd) (r : Nat) (s u : State), Runs c 0x385 .manager [] s → u = noteCmd c s → c.wrOk = true →
    r = slotReason u (imgIn u (opb c 4 0)) → exec (.imgInfo c) s = .next (
      fin c stOK [(2, pack [(0, 0, (decide (r = 0)).toNat), (15, 8, r)])]
        (emitHost (.hostWrite c.req (opAddr c 6) (slotHeader (imgIn u (opb c 4 0)))) u))) ∧
  (∀ (c : Cmd) (bs : List Byte) (cert : Option (Option Nat)) (s u : State), Runs c 0x386 .manager [] s → u = noteCmd c s →
    c.data = some bs → cert.any (certOk u) = true → exec (.imgKey c cert) s =
      .next (fin c stOK [] (checkKey { u with nvm := { u.nvm with imgKey := cert } }))) ∧
  (∀ (c : Cmd) (s u : State), Runs c 0x441 .any [] s → u = noteCmd c s → exec (.sysNop c) s = .next (fin c stOK [] u)) ∧
  (∀ (c : Cmd) (s u : State), Runs c 0x442 .any [(opb c 4 0 && c.req ≠ mgr, stNO_PERMISSION)] s → u = noteCmd c s →
    fenceClear c u = true → exec (.sysFence c) s = .next (fin c stOK [] u)) ∧
  (∀ (c : Cmd) (s u : State), Runs c 0x442 .any [(opb c 4 0 && c.req ≠ mgr, stNO_PERMISSION)] s → u = noteCmd c s →
    fenceClear c u = false → exec (.sysFence c) s = .next (commandWaits c u)) ∧
  (∀ (c : Cmd) (s u : State), Runs c 0x443 .manager [(stage s = 0x80 && 2 ≤ opf c 4 2 0, stFENCED_UNIT),
      (!targetOk s (opf c 4 2 0) (opf c 5 9 0), stBAD_OPERAND)] s → u = noteCmd c s → opf c 4 2 0 ≤ 1 →
    exec (.sysReset c) s = .next (leadReset 8 (opf c 4 2 0 = 0) (fin c stOK [] u))) ∧
  (∀ (c : Cmd) (s u : State), Runs c 0x443 .manager [(stage s = 0x80 && 2 ≤ opf c 4 2 0, stFENCED_UNIT),
      (!targetOk s (opf c 4 2 0) (opf c 5 9 0), stBAD_OPERAND)] s → u = noteCmd c s → opf c 4 2 0 = 2 ∨ opf c 4 2 0 = 4 →
    exec (.sysReset c) s = .next (finUnless c (ringSt u c.req c.ring).cons (scopeReset (opf c 4 2 0) (opf c 5 9 0) u))) ∧
  (∀ (c : Cmd) (bs : List Byte) (s u : State), Runs c 0x444 .manager [] s → u = noteCmd c s → c.data = some bs → optOk bs = true →
    exec (.sysOptWr c) s = .next (takeOptions c c.cut bs u)) ∧
  (∀ (c : Cmd) (s u : State), Runs c 0x445 .manager [] s → u = noteCmd c s → c.wrOk = true → exec (.sysOptRd c) s =
    .next (fin c stOK [] (emitHost (.hostWrite c.req (opAddr c 6) (optCopy u.nvm (opf c 4 0 0))) u))) ∧
  (∀ (c : Cmd) (fw : FwImage) (p : PatchBlock) (s u : State), c.cut = none → opb c 4 0 = false →
    Runs c 0x446 .manager [(8388608 < (opw c 8).toNat, stBAD_OPERAND)] s → u = noteCmd c s →
    exec (.sysFwStage c fw p) s = .next (stageFw c fw u)) ∧
  (∀ (c : Cmd) (fw : FwImage) (p : PatchBlock) (s u : State), c.cut = none → opb c 4 0 = true →
    Runs c 0x446 .manager [(stage s = 0x80, stFENCED_UNIT), (65536 < (opw c 8).toNat, stBAD_OPERAND)] s → u = noteCmd c s →
    exec (.sysFwStage c fw p) s = .next (stagePatch c p u)) ∧
  (∀ (c : Cmd) (s u : State), Runs c 0x443 .manager [(stage s = 0x80 && 2 ≤ opf c 4 2 0, stFENCED_UNIT),
      (!targetOk s (opf c 4 2 0) (opf c 5 9 0), stBAD_OPERAND)] s → u = noteCmd c s →
    opf c 4 2 0 = 3 → exec (.sysReset c) s = .next (resetAndWait c (opf c 5 9 0) u)) ∧
  (∀ (c : Cmd) (s u : State), Runs c 0x443 .manager [(stage s = 0x80 && 2 ≤ opf c 4 2 0, stFENCED_UNIT),
      (!targetOk s (opf c 4 2 0) (opf c 5 9 0), stBAD_OPERAND)] s → u = noteCmd c s →
    opf c 4 2 0 = 5 → (unitReleased u (opf c 5 9 0 / 2) && (engine u (opf c 5 9 0)).cmd.isSome) = false → exec (.sysReset c) s = .next (finUnless c (ringSt u c.req c.ring).cons (scopeReset 5 (opf c 5 9 0) u))) ∧
  (∀ (c : Cmd) (s u : State), Runs c 0x443 .manager [(stage s = 0x80 && 2 ≤ opf c 4 2 0, stFENCED_UNIT),
      (!targetOk s (opf c 4 2 0) (opf c 5 9 0), stBAD_OPERAND)] s → u = noteCmd c s →
    opf c 4 2 0 = 5 → (unitReleased u (opf c 5 9 0 / 2) && (engine u (opf c 5 9 0)).cmd.isSome) = true → exec (.sysReset c) s = .next (commandWaits c (setEngine (opf c 5 9 0) (fun g => { g with resetReq := true }) u))) ∧
  (∀ (c : Cmd) (late : Bool) (s u : State), Runs c 0x382 .manager [(!timeOk (opTime c 4) || (opTime c 4).toNs % 16000 ≠ 0, stBAD_OPERAND), (commitPending s || gatePending s, stLOCK_BUSY),
       (timePassed s (opTime c 4), stTIME_PASSED)] s → u = noteCmd c s →
    stagedImage u = none → exec (.imgCommit c late) s = .next (fin c stNOT_FOUND [] u)) ∧
  (∀ (c : Cmd) (bs : List Byte) (cert : Option (Option Nat)) (s u : State), Runs c 0x386 .manager [] s → u = noteCmd c s →
    c.data = some bs → cert.any (certOk u) = false → exec (.imgKey c cert) s = .next (fin c stAUTH_FAIL [] u))

/-- The SEC commands complete once their message runs, and wait for the lock before (R392, R393, R394, R397, R334, 18_security.md, 15_commands.md). The model's own choices in it: log 11, 27, 58, 104, 121. -/
def Obligations.SecurityCommandsComplete : Prop :=
  (∀ (c : Cmd) (bs : List Byte) (s u : State), Runs c 0x3C1 .manager
      [(opf c 4 5 0 = 0 || ((opw c 5).toNat ≠ 24 && (opw c 5).toNat ≠ 40) || !kekSlot s (opf c 4 13 8), stBAD_OPERAND),
       (secAlarmed s, stFENCED_UNIT)] s → u = secClaim (secId c.req) (noteCmd c s) → u.sec.running = some { holder := secId c.req } →
    (secSlot u (opf c 4 13 8)).valid = true → c.data = some bs → exec (.secKeyLd c) s = .next (messageEnd (
      match aesUnwrap (secSlot u (opf c 4 13 8)).key (bs.take (opw c 5).toNat) with
      | some k =>
        let v := rset .secStat 0 0 11 8 0 u
        fin c stOK [] { v with sec := { v.sec with slots := tput v.sec.slots (opf c 4 5 0) { valid := true, key := k } } }
      | none => authFail c u))) ∧
  (∀ (c : Cmd) (s u : State), Runs c 0x3C2 .manager [(opf c 4 5 0 = 0, stBAD_OPERAND), (secAlarmed s, stFENCED_UNIT)] s →
    u = secClaim (secId c.req) (noteCmd c s) → u.sec.running = some { holder := secId c.req } →
    (secSlot u (opf c 4 5 0)).valid = true → exec (.secKeyClr c) s = .next (
      messageEnd (fin c stOK [] { u with sec := { u.sec with slots := tput u.sec.slots (opf c 4 5 0) {} } }))) ∧
  (∀ (c : Cmd) (s u : State), Runs c 0x3C2 .manager [(opf c 4 5 0 = 0, stBAD_OPERAND), (secAlarmed s, stFENCED_UNIT)] s →
    u = secClaim (secId c.req) (noteCmd c s) → u.sec.running ≠ some { holder := secId c.req } →
    exec (.secKeyClr c) s = .next (commandWaits c u)) ∧
  (∀ (c : Cmd) (bs : List Byte) (s u : State), Runs c 0x3C3 .any
      [(65536 < (opw c 5).toNat, stBAD_OPERAND), (!mayUse s c.req (opf c 4 5 0), stNO_PERMISSION), (secAlarmed s, stFENCED_UNIT)] s →
    u = secClaim (secId c.req) (noteCmd c s) → u.sec.running = some { holder := secId c.req } →
    (secSlot u (opf c 4 5 0)).valid = true → c.data = some bs → exec (.secCmac c) s = .next (
      let t := wordsOf 4 (aesCmac (secSlot u (opf c 4 5 0)).key (bs.take (opw c 5).toNat))
      messageEnd (fin c stOK ((List.range 4).map fun i => (8 + i, t.getD i 0)) u))) ∧
  (∀ (c : Cmd) (bs : List Byte) (s u : State), Runs c 0x3C4 .any
      [((opw c 5).toNat = 0 || 65536 < (opw c 5).toNat || (opw c 5).toNat % 16 ≠ 0 || opf c 4 9 8 = 3, stBAD_OPERAND),
       (!mayUse s c.req (opf c 4 5 0), stNO_PERMISSION), (secAlarmed s, stFENCED_UNIT)] s →
    u = secClaim (secId c.req) (noteCmd c s) → u.sec.running = some { holder := secId c.req } →
    (secSlot u (opf c 4 5 0)).valid = true → c.data = some bs → c.wrOk = true → exec (.secCrypt c) s = .next (
      let iv := bytesOf ((List.range 4).map fun i => opw c (10 + i))
      messageEnd (fin c stOK [] (emitHost (.hostWrite c.req (opAddr c 8)
        (aesCrypt (opf c 4 9 8) (opb c 4 10) (secSlot u (opf c 4 5 0)).key iv (bs.take (opw c 5).toNat))) u))))

/-- A step runs the command at the front of the queue, and always answers a next state (15_commands.md). The model's own choices in it: log 25. -/
def Obligations.StepRunsFrontCommand : Prop :=
  (∀ (c : Instr) (rest : List Instr) (s : State), step { s with pending := c :: rest } = exec c { s with pending := rest }) ∧
  (∀ (c : Instr) (s : State), ∃ t, exec c s = .next t)

/-- With an empty queue a step is one oscillator nanosecond, or nothing (log 5) (R111, R113, 04_ports_time.md). -/
def Obligations.EmptyQueueRunsOscillator : Prop :=
  (∀ s : State, s.pending = [] → timeRuns s = false → step s = .next s) ∧
  (∀ s : State, s.pending = [] → timeRuns s = true → ∃ t, step s = .next t ∧ t.tim.frc = s.tim.frc + 1 ∧ t.pending = []) ∧
  (∀ s : State, s.pending = [] → timeRuns s = true → s.tim.slewLeft = 0 → freqAdj s = 0 → 0 ≤ s.tim.acc → s.tim.acc < nsUnits →
    ∃ t, step s = .next t ∧ t.tim.now = Time80.ofNs (min maxNs (nowNs s + 1)) ∧ t.tim.acc = s.tim.acc ∧ t.tim.slewLeft = 0)

/-- No command touches the waiting commands, the serial number or PLT_IDENT (R4, 00_scope.md). -/
def Obligations.EveryCommandKeepsQueueAndIdentity : Prop :=
  (∀ (c : Instr) (s t : State), exec c s = .next t → t.pending = s.pending ∧ t.serial = s.serial ∧ t.ident = s.ident)

/-- Every step keeps packet memory, register file, rings and buffers canonical (R13, R70, R370, R435, 21_registers.md). -/
def Obligations.EveryStepKeepsStoresCanonical : Prop :=
  (∀ s t : State, s.Canonical → step s = .next t → t.Canonical)

/-- Module time never leaves its format and never wraps (R14, R113, 04_ports_time.md, 00_scope.md). -/
def Obligations.EveryStepKeepsTimeLegal : Prop :=
  (∀ s t : State, s.TimeLegal → step s = .next t → t.TimeLegal)

/-- The fault FIFO never exceeds 64 records (R402, 19_faults_power.md). -/
def Obligations.EveryStepKeepsFifoBounded : Prop :=
  (∀ s t : State, s.FifoBounded → step s = .next t → t.FifoBounded)

/-- The reset state: invariants hold, nothing waits, registers at the spec's reset values (R14, R67, R111, R402, R435, 03_startup.md, 21_registers.md). The model's own choices in it: log 1, 2, 3. -/
def Obligations.ResetStateIsSound : Prop :=
  State.reset.Canonical ∧ State.reset.TimeLegal ∧ State.reset.FifoBounded ∧ State.reset.pending = [] ∧ State.reset.out = [] ∧
  stage State.reset = 0 ∧ regRead State.reset .pltRstCause 0 0 = 1 ∧ nowNs State.reset = 0 ∧ State.reset.tim.frc = 0 ∧
  timeRuns State.reset = false ∧
  regRead State.reset .pltPaceTarget 0 0 = 0x8000003C ∧ regRead State.reset .pltThermCfg 0 0 = 0x70 ∧
  regRead State.reset .pltGov 0 0 = 0xC00001F4 ∧ regRead State.reset .timStepLimit 0 0 = 1000 ∧
  regRead State.reset .cfbTimers 0 0 = 0x643001 ∧ regRead State.reset .tcmThrottle 3 0 = 0x676460 ∧
  regRead State.reset .schCfg 7 0 = 0x64002100 ∧ regRead State.reset .bufSpill 0 0 = 0x20

/-- Every register's BAR0 offset decodes to that register, and nothing else does (R435, R438, R439, R440, 21_registers.md). -/
def Obligations.RegisterOffsetsDecode : Prop :=
  (∀ (r : Reg) (t i : Nat), t < 8 → i < regCount r →
    decodeBar0 (regOff r t i) = some (r, if (regRow r).tile && r ≠ .exmJrnlStat then t else 0, i)) ∧
  (∀ (off t i : Nat) (r : Reg), decodeBar0 off = some (r, t, i) → regMirror r = false →
    regOff r t i = off - off % 4 ∧ t < 8 ∧ i < regCount r) ∧
  (∀ (t off : Nat), t < 8 → off ≤ 0x10 → decodeBar0 (0x1000000 + t * 0x100000 + 0xC0000 + off) = decodeBar0 (0x70000 + off)) ∧
  (∀ off : Nat, 0x1800000 ≤ off - off % 4 → decodeBar0 off = none)

/-- A register write follows the field types bit by bit and changes no other register (R9, R436, R437, 21_registers.md). -/
def Obligations.FieldTypesOfAWrite : Prop :=
  (∀ (r : Reg) (old val : Word) (b : Nat), b < 32 → (typedWrite (regRow r) old val).getLsbD b = bitWritten (regRow r) old val b) ∧
  (∀ (r q : Reg) (t i u j : Nat) (val : Word) (s : State), s.Canonical →
    rget (plainWrite r t i val s) r t i = typedWrite (regRow r) (rget s r t i) val ∧
    (regOff q u j ≠ regOff r t i → rget (plainWrite r t i val s) q u j = rget s q u j))

/-- What a request with a slice's PASID may reach (R365, R438, R442, 17_host.md). The model's own choices in it: log 64. -/
def Obligations.SliceAccessRules : Prop :=
  (∀ (a : Access) (s : State), hifUp s = true → inBar a = true → pasidRejected s a = true →
    exec (.unmappedRead a) s = .next (emit (.readData 0xFFFFFFFF) (rset .hifStat 0 0 31 31 1 (ringCnt 17 0 0 1 s))) ∧
    exec (.registerWrite a) s = .next (rset .hifStat 0 0 31 31 1 (ringCnt 17 0 0 1 s))) ∧
  (∀ (a : Access) (p sl : Nat) (s : State), a.pasid = some p → (List.range 16).find? (fun x => boundPasid s x = some p) = some sl →
    (pasidRejected s a = true ↔ a.bar ≠ 0 ∧ ¬(a.bar = 2 ∧ a.off / 65536 = sl))) ∧
  (∀ (a : Access) (p : Nat) (s : State), a.pasid = some p → (∀ x < 16, boundPasid s x ≠ some p) → pasidRejected s a = true) ∧
  (∀ (a : Access) (t i : Nat) (r : Reg) (s : State), hifUp s = true → a.bar = 0 → a.off < 0x4000000 → pasidRejected s a = false →
    a.pasid.isSome = true → decodeBar0 a.off = some (r, t, i) → (regRow r).sliceVisible = false →
    exec (.unmappedRead a) s = .next (emit (.readData 0) s)) ∧
  (∀ (a : Access) (t i : Nat) (r : Reg) (s : State), hifUp s = true → a.bar = 0 → a.off < 0x4000000 → pasidRejected s a = false →
    a.pasid.isSome = true → decodeBar0 a.off = some (r, t, i) → a.be = 15 → exec (.registerWrite a) s = .next s)

/-- Ring indices: wrap bit, emptiness, fullness and occupancy (R370, 17_host.md). -/
def Obligations.RingIndexArithmetic : Prop :=
  (∀ k i : Nat, 6 ≤ k → k ≤ 16 → RingIndex k i →
    RingIndex k (idxNext k i) ∧ lin k (idxNext k i) = (lin k i + 1) % 2 ^ (k + 1) ∧ lin k i = i / 65536 * 2 ^ k + i % 65536 ∧
    ((idxNext k i) / 65536 ≠ i / 65536 ↔ i % 65536 = 2 ^ k - 1) ∧
    (i % 65536 = 2 ^ k - 1 → idxNext k i % 65536 = 0)) ∧
  (∀ k p c : Nat, 6 ≤ k → k ≤ 16 → RingIndex k p → RingIndex k c →
    (occupancy k p c : Int) = ((lin k p : Int) - (lin k c : Int)) % 2 ^ (k + 1) ∧
    (occupancy k p c = 0 ↔ p = c) ∧
    (occupancy k p c = 2 ^ k ↔ p % 65536 = c % 65536 ∧ p / 65536 ≠ c / 65536)) ∧
  (∀ (c : Cmd) (s : State), crtBad c s = false → 6 ≤ opf c 4 16 12 ∧ opf c 4 16 12 ≤ 16 ∧ opAddr c 6 % 4096 = 0)

/-- A doorbell moves its ring's index, or is ignored with DB_ERR (R371, R374, 17_host.md). -/
def Obligations.DoorbellRule : Prop :=
  (∀ (q r idx : Nat) (s : State), s.Canonical → hifUp s = true → ringExists s q r = true → (ringSt s q r).resetting = false →
    (ringSt s q r).kind ≤ 2 → idx < 131072 → ∃ t, exec (.ringDoorbell q r idx) s = .next t ∧ (ringSt t q r).cons = (ringSt s q r).cons ∧
      (ringSt t q r).fetched = (ringSt s q r).fetched ∧
      (let g := ringSt s q r
       if idx % 65536 < 2 ^ g.log2 ∧ occupancy g.log2 idx g.cons ≤ 2 ^ g.log2 ∧
           occupancy g.log2 g.prod g.cons ≤ occupancy g.log2 idx g.cons then
         (ringSt t q r).prod = idx ∧ (ringSt t q r).dbErr = g.dbErr ∧ t.out = s.out
       else (ringSt t q r).prod = g.prod ∧ (ringSt t q r).dbErr = true)) ∧
  (∀ (q r idx : Nat) (s : State), hifUp s = true → ringExists s q r = true → (ringSt s q r).resetting = false →
    3 ≤ (ringSt s q r).kind → idx < 131072 → idx % 65536 < 2 ^ (ringSt s q r).log2 → idx ≠ (ringSt s q r).cons →
    occupancy (ringSt s q r).log2 (ringSt s q r).prod idx ≤ occupancy (ringSt s q r).log2 (ringSt s q r).prod (ringSt s q r).cons →
    exec (.ringDoorbell q r idx) s = .next (
      let t := pumpRing q r (writeSummary q r (setRing q r (fun g => { g with cons := idx }) s))
      if q = mgr then postTod 8 t else t)) ∧
  (∀ (q r idx : Nat) (s : State), s.Canonical → hifUp s = true → ringExists s q r = true → (ringSt s q r).resetting = false →
    3 ≤ (ringSt s q r).kind → idx < 131072 →
    2 ^ (ringSt s q r).log2 ≤ idx % 65536 ∨
      occupancy (ringSt s q r).log2 (ringSt s q r).prod (ringSt s q r).cons < occupancy (ringSt s q r).log2 (ringSt s q r).prod idx →
    ∃ t, exec (.ringDoorbell q r idx) s = .next t ∧ (ringSt t q r).cons = (ringSt s q r).cons ∧ (ringSt t q r).dbErr = true)

/-- A completion stands in place with PHASE 0, and the consumer index moves on (R331, R338, R370, R371, 15_commands.md, 17_host.md). The model's own choices in it: log 27, 36. -/
def Obligations.CompletionInPlace : Prop :=
  (∀ (q r st : Nat) (desc : List Word) (ret : List (Nat × Word)) (s t : State), s.Canonical → (ringSt s q r).kind = 0 →
    t = completeWith q r desc st ret s →
    (ringSt t q r).cons = idxNext (ringSt s q r).log2 (ringSt s q r).cons ∧ (ringSt t q r).iter = none ∧
    (ringSt t q r).busy = none ∧ (ringSt t q r).prod = (ringSt s q r).prod ∧
    t.regs = s.regs ∧ t.mem = s.mem ∧ t.tim = s.tim ∧ t.flt = s.flt ∧ t.exm = s.exm ∧ t.lpm = s.lpm ∧ t.tcm = s.tcm ∧
    t.act = s.act ∧ t.sch = s.sch ∧ t.fab = s.fab ∧ t.ports = s.ports ∧ t.img = s.img ∧ t.nvm = s.nvm ∧ t.sec = s.sec ∧
    (linkUp s = true → ∃ w, .completion q r (ringSt s q r).cons w ∈ t.out ∧ w.length = 16 ∧
      bit (w.getD 0 0) 31 = false ∧ fld (w.getD 0 0) 15 8 = st % 256 ∧
      ∀ k, 0 < k → w.getD k 0 = (withWords desc ret).getD k 0))

/-- The first failed check completes a command with its status and changes nothing (R332, R333, R336, R342, 15_commands.md). The model's own choices in it: log 27. -/
def Obligations.FailedChecksChangeNothing : Prop :=
  (∀ (c : Cmd) (s : State), serving c 0x441 s = none → exec (.sysNop c) s = .next s) ∧
  (∀ (c : Cmd) (st : Nat) (s : State), serving c 0x283 s = some (some st) → exec (.memAlloc c) s = .next (fin c st [] s)) ∧
  (∀ (c : Cmd) (s : State), serving c 0x2C1 s = some none → c.req ≠ mgr → exec (.portMode c) s = .next (fin c stNO_PERMISSION [] s)) ∧
  (∀ (c : Cmd) (s : State), serving c 0x301 s = some none → c.ring ≠ 0 → exec (.ringCrt c) s = .next (fin c stNO_PERMISSION [] s)) ∧
  (∀ (c : Cmd) (late : Bool) (s : State), serving c 0x382 s = some none → c.req ≠ mgr →
    exec (.imgCommit c late) s = .next (fin c stNO_PERMISSION [] s)) ∧
  (∀ (c : Cmd) (s : State), serving c 0x401 s = some none → c.req ≠ mgr → exec (.fabAdmit c) s = .next (fin c stNO_PERMISSION [] s)) ∧
  (∀ (c : Cmd) (s : State), serving c 0x202 s = some none → c.req ≠ mgr → exec (.calRd c) s = .next (fin c stNO_PERMISSION [] s)) ∧
  (∀ (c : Cmd) (st : Nat) (s : State), serving c 0x42 s = some none →
    firstFail (tblChecks c s (!opb c 5 31 && 528 ≤ opf c 5 17 0)) = some st → exec (.tblIns c) s = .next (fin c st [] s)) ∧
  (∀ (c : Cmd) (st : Nat) (s : State), serving c 0x81 s = some none → firstFail (lpmChecks c s true (some (lpmLen c))) = some st →
    exec (.lpmIns c) s = .next (fin c st [] s)) ∧
  (∀ (c : Cmd) (st : Nat) (s : State), serving c 0xC1 s = some none → firstFail (tcmChecks c s false) = some st →
    exec (.tcmWr c) s = .next (fin c st [] s)) ∧
  (∀ (c : Cmd) (st : Nat) (s : State), serving c 0x101 s = some none →
    firstFail (partChecks c s false 262144 (opf c 4 17 0)) = some st → exec (.actNhWr c) s = .next (fin c st [] s)) ∧
  (∀ (c : Cmd) (st : Nat) (s : State), serving c 0x141 s = some none →
    firstFail (nodeChecks c s (schLevel c) (schNum c) (schLevel c = 0 || opf c 6 15 8 = 0)) = some st →
    exec (.schNode c) s = .next (fin c st [] s)) ∧
  (∀ (c : Cmd) (st : Nat) (s : State), serving c 0x181 s = some none →
    firstFail (partChecks c s (polBad (opPol c)) 262144 (opf c 4 17 0)) = some st → exec (.polSet c) s = .next (fin c st [] s)) ∧
  (∀ (c : Cmd) (st : Nat) (s : State), serving c 0x1C3 s = some none → firstFail (gateChecks c s (gcBad c 256) ++
      [gateBusy s (gateOf s (opf c 4 9 0)), (timePassed s (opTime c 10), stTIME_PASSED)]) = some st →
    exec (.gateCommit c) s = .next (fin c st [] s)) ∧
  (∀ (c : Cmd) (st : Nat) (s : State), serving c 0x242 s = some none → firstFail (cntRdChecks c s) = some st →
    exec (.cntRd c) s = .next (fin c st [] s)) ∧
  (∀ (c : Cmd) (s : State), serving c 0x283 s = some none → tileDown s (opf c 4 6 4) = true →
    exec (.memAlloc c) s = .next (fin c stFENCED_UNIT [] s)) ∧
  (∀ (c : Cmd) (s : State), serving c 0x3C3 s = some none → (opw c 5).toNat ≤ 65536 → mayUse s c.req (opf c 4 5 0) = false →
    exec (.secCmac c) s = .next (fin c stNO_PERMISSION [] s))

/-- What a slice may name in the TBL commands, and what its walks visit (R148, 06_exact_match.md). The model's own choices in it: log 102. -/
def Obligations.SliceTableRule : Prop :=
  (∀ (c : Cmd) (s : State), serving c 0x41 s = some none → c.req ≠ mgr →
    (!(exmProf s (tblN c)).en || !keyFits (exmProf s (tblN c)) (opKey c 8) || !sliceOn s (tblSl c)) = false →
    (exmProf s (tblN c)).shared = true ∨ tblSl c ≠ c.req → exec (.tblSrch c) s = .next (fin c stNO_PERMISSION [] s)) ∧
  (∀ (c : Cmd) (s : State), serving c 0x42 s = some none → c.req ≠ mgr →
    (!(exmProf s (tblN c)).en || !keyFits (exmProf s (tblN c)) (opKey c 8) || !sliceOn s (tblSl c)) = false →
    opb c 5 31 = true ∨ opf c 5 17 0 < 528 →
    (exmProf s (tblN c)).shared = true ∨ tblSl c ≠ c.req → exec (.tblIns c) s = .next (fin c stNO_PERMISSION [] s)) ∧
  (∀ (c : Cmd) (s : State), serving c 0x43 s = some none → c.req ≠ mgr →
    (!(exmProf s (tblN c)).en || !keyFits (exmProf s (tblN c)) (opKey c 8) || !sliceOn s (tblSl c)) = false →
    (exmProf s (tblN c)).shared = true ∨ tblSl c ≠ c.req → exec (.tblDel c) s = .next (fin c stNO_PERMISSION [] s)) ∧
  (∀ (c : Cmd) (s : State), serving c 0x47 s = some none → c.req ≠ mgr → exec (.tblCkpt c) s = .next (fin c stNO_PERMISSION [] s)) ∧
  (∀ (c : Cmd) (s : State), serving c 0x44 s = some none → c.req ≠ mgr → iterating c s = false → (exmProf s (tblN c)).en = true →
    tblCursorOk c true = true → (exmProf s (tblN c)).shared = true → exec (.tblNext c) s = .next (fin c stNO_PERMISSION [] s)) ∧
  (∀ (c : Cmd) (s : State), serving c 0x45 s = some none → c.req ≠ mgr → iterating c s = false → (exmProf s (tblN c)).en = true →
    tblCursorOk c false = true → opf c 5 9 0 < 528 → (exmProf s (tblN c)).shared = true → exec (.tblFlushp c) s = .next (fin c stNO_PERMISSION [] s)) ∧
  (∀ (c : Cmd) (raced : List Nat) (s : State), serving c 0x46 s = some none → c.req ≠ mgr → iterating c s = false → (exmProf s (tblN c)).en = true →
    tblCursorOk c false = true → opf c 5 14 0 ≠ 0 → (exmProf s (tblN c)).shared = true → exec (.tblAge c raced) s = .next (fin c stNO_PERMISSION [] s)) ∧
  (∀ (c : Cmd) (extra : Bool) (s : State), c.req = mgr →
    firstFail (tblChecks c s extra) ≠ some stNO_PERMISSION ∧ ∀ ways, firstFail (walkChecks c s ways extra) ≠ some stNO_PERMISSION) ∧
  (∀ (c : Cmd) (lo hi : Nat) (x : Nat × ExmEntry) (s : State), c.req ≠ mgr → x ∈ walkEntries c s lo hi → x.2.slice = c.req)

/-- The age tick is the free-running count over AGE_TICK, whatever is done to module time (R150). -/
def Obligations.TickCountIgnoresTimeChanges : Prop :=
  (∀ (p : ExmProf) (s : State), exmTick s p = s.tim.frc / (p.ageTick * 1000000) % 2 ^ 16) ∧
  (∀ (p : ExmProf) (s t : State), exec .timSet s = .next t → exmTick t p = exmTick s p) ∧
  (∀ (p : ExmProf) (s t : State), exec .timOffset s = .next t → exmTick t p = exmTick s p) ∧
  (∀ (p : ExmProf) (v : Word) (s t : State), exec (.timAdjWrite v) s = .next t → exmTick t p = exmTick s p) ∧
  (∀ (p : ExmProf) (s t : State), exec .slewEnd s = .next t → exmTick t p = exmTick s p) ∧
  (∀ (p : ExmProf) (k : Nat) (s t : State), exec (.scheduleRealign k) s = .next t → exmTick t p = exmTick s p)

/-- A buffer handle holds pool, tile and index in its fields (R13). -/
def Obligations.HandleLayout : Prop :=
  (∀ k t i : Nat, k < 4 → t < 8 → i < 2 ^ 27 →
    handleOf k t i < 2 ^ 32 ∧ handleOf k t i / 2 ^ 30 = k ∧ handleOf k t i / 2 ^ 27 % 8 = t ∧ handleOf k t i % 2 ^ 27 = i ∧
    handlePool (handleOf k t i) = k ∧ handleTile (handleOf k t i) = t) ∧
  (∀ h : Nat, h < 2 ^ 32 → handleOf (handlePool h) (handleTile h) (h % 2 ^ 27) = h) ∧
  (List.range 4).map poolSize = [256, 1024, 4096, 10240]

/-- The tiles of a stripe's positions under the 8-tile and 7-tile patterns (R215). -/
def Obligations.PatternPositions : Prop :=
  (∀ t : Nat, t < 8 → patTiles 8 t = (List.range 8).map fun k => (t + k) % 8) ∧
  (∀ f t : Nat, f < 8 → t < 8 → f ≠ t → patLen f = 7 ∧ patTiles f t = ((List.range 8).map fun j => (t + j) % 8).filter (· ≠ f)) ∧
  (∀ (n : Notice) (ssn k : Nat), n.pattern = 8 → k < 8 → (dataIndex n (ssn, k) = none ↔ k = 7)) ∧
  (∀ (n : Notice) (ssn k : Nat), n.pattern < 8 → k < 7 → (dataIndex n (ssn, k) = none ↔ k = 6)) ∧
  patTiles 5 3 = [3, 4, 6, 7, 0, 1, 2]

/-- A rule table yields the candidate of lowest PRIORITY, or MISS_ACT (R178). -/
def Obligations.LowestPriorityWins : Prop :=
  (∀ l : List Cand, bestCand l = none ↔ l = []) ∧
  (∀ (l : List Cand) (b : Cand), bestCand l = some b → b ∈ l ∧ ∀ x ∈ l,
    b.prio < x.prio ∨ b.prio = x.prio ∧ (b.slab < x.slab ∨ b.slab = x.slab ∧ b.row ≤ x.row)) ∧
  (∀ (f : Frame) (hv : List Hd) (md : BitVec 256) (err : List (Nat × Nat)) (s : State),
    (searchTables f hv md err s).2 = ((List.range 4).filter fun k => (ruleTable s f.pipe k).en).map fun k =>
      let rt := ruleTable s f.pipe k
      let key := buildKey hv f.bytes md rt.key
      let all := tableCands s f.pipe rt (frameOwned md && key.isSome) (frameOf md) err ((key.map (·.1)).getD 0)
      match bestCand (if key.isSome then all else all.filter fun c => c.fallback.isSome) with
      | none => rt.missAct
      | some c => c.act)

/-- The longest covering prefix: in a node, in a walk of the trie, and among the installed prefixes (R166, R167, R168, R169, R174, 07_trie_slabs.md). The model's own choices in it: log 109, 125. -/
def Obligations.LongestPrefixWins : Prop :=
  (∀ w v l a : Nat, nodeHit w v = some (l, a) → 1 ≤ l ∧ l ≤ 8 ∧ (intBmp w).testBit (2 ^ l - 2 + v / 2 ^ (8 - l)) = true ∧
    a = resBase w + popBelow (intBmp w) (2 ^ l - 2 + v / 2 ^ (8 - l)) ∧
    ∀ k, l < k → k ≤ 8 → (intBmp w).testBit (2 ^ k - 2 + v / 2 ^ (8 - k)) = false) ∧
  (∀ w v : Nat, nodeHit w v = none ↔ ∀ l, 1 ≤ l → l ≤ 8 → (intBmp w).testBit (2 ^ l - 2 + v / 2 ^ (8 - l)) = false) ∧
  (∀ w v : Nat, nodeKid w v = if (extBmp w).testBit v then some (childBase w + popBelow (extBmp w) v) else none) ∧
  (∀ (s : State) (bad : Nat → Nat → Bool) (r addr : Nat), (∀ m a, bad m a = false) → (walkTrie s bad r addr).2 = none) ∧
  (∀ (s : State) (bad : Nat → Nat → Bool) (r addr i : Nat), i = addr / 2 ^ (rootWidth s r - 16) % 65536 →
    bad 0 (r * 65536 + i) = true → walkTrie s bad r addr = ((tget s.trie.dflt r).map fun nh => (nh, 0), some (0, r * 65536 + i))) ∧
  (∀ (s : State) (bad : Nat → Nat → Bool) (r addr i : Nat), i = addr / 2 ^ (rootWidth s r - 16) % 65536 →
    bad 0 (r * 65536 + i) = false → slotHasChild (slotWord s r i) = false → walkTrie s bad r addr =
      (if directValid (slotWord s r i) then some (slotNh (slotWord s r i), slotExplen (slotWord s r i))
       else (tget s.trie.dflt r).map fun nh => (nh, 0), none)) ∧
  (∀ (s : State) (bad : Nat → Nat → Bool) (width addr n m ptr : Nat) (best : Option (Nat × Nat)), stagePos m < width →
    bad m ptr = true → walkNodes s bad width addr (n + 1) m ptr best = (best, some (m, ptr))) ∧
  (∀ (s : State) (bad : Nat → Nat → Bool) (width addr n m ptr l a : Nat) (best : Option (Nat × Nat)), stagePos m < width →
    bad m ptr = false → nodeHit (nodeWord s m ptr) (addr / 2 ^ (width - stagePos m - 8) % 256) = some (l, a) → bad 15 a = true →
    walkNodes s bad width addr (n + 1) m ptr best = (best, some (15, a))) ∧
  (∀ (s : State) (r lim : Nat) (addr : BitVec 128) (p : Pfx), lpmBest s r addr lim = some p →
    p ∈ s.lpm ∧ p.root = r ∧ p.len ≤ lim ∧ covers (rootWidth s r) p addr = true ∧
    ∀ q ∈ s.lpm, q.root = r → q.len ≤ lim → covers (rootWidth s r) q addr = true → q.len ≤ p.len) ∧
  (∀ (s : State) (r lim : Nat) (addr : BitVec 128), lpmBest s r addr lim = none ↔
    ∀ q ∈ s.lpm, q.root = r → q.len ≤ lim → covers (rootWidth s r) q addr = false) ∧
  (∀ (w : Nat) (p : Pfx) (addr : BitVec 128), p.len ≤ w →
    (covers w p addr = true ↔ ∀ b, w - p.len ≤ b → p.addr.getLsbD b = addr.getLsbD b))

/-- What a cold and a warm reset reset and keep (R4, R67, R70, R111, R275, R276, 03_startup.md, 11_dram.md). The model's own choices in it: log 13, 46. -/
def Obligations.ColdAndWarmResetKeep : Prop :=
  (∀ s t : State, s.Canonical → t = coldReset s →
    stage t = 0 ∧ t.exm = {} ∧ t.lpm = [] ∧ t.trie = {} ∧ t.tblBad = [] ∧ t.tcm = {} ∧ t.act = {} ∧ t.frames = [] ∧ t.fab = {} ∧
    t.mem = [] ∧ t.hif = {} ∧ t.tim = {} ∧ t.flt = { (default : Collector) with clkBad := s.flt.clkBad } ∧ t.sas = [] ∧ t.sec = {} ∧ t.dram = [] ∧ t.tel = {} ∧ t.ident = s.ident ∧ t.serial = s.serial ∧
    rget t .pltRstCause 0 0 = rget s .pltRstCause 0 0 ∧
    t.nvm = { s.nvm with dram := s.nvm.dram.filter fun x => !x.2.clearNext }) ∧
  (∀ s t : State, s.Canonical → t = warmReset s →
    stage t = 0 ∧ t.exm = {} ∧ t.lpm = [] ∧ t.trie = {} ∧ t.tblBad = [] ∧ t.tcm = {} ∧ t.act = {} ∧ t.frames = [] ∧ t.fab = {} ∧
    t.hif = {} ∧ t.sas = [] ∧ t.chans = [] ∧ t.sec = {} ∧ t.flt.clkBad = s.flt.clkBad ∧
    t.tim.now = s.tim.now ∧ t.tim.frc = s.tim.frc ∧ t.tim.acc = s.tim.acc ∧ t.tim.slewLeft = s.tim.slewLeft ∧ t.nvm = s.nvm ∧
    t.ident = s.ident ∧ t.serial = s.serial ∧ rget t .pltRstCause 0 0 = rget s .pltRstCause 0 0 ∧
    t.flt.fifo = (if s.flt.collectorReset then [] else s.flt.fifo) ∧
    (∀ a, a < bufAddr 0 0 → memByte t.mem a = memByte s.mem a) ∧ (∀ a, bufAddr 0 0 ≤ a → memByte t.mem a = 0))

/-- What the collector does with a record: append, lose, repeat, ignore (R401, R402, R403, 19_faults_power.md). The model's own choices in it: log 47, 87. -/
def Obligations.FaultFifoRule : Prop :=
  (∀ (r : FaultRec) (s : State), frozen s = false → s.flt.fifo.length < 64 →
    (appendRec r s).flt.fifo = s.flt.fifo ++ [{ r with seq := s.flt.seq, time := s.tim.now }] ∧
    (appendRec r s).flt.seq = (s.flt.seq + 1) % 65536) ∧
  (∀ (r : FaultRec) (s : State), frozen s = true ∨ 64 ≤ s.flt.fifo.length →
    (appendRec r s).flt.fifo = s.flt.fifo ∧ (appendRec r s).flt.seq = s.flt.seq) ∧
  (∀ (u code info addr : Nat) (s : State), codeClass code < 3 → inSafe s = false →
    (∀ t, unitTile u = some t → tileFenced s t = false ∧ (7 ≤ stage s → stage s ≤ 9 → tileReady s t = true)) →
    (unitSt s u).held = true → codeClass code ≤ (unitSt s u).cls → (u / 4096 = 2 ∨ u / 4096 = 3 → codeClass code = 0 ∨ isFenced s u = true) →
    report u code info addr s = setUnit u (fun x => { x with rep := true, repeats := min 255 (x.repeats + 1) }) s) ∧
  (∀ (u code info addr : Nat) (s : State), codeClass code = 1 → inSafe s = false → u / 4096 = 2 ∨ u / 4096 = 3 →
    (∀ t, unitTile u = some t → tileFenced s t = false ∧ (7 ≤ stage s → stage s ≤ 9 → tileReady s t = true)) →
    (unitSt s u).held = true → 1 ≤ (unitSt s u).cls → isFenced s u = false → report u code info addr s =
      fenceUnit u 0 (setUnit u (fun x => { x with rep := true, repeats := min 255 (x.repeats + 1) }) s)) ∧
  (∀ (u code info addr : Nat) (s : State), codeClass code < 3 → inSafe s = true →
    report u code info addr s = countLost (setUnit u (heldStatus code) s) ∧ (report u code info addr s).flt.fifo = s.flt.fifo) ∧
  (∀ s : State, hifUp s = true → exec .fltPop s = .next { s with flt := { s.flt with fifo := s.flt.fifo.drop 1 } })

/-- What asserts MOD_FAULT_N, MOD_SAFE_N and SAG_N (R50, R59, R405, R410, 02_module_power.md, 19_faults_power.md). The model's own choices in it: log 48, 86. -/
def Obligations.OpenDrainOutputs : Prop :=
  (∀ s : State, s.pwr.powered = true → (modFaultPin s = true ↔
    (∃ x ∈ s.flt.units, x.2.held = true ∧ (x.2.cls = 1 ∨ x.2.cls = 2)) ∨ inSafe s = true ∨ stage s = 0x80 ∨ stage s = 0x81 ∨
      stage s = 0x82)) ∧
  (∀ s : State, s.pwr.powered = true → (modSafePin s = true ↔ inSafe s = true) ∧ (sagPin s = true ↔ rfld s .pwrStat 0 0 3 3 = 1)) ∧
  (∀ s : State, s.pwr.powered = false → modFaultPin s = false ∧ modSafePin s = false ∧ sagPin s = false) ∧
  (∀ s : State, s.Canonical → s.pwr.powered = true → s.pwr.sagStep = 0 → stewardRuns s = true →
    ∃ t, exec .sagThresholdCrossing s = .next t ∧ sagPin t = true ∧ t.pwr.sagStep = 1)

/-- MEM.WR stores exactly its bytes; every other byte of packet memory stays (R253, R264, R334, 11_dram.md, 15_commands.md). The model's own choices in it: log 13, 57. -/
def Obligations.MemWrStoresItsBytes : Prop :=
  (∀ (c : Cmd) (s : State), s.Canonical → memWaits c s = false → c.dram = .clean ∨ memDram c = false →
    Runs c 0x282 .any (memChecks c s) s → ∃ t, exec (.memWr c) s = .next t ∧
    readMem t (memAt c) (memLen c) = (bytesOf ((List.range 8).map fun i => opw c (8 + i))).take (memLen c) ∧
    (∀ a, a < memAt c ∨ memAt c + memLen c ≤ a → memByte t.mem a = memByte s.mem a) ∧
    t.exm = s.exm ∧ t.lpm = s.lpm ∧ t.tcm = s.tcm ∧ t.act = s.act ∧ t.tim = s.tim ∧ t.flt = s.flt ∧ t.regs = s.regs) ∧
  (∀ (c : Cmd) (s : State), c.dram = .clean ∨ memDram c = false → Runs c 0x281 .any (memChecks c s) s →
    ∃ t, exec (.memRd c) s = .next t ∧ t.mem = s.mem)
end

