-- ==== Sys2Proof/Laws/Links.lean ====
section
/-! SUPPORT. What receiving a wire message can do: a good one acts as its kind says, a bad one only counts against its link. -/
namespace Sys2Proof.Machine

variable {src dst : Nat} {k : Msg → Bool} {w : Wire} {s u : State}

/-- A message received has the effect of its kind on the state without it. -/
theorem receiveOr_received (bad f : Msg → State → State) (h : Received src dst k w s u) :
    receiveOr src dst true k bad f s = f w.msg u := by
  obtain ⟨run, free, good, v, taken, rfl⟩ := h
  have go : (isControl w.msg && !ctlFree s src dst) = false := by
    cases hc : isControl w.msg with
    | false => rfl
    | true => rw [free hc]; rfl
  simp [receiveOr, taken, run, go, good]

theorem receive_received (f : Msg → State → State) (h : Received src dst k w s u) : receive src dst true k f s = f w.msg u :=
  receiveOr_received _ f h

/-- Without a message of the kind nothing happens. -/
theorem receiveOr_none (ok : Bool) (bad f : Msg → State → State) (h : takeWire src dst k s = none) :
    receiveOr src dst ok k bad f s = s := by
  simp [receiveOr, h]

/-- A message that reaches a tile out of service is lost. -/
theorem receiveOr_stopped {v : State} (ok : Bool) (bad f : Msg → State → State) (h : takeWire src dst k s = some (w, v))
    (stop : tileRunning s dst = false) : receiveOr src dst ok k bad f s = v := by
  simp [receiveOr, h, stop]

/-- A message other than a control message whose CRC fails counts against its link. -/
theorem receive_bad {v : State} (f : Msg → State → State) (h : takeWire src dst k s = some (w, v)) (run : tileRunning s dst = true)
    (c : isControl w.msg = false) : receive src dst false k f s = linkCrc src dst v := by
  simp [receive, receiveOr, h, run, c, crcGood, iff_]

end Sys2Proof.Machine
end

