-- ==== Sys2Proof/Laws/State.lean ====
section
/-! SUPPORT. One lemma for each field and each basic update, so that no proof unfolds a record update. -/
namespace Sys2Proof.Machine

variable (s : State)

@[simp] theorem emit_pending (o : Out) : (emit o s).pending = s.pending := rfl
@[simp] theorem emit_freeCtr (o : Out) : (emit o s).freeCtr = s.freeCtr := rfl
@[simp] theorem emit_serial (o : Out) : (emit o s).serial = s.serial := rfl
@[simp] theorem emit_ident (o : Out) : (emit o s).ident = s.ident := rfl
@[simp] theorem emit_regs (o : Out) : (emit o s).regs = s.regs := rfl
@[simp] theorem emit_pwr (o : Out) : (emit o s).pwr = s.pwr := rfl
@[simp] theorem emit_nvm (o : Out) : (emit o s).nvm = s.nvm := rfl
@[simp] theorem emit_opt (o : Out) : (emit o s).opt = s.opt := rfl
@[simp] theorem emit_tim (o : Out) : (emit o s).tim = s.tim := rfl
@[simp] theorem emit_img (o : Out) : (emit o s).img = s.img := rfl
@[simp] theorem emit_groups (o : Out) : (emit o s).groups = s.groups := rfl
@[simp] theorem emit_ports (o : Out) : (emit o s).ports = s.ports := rfl
@[simp] theorem emit_cages (o : Out) : (emit o s).cages = s.cages := rfl
@[simp] theorem emit_i2c (o : Out) : (emit o s).i2c = s.i2c := rfl
@[simp] theorem emit_sas (o : Out) : (emit o s).sas = s.sas := rfl
@[simp] theorem emit_chans (o : Out) : (emit o s).chans = s.chans := rfl
@[simp] theorem emit_exm (o : Out) : (emit o s).exm = s.exm := rfl
@[simp] theorem emit_lpm (o : Out) : (emit o s).lpm = s.lpm := rfl
@[simp] theorem emit_trie (o : Out) : (emit o s).trie = s.trie := rfl
@[simp] theorem emit_tblBad (o : Out) : (emit o s).tblBad = s.tblBad := rfl
@[simp] theorem emit_tcm (o : Out) : (emit o s).tcm = s.tcm := rfl
@[simp] theorem emit_act (o : Out) : (emit o s).act = s.act := rfl
@[simp] theorem emit_frames (o : Out) : (emit o s).frames = s.frames := rfl
@[simp] theorem emit_fab (o : Out) : (emit o s).fab = s.fab := rfl
@[simp] theorem emit_mem (o : Out) : (emit o s).mem = s.mem := rfl
@[simp] theorem emit_dram (o : Out) : (emit o s).dram = s.dram := rfl
@[simp] theorem emit_sch (o : Out) : (emit o s).sch = s.sch := rfl
@[simp] theorem emit_cfb (o : Out) : (emit o s).cfb = s.cfb := rfl
@[simp] theorem emit_engines (o : Out) : (emit o s).engines = s.engines := rfl
@[simp] theorem emit_patch (o : Out) : (emit o s).patch = s.patch := rfl
@[simp] theorem emit_hif (o : Out) : (emit o s).hif = s.hif := rfl
@[simp] theorem emit_sec (o : Out) : (emit o s).sec = s.sec := rfl
@[simp] theorem emit_flt (o : Out) : (emit o s).flt = s.flt := rfl
@[simp] theorem emit_sens (o : Out) : (emit o s).sens = s.sens := rfl
@[simp] theorem emit_ps (o : Out) : (emit o s).ps = s.ps := rfl
@[simp] theorem emit_tel (o : Out) : (emit o s).tel = s.tel := rfl
@[simp] theorem emit_out (o : Out) : (emit o s).out = o :: s.out := rfl

@[simp] theorem advanceFree_pending : (advanceFree s).pending = s.pending := rfl
@[simp] theorem advanceFree_freeCtr : (advanceFree s).freeCtr = s.freeCtr + 1 := rfl
@[simp] theorem advanceFree_serial : (advanceFree s).serial = s.serial := rfl
@[simp] theorem advanceFree_ident : (advanceFree s).ident = s.ident := rfl
@[simp] theorem advanceFree_regs : (advanceFree s).regs = s.regs := rfl
@[simp] theorem advanceFree_pwr : (advanceFree s).pwr = s.pwr := rfl
@[simp] theorem advanceFree_nvm : (advanceFree s).nvm = s.nvm := rfl
@[simp] theorem advanceFree_opt : (advanceFree s).opt = s.opt := rfl
@[simp] theorem advanceFree_tim : (advanceFree s).tim = s.tim := rfl
@[simp] theorem advanceFree_img : (advanceFree s).img = s.img := rfl
@[simp] theorem advanceFree_groups : (advanceFree s).groups = s.groups := rfl
@[simp] theorem advanceFree_ports : (advanceFree s).ports = s.ports := rfl
@[simp] theorem advanceFree_cages : (advanceFree s).cages = s.cages := rfl
@[simp] theorem advanceFree_i2c : (advanceFree s).i2c = s.i2c := rfl
@[simp] theorem advanceFree_sas : (advanceFree s).sas = s.sas := rfl
@[simp] theorem advanceFree_chans : (advanceFree s).chans = s.chans := rfl
@[simp] theorem advanceFree_exm : (advanceFree s).exm = s.exm := rfl
@[simp] theorem advanceFree_lpm : (advanceFree s).lpm = s.lpm := rfl
@[simp] theorem advanceFree_trie : (advanceFree s).trie = s.trie := rfl
@[simp] theorem advanceFree_tblBad : (advanceFree s).tblBad = s.tblBad := rfl
@[simp] theorem advanceFree_tcm : (advanceFree s).tcm = s.tcm := rfl
@[simp] theorem advanceFree_act : (advanceFree s).act = s.act := rfl
@[simp] theorem advanceFree_frames : (advanceFree s).frames = s.frames := rfl
@[simp] theorem advanceFree_fab : (advanceFree s).fab = s.fab := rfl
@[simp] theorem advanceFree_mem : (advanceFree s).mem = s.mem := rfl
@[simp] theorem advanceFree_dram : (advanceFree s).dram = s.dram := rfl
@[simp] theorem advanceFree_sch : (advanceFree s).sch = s.sch := rfl
@[simp] theorem advanceFree_cfb : (advanceFree s).cfb = s.cfb := rfl
@[simp] theorem advanceFree_engines : (advanceFree s).engines = s.engines := rfl
@[simp] theorem advanceFree_patch : (advanceFree s).patch = s.patch := rfl
@[simp] theorem advanceFree_hif : (advanceFree s).hif = s.hif := rfl
@[simp] theorem advanceFree_sec : (advanceFree s).sec = s.sec := rfl
@[simp] theorem advanceFree_flt : (advanceFree s).flt = s.flt := rfl
@[simp] theorem advanceFree_sens : (advanceFree s).sens = s.sens := rfl
@[simp] theorem advanceFree_ps : (advanceFree s).ps = s.ps := rfl
@[simp] theorem advanceFree_tel : (advanceFree s).tel = s.tel := rfl
@[simp] theorem advanceFree_out : (advanceFree s).out = s.out := rfl

@[simp] theorem count_pending (set idx n : Nat) : (count set idx n s).pending = s.pending := rfl
@[simp] theorem count_freeCtr (set idx n : Nat) : (count set idx n s).freeCtr = s.freeCtr := rfl
@[simp] theorem count_serial (set idx n : Nat) : (count set idx n s).serial = s.serial := rfl
@[simp] theorem count_ident (set idx n : Nat) : (count set idx n s).ident = s.ident := rfl
@[simp] theorem count_regs (set idx n : Nat) : (count set idx n s).regs = s.regs := rfl
@[simp] theorem count_pwr (set idx n : Nat) : (count set idx n s).pwr = s.pwr := rfl
@[simp] theorem count_nvm (set idx n : Nat) : (count set idx n s).nvm = s.nvm := rfl
@[simp] theorem count_opt (set idx n : Nat) : (count set idx n s).opt = s.opt := rfl
@[simp] theorem count_tim (set idx n : Nat) : (count set idx n s).tim = s.tim := rfl
@[simp] theorem count_img (set idx n : Nat) : (count set idx n s).img = s.img := rfl
@[simp] theorem count_groups (set idx n : Nat) : (count set idx n s).groups = s.groups := rfl
@[simp] theorem count_ports (set idx n : Nat) : (count set idx n s).ports = s.ports := rfl
@[simp] theorem count_cages (set idx n : Nat) : (count set idx n s).cages = s.cages := rfl
@[simp] theorem count_i2c (set idx n : Nat) : (count set idx n s).i2c = s.i2c := rfl
@[simp] theorem count_sas (set idx n : Nat) : (count set idx n s).sas = s.sas := rfl
@[simp] theorem count_chans (set idx n : Nat) : (count set idx n s).chans = s.chans := rfl
@[simp] theorem count_exm (set idx n : Nat) : (count set idx n s).exm = s.exm := rfl
@[simp] theorem count_lpm (set idx n : Nat) : (count set idx n s).lpm = s.lpm := rfl
@[simp] theorem count_trie (set idx n : Nat) : (count set idx n s).trie = s.trie := rfl
@[simp] theorem count_tblBad (set idx n : Nat) : (count set idx n s).tblBad = s.tblBad := rfl
@[simp] theorem count_tcm (set idx n : Nat) : (count set idx n s).tcm = s.tcm := rfl
@[simp] theorem count_act (set idx n : Nat) : (count set idx n s).act = s.act := rfl
@[simp] theorem count_frames (set idx n : Nat) : (count set idx n s).frames = s.frames := rfl
@[simp] theorem count_fab (set idx n : Nat) : (count set idx n s).fab = s.fab := rfl
@[simp] theorem count_mem (set idx n : Nat) : (count set idx n s).mem = s.mem := rfl
@[simp] theorem count_dram (set idx n : Nat) : (count set idx n s).dram = s.dram := rfl
@[simp] theorem count_sch (set idx n : Nat) : (count set idx n s).sch = s.sch := rfl
@[simp] theorem count_cfb (set idx n : Nat) : (count set idx n s).cfb = s.cfb := rfl
@[simp] theorem count_engines (set idx n : Nat) : (count set idx n s).engines = s.engines := rfl
@[simp] theorem count_patch (set idx n : Nat) : (count set idx n s).patch = s.patch := rfl
@[simp] theorem count_hif (set idx n : Nat) : (count set idx n s).hif = s.hif := rfl
@[simp] theorem count_sec (set idx n : Nat) : (count set idx n s).sec = s.sec := rfl
@[simp] theorem count_flt (set idx n : Nat) : (count set idx n s).flt = s.flt := rfl
@[simp] theorem count_sens (set idx n : Nat) : (count set idx n s).sens = s.sens := rfl
@[simp] theorem count_ps (set idx n : Nat) : (count set idx n s).ps = s.ps := rfl
@[simp] theorem count_tel (set idx n : Nat) : (count set idx n s).tel = { s.tel with counters := tupd s.tel.counters (set * 4294967296 + idx) fun c => c + BitVec.ofNat 64 n } := rfl
@[simp] theorem count_out (set idx n : Nat) : (count set idx n s).out = s.out := rfl

@[simp] theorem rput_pending (r : Reg) (t i : Nat) (w : Word) : (rput r t i w s).pending = s.pending := rfl
@[simp] theorem rput_freeCtr (r : Reg) (t i : Nat) (w : Word) : (rput r t i w s).freeCtr = s.freeCtr := rfl
@[simp] theorem rput_serial (r : Reg) (t i : Nat) (w : Word) : (rput r t i w s).serial = s.serial := rfl
@[simp] theorem rput_ident (r : Reg) (t i : Nat) (w : Word) : (rput r t i w s).ident = s.ident := rfl
@[simp] theorem rput_regs (r : Reg) (t i : Nat) (w : Word) : (rput r t i w s).regs = tput s.regs (regOff r t i) (if w = regReset r i then none else some w) := rfl
@[simp] theorem rput_pwr (r : Reg) (t i : Nat) (w : Word) : (rput r t i w s).pwr = s.pwr := rfl
@[simp] theorem rput_nvm (r : Reg) (t i : Nat) (w : Word) : (rput r t i w s).nvm = s.nvm := rfl
@[simp] theorem rput_opt (r : Reg) (t i : Nat) (w : Word) : (rput r t i w s).opt = s.opt := rfl
@[simp] theorem rput_tim (r : Reg) (t i : Nat) (w : Word) : (rput r t i w s).tim = s.tim := rfl
@[simp] theorem rput_img (r : Reg) (t i : Nat) (w : Word) : (rput r t i w s).img = s.img := rfl
@[simp] theorem rput_groups (r : Reg) (t i : Nat) (w : Word) : (rput r t i w s).groups = s.groups := rfl
@[simp] theorem rput_ports (r : Reg) (t i : Nat) (w : Word) : (rput r t i w s).ports = s.ports := rfl
@[simp] theorem rput_cages (r : Reg) (t i : Nat) (w : Word) : (rput r t i w s).cages = s.cages := rfl
@[simp] theorem rput_i2c (r : Reg) (t i : Nat) (w : Word) : (rput r t i w s).i2c = s.i2c := rfl
@[simp] theorem rput_sas (r : Reg) (t i : Nat) (w : Word) : (rput r t i w s).sas = s.sas := rfl
@[simp] theorem rput_chans (r : Reg) (t i : Nat) (w : Word) : (rput r t i w s).chans = s.chans := rfl
@[simp] theorem rput_exm (r : Reg) (t i : Nat) (w : Word) : (rput r t i w s).exm = s.exm := rfl
@[simp] theorem rput_lpm (r : Reg) (t i : Nat) (w : Word) : (rput r t i w s).lpm = s.lpm := rfl
@[simp] theorem rput_trie (r : Reg) (t i : Nat) (w : Word) : (rput r t i w s).trie = s.trie := rfl
@[simp] theorem rput_tblBad (r : Reg) (t i : Nat) (w : Word) : (rput r t i w s).tblBad = s.tblBad := rfl
@[simp] theorem rput_tcm (r : Reg) (t i : Nat) (w : Word) : (rput r t i w s).tcm = s.tcm := rfl
@[simp] theorem rput_act (r : Reg) (t i : Nat) (w : Word) : (rput r t i w s).act = s.act := rfl
@[simp] theorem rput_frames (r : Reg) (t i : Nat) (w : Word) : (rput r t i w s).frames = s.frames := rfl
@[simp] theorem rput_fab (r : Reg) (t i : Nat) (w : Word) : (rput r t i w s).fab = s.fab := rfl
@[simp] theorem rput_mem (r : Reg) (t i : Nat) (w : Word) : (rput r t i w s).mem = s.mem := rfl
@[simp] theorem rput_dram (r : Reg) (t i : Nat) (w : Word) : (rput r t i w s).dram = s.dram := rfl
@[simp] theorem rput_sch (r : Reg) (t i : Nat) (w : Word) : (rput r t i w s).sch = s.sch := rfl
@[simp] theorem rput_cfb (r : Reg) (t i : Nat) (w : Word) : (rput r t i w s).cfb = s.cfb := rfl
@[simp] theorem rput_engines (r : Reg) (t i : Nat) (w : Word) : (rput r t i w s).engines = s.engines := rfl
@[simp] theorem rput_patch (r : Reg) (t i : Nat) (w : Word) : (rput r t i w s).patch = s.patch := rfl
@[simp] theorem rput_hif (r : Reg) (t i : Nat) (w : Word) : (rput r t i w s).hif = s.hif := rfl
@[simp] theorem rput_sec (r : Reg) (t i : Nat) (w : Word) : (rput r t i w s).sec = s.sec := rfl
@[simp] theorem rput_flt (r : Reg) (t i : Nat) (w : Word) : (rput r t i w s).flt = s.flt := rfl
@[simp] theorem rput_sens (r : Reg) (t i : Nat) (w : Word) : (rput r t i w s).sens = s.sens := rfl
@[simp] theorem rput_ps (r : Reg) (t i : Nat) (w : Word) : (rput r t i w s).ps = s.ps := rfl
@[simp] theorem rput_tel (r : Reg) (t i : Nat) (w : Word) : (rput r t i w s).tel = s.tel := rfl
@[simp] theorem rput_out (r : Reg) (t i : Nat) (w : Word) : (rput r t i w s).out = s.out := rfl

@[simp] theorem rset_pending (r : Reg) (t i hi lo v : Nat) : (rset r t i hi lo v s).pending = s.pending := rfl
@[simp] theorem rset_freeCtr (r : Reg) (t i hi lo v : Nat) : (rset r t i hi lo v s).freeCtr = s.freeCtr := rfl
@[simp] theorem rset_serial (r : Reg) (t i hi lo v : Nat) : (rset r t i hi lo v s).serial = s.serial := rfl
@[simp] theorem rset_ident (r : Reg) (t i hi lo v : Nat) : (rset r t i hi lo v s).ident = s.ident := rfl
@[simp] theorem rset_regs (r : Reg) (t i hi lo v : Nat) : (rset r t i hi lo v s).regs = (rput r t i (setFld (rget s r t i) hi lo v) s).regs := rfl
@[simp] theorem rset_pwr (r : Reg) (t i hi lo v : Nat) : (rset r t i hi lo v s).pwr = s.pwr := rfl
@[simp] theorem rset_nvm (r : Reg) (t i hi lo v : Nat) : (rset r t i hi lo v s).nvm = s.nvm := rfl
@[simp] theorem rset_opt (r : Reg) (t i hi lo v : Nat) : (rset r t i hi lo v s).opt = s.opt := rfl
@[simp] theorem rset_tim (r : Reg) (t i hi lo v : Nat) : (rset r t i hi lo v s).tim = s.tim := rfl
@[simp] theorem rset_img (r : Reg) (t i hi lo v : Nat) : (rset r t i hi lo v s).img = s.img := rfl
@[simp] theorem rset_groups (r : Reg) (t i hi lo v : Nat) : (rset r t i hi lo v s).groups = s.groups := rfl
@[simp] theorem rset_ports (r : Reg) (t i hi lo v : Nat) : (rset r t i hi lo v s).ports = s.ports := rfl
@[simp] theorem rset_cages (r : Reg) (t i hi lo v : Nat) : (rset r t i hi lo v s).cages = s.cages := rfl
@[simp] theorem rset_i2c (r : Reg) (t i hi lo v : Nat) : (rset r t i hi lo v s).i2c = s.i2c := rfl
@[simp] theorem rset_sas (r : Reg) (t i hi lo v : Nat) : (rset r t i hi lo v s).sas = s.sas := rfl
@[simp] theorem rset_chans (r : Reg) (t i hi lo v : Nat) : (rset r t i hi lo v s).chans = s.chans := rfl
@[simp] theorem rset_exm (r : Reg) (t i hi lo v : Nat) : (rset r t i hi lo v s).exm = s.exm := rfl
@[simp] theorem rset_lpm (r : Reg) (t i hi lo v : Nat) : (rset r t i hi lo v s).lpm = s.lpm := rfl
@[simp] theorem rset_trie (r : Reg) (t i hi lo v : Nat) : (rset r t i hi lo v s).trie = s.trie := rfl
@[simp] theorem rset_tblBad (r : Reg) (t i hi lo v : Nat) : (rset r t i hi lo v s).tblBad = s.tblBad := rfl
@[simp] theorem rset_tcm (r : Reg) (t i hi lo v : Nat) : (rset r t i hi lo v s).tcm = s.tcm := rfl
@[simp] theorem rset_act (r : Reg) (t i hi lo v : Nat) : (rset r t i hi lo v s).act = s.act := rfl
@[simp] theorem rset_frames (r : Reg) (t i hi lo v : Nat) : (rset r t i hi lo v s).frames = s.frames := rfl
@[simp] theorem rset_fab (r : Reg) (t i hi lo v : Nat) : (rset r t i hi lo v s).fab = s.fab := rfl
@[simp] theorem rset_mem (r : Reg) (t i hi lo v : Nat) : (rset r t i hi lo v s).mem = s.mem := rfl
@[simp] theorem rset_dram (r : Reg) (t i hi lo v : Nat) : (rset r t i hi lo v s).dram = s.dram := rfl
@[simp] theorem rset_sch (r : Reg) (t i hi lo v : Nat) : (rset r t i hi lo v s).sch = s.sch := rfl
@[simp] theorem rset_cfb (r : Reg) (t i hi lo v : Nat) : (rset r t i hi lo v s).cfb = s.cfb := rfl
@[simp] theorem rset_engines (r : Reg) (t i hi lo v : Nat) : (rset r t i hi lo v s).engines = s.engines := rfl
@[simp] theorem rset_patch (r : Reg) (t i hi lo v : Nat) : (rset r t i hi lo v s).patch = s.patch := rfl
@[simp] theorem rset_hif (r : Reg) (t i hi lo v : Nat) : (rset r t i hi lo v s).hif = s.hif := rfl
@[simp] theorem rset_sec (r : Reg) (t i hi lo v : Nat) : (rset r t i hi lo v s).sec = s.sec := rfl
@[simp] theorem rset_flt (r : Reg) (t i hi lo v : Nat) : (rset r t i hi lo v s).flt = s.flt := rfl
@[simp] theorem rset_sens (r : Reg) (t i hi lo v : Nat) : (rset r t i hi lo v s).sens = s.sens := rfl
@[simp] theorem rset_ps (r : Reg) (t i hi lo v : Nat) : (rset r t i hi lo v s).ps = s.ps := rfl
@[simp] theorem rset_tel (r : Reg) (t i hi lo v : Nat) : (rset r t i hi lo v s).tel = s.tel := rfl
@[simp] theorem rset_out (r : Reg) (t i hi lo v : Nat) : (rset r t i hi lo v s).out = s.out := rfl

@[simp] theorem pset_pending (r : Reg) (b : Nat) (v : Bool) : (pset r b v s).pending = s.pending := rfl
@[simp] theorem pset_freeCtr (r : Reg) (b : Nat) (v : Bool) : (pset r b v s).freeCtr = s.freeCtr := rfl
@[simp] theorem pset_serial (r : Reg) (b : Nat) (v : Bool) : (pset r b v s).serial = s.serial := rfl
@[simp] theorem pset_ident (r : Reg) (b : Nat) (v : Bool) : (pset r b v s).ident = s.ident := rfl
@[simp] theorem pset_regs (r : Reg) (b : Nat) (v : Bool) : (pset r b v s).regs = (rset r 0 0 b b v.toNat s).regs := rfl
@[simp] theorem pset_pwr (r : Reg) (b : Nat) (v : Bool) : (pset r b v s).pwr = s.pwr := rfl
@[simp] theorem pset_nvm (r : Reg) (b : Nat) (v : Bool) : (pset r b v s).nvm = s.nvm := rfl
@[simp] theorem pset_opt (r : Reg) (b : Nat) (v : Bool) : (pset r b v s).opt = s.opt := rfl
@[simp] theorem pset_tim (r : Reg) (b : Nat) (v : Bool) : (pset r b v s).tim = s.tim := rfl
@[simp] theorem pset_img (r : Reg) (b : Nat) (v : Bool) : (pset r b v s).img = s.img := rfl
@[simp] theorem pset_groups (r : Reg) (b : Nat) (v : Bool) : (pset r b v s).groups = s.groups := rfl
@[simp] theorem pset_ports (r : Reg) (b : Nat) (v : Bool) : (pset r b v s).ports = s.ports := rfl
@[simp] theorem pset_cages (r : Reg) (b : Nat) (v : Bool) : (pset r b v s).cages = s.cages := rfl
@[simp] theorem pset_i2c (r : Reg) (b : Nat) (v : Bool) : (pset r b v s).i2c = s.i2c := rfl
@[simp] theorem pset_sas (r : Reg) (b : Nat) (v : Bool) : (pset r b v s).sas = s.sas := rfl
@[simp] theorem pset_chans (r : Reg) (b : Nat) (v : Bool) : (pset r b v s).chans = s.chans := rfl
@[simp] theorem pset_exm (r : Reg) (b : Nat) (v : Bool) : (pset r b v s).exm = s.exm := rfl
@[simp] theorem pset_lpm (r : Reg) (b : Nat) (v : Bool) : (pset r b v s).lpm = s.lpm := rfl
@[simp] theorem pset_trie (r : Reg) (b : Nat) (v : Bool) : (pset r b v s).trie = s.trie := rfl
@[simp] theorem pset_tblBad (r : Reg) (b : Nat) (v : Bool) : (pset r b v s).tblBad = s.tblBad := rfl
@[simp] theorem pset_tcm (r : Reg) (b : Nat) (v : Bool) : (pset r b v s).tcm = s.tcm := rfl
@[simp] theorem pset_act (r : Reg) (b : Nat) (v : Bool) : (pset r b v s).act = s.act := rfl
@[simp] theorem pset_frames (r : Reg) (b : Nat) (v : Bool) : (pset r b v s).frames = s.frames := rfl
@[simp] theorem pset_fab (r : Reg) (b : Nat) (v : Bool) : (pset r b v s).fab = s.fab := rfl
@[simp] theorem pset_mem (r : Reg) (b : Nat) (v : Bool) : (pset r b v s).mem = s.mem := rfl
@[simp] theorem pset_dram (r : Reg) (b : Nat) (v : Bool) : (pset r b v s).dram = s.dram := rfl
@[simp] theorem pset_sch (r : Reg) (b : Nat) (v : Bool) : (pset r b v s).sch = s.sch := rfl
@[simp] theorem pset_cfb (r : Reg) (b : Nat) (v : Bool) : (pset r b v s).cfb = s.cfb := rfl
@[simp] theorem pset_engines (r : Reg) (b : Nat) (v : Bool) : (pset r b v s).engines = s.engines := rfl
@[simp] theorem pset_patch (r : Reg) (b : Nat) (v : Bool) : (pset r b v s).patch = s.patch := rfl
@[simp] theorem pset_hif (r : Reg) (b : Nat) (v : Bool) : (pset r b v s).hif = s.hif := rfl
@[simp] theorem pset_sec (r : Reg) (b : Nat) (v : Bool) : (pset r b v s).sec = s.sec := rfl
@[simp] theorem pset_flt (r : Reg) (b : Nat) (v : Bool) : (pset r b v s).flt = s.flt := rfl
@[simp] theorem pset_sens (r : Reg) (b : Nat) (v : Bool) : (pset r b v s).sens = s.sens := rfl
@[simp] theorem pset_ps (r : Reg) (b : Nat) (v : Bool) : (pset r b v s).ps = s.ps := rfl
@[simp] theorem pset_tel (r : Reg) (b : Nat) (v : Bool) : (pset r b v s).tel = s.tel := rfl
@[simp] theorem pset_out (r : Reg) (b : Nat) (v : Bool) : (pset r b v s).out = s.out := rfl

@[simp] theorem setStage_pending (n : Nat) : (setStage n s).pending = s.pending := rfl
@[simp] theorem setStage_freeCtr (n : Nat) : (setStage n s).freeCtr = s.freeCtr := rfl
@[simp] theorem setStage_serial (n : Nat) : (setStage n s).serial = s.serial := rfl
@[simp] theorem setStage_ident (n : Nat) : (setStage n s).ident = s.ident := rfl
@[simp] theorem setStage_regs (n : Nat) : (setStage n s).regs = (rset .pltBootStat 0 0 7 0 n s).regs := rfl
@[simp] theorem setStage_pwr (n : Nat) : (setStage n s).pwr = s.pwr := rfl
@[simp] theorem setStage_nvm (n : Nat) : (setStage n s).nvm = s.nvm := rfl
@[simp] theorem setStage_opt (n : Nat) : (setStage n s).opt = s.opt := rfl
@[simp] theorem setStage_tim (n : Nat) : (setStage n s).tim = s.tim := rfl
@[simp] theorem setStage_img (n : Nat) : (setStage n s).img = s.img := rfl
@[simp] theorem setStage_groups (n : Nat) : (setStage n s).groups = s.groups := rfl
@[simp] theorem setStage_ports (n : Nat) : (setStage n s).ports = s.ports := rfl
@[simp] theorem setStage_cages (n : Nat) : (setStage n s).cages = s.cages := rfl
@[simp] theorem setStage_i2c (n : Nat) : (setStage n s).i2c = s.i2c := rfl
@[simp] theorem setStage_sas (n : Nat) : (setStage n s).sas = s.sas := rfl
@[simp] theorem setStage_chans (n : Nat) : (setStage n s).chans = s.chans := rfl
@[simp] theorem setStage_exm (n : Nat) : (setStage n s).exm = s.exm := rfl
@[simp] theorem setStage_lpm (n : Nat) : (setStage n s).lpm = s.lpm := rfl
@[simp] theorem setStage_trie (n : Nat) : (setStage n s).trie = s.trie := rfl
@[simp] theorem setStage_tblBad (n : Nat) : (setStage n s).tblBad = s.tblBad := rfl
@[simp] theorem setStage_tcm (n : Nat) : (setStage n s).tcm = s.tcm := rfl
@[simp] theorem setStage_act (n : Nat) : (setStage n s).act = s.act := rfl
@[simp] theorem setStage_frames (n : Nat) : (setStage n s).frames = s.frames := rfl
@[simp] theorem setStage_fab (n : Nat) : (setStage n s).fab = s.fab := rfl
@[simp] theorem setStage_mem (n : Nat) : (setStage n s).mem = s.mem := rfl
@[simp] theorem setStage_dram (n : Nat) : (setStage n s).dram = s.dram := rfl
@[simp] theorem setStage_sch (n : Nat) : (setStage n s).sch = s.sch := rfl
@[simp] theorem setStage_cfb (n : Nat) : (setStage n s).cfb = s.cfb := rfl
@[simp] theorem setStage_engines (n : Nat) : (setStage n s).engines = s.engines := rfl
@[simp] theorem setStage_patch (n : Nat) : (setStage n s).patch = s.patch := rfl
@[simp] theorem setStage_hif (n : Nat) : (setStage n s).hif = s.hif := rfl
@[simp] theorem setStage_sec (n : Nat) : (setStage n s).sec = s.sec := rfl
@[simp] theorem setStage_flt (n : Nat) : (setStage n s).flt = s.flt := rfl
@[simp] theorem setStage_sens (n : Nat) : (setStage n s).sens = s.sens := rfl
@[simp] theorem setStage_ps (n : Nat) : (setStage n s).ps = s.ps := rfl
@[simp] theorem setStage_tel (n : Nat) : (setStage n s).tel = s.tel := rfl
@[simp] theorem setStage_out (n : Nat) : (setStage n s).out = s.out := rfl

@[simp] theorem setUnit_pending (u : Nat) (f : UnitSt → UnitSt) : (setUnit u f s).pending = s.pending := rfl
@[simp] theorem setUnit_freeCtr (u : Nat) (f : UnitSt → UnitSt) : (setUnit u f s).freeCtr = s.freeCtr := rfl
@[simp] theorem setUnit_serial (u : Nat) (f : UnitSt → UnitSt) : (setUnit u f s).serial = s.serial := rfl
@[simp] theorem setUnit_ident (u : Nat) (f : UnitSt → UnitSt) : (setUnit u f s).ident = s.ident := rfl
@[simp] theorem setUnit_regs (u : Nat) (f : UnitSt → UnitSt) : (setUnit u f s).regs = s.regs := rfl
@[simp] theorem setUnit_pwr (u : Nat) (f : UnitSt → UnitSt) : (setUnit u f s).pwr = s.pwr := rfl
@[simp] theorem setUnit_nvm (u : Nat) (f : UnitSt → UnitSt) : (setUnit u f s).nvm = s.nvm := rfl
@[simp] theorem setUnit_opt (u : Nat) (f : UnitSt → UnitSt) : (setUnit u f s).opt = s.opt := rfl
@[simp] theorem setUnit_tim (u : Nat) (f : UnitSt → UnitSt) : (setUnit u f s).tim = s.tim := rfl
@[simp] theorem setUnit_img (u : Nat) (f : UnitSt → UnitSt) : (setUnit u f s).img = s.img := rfl
@[simp] theorem setUnit_groups (u : Nat) (f : UnitSt → UnitSt) : (setUnit u f s).groups = s.groups := rfl
@[simp] theorem setUnit_ports (u : Nat) (f : UnitSt → UnitSt) : (setUnit u f s).ports = s.ports := rfl
@[simp] theorem setUnit_cages (u : Nat) (f : UnitSt → UnitSt) : (setUnit u f s).cages = s.cages := rfl
@[simp] theorem setUnit_i2c (u : Nat) (f : UnitSt → UnitSt) : (setUnit u f s).i2c = s.i2c := rfl
@[simp] theorem setUnit_sas (u : Nat) (f : UnitSt → UnitSt) : (setUnit u f s).sas = s.sas := rfl
@[simp] theorem setUnit_chans (u : Nat) (f : UnitSt → UnitSt) : (setUnit u f s).chans = s.chans := rfl
@[simp] theorem setUnit_exm (u : Nat) (f : UnitSt → UnitSt) : (setUnit u f s).exm = s.exm := rfl
@[simp] theorem setUnit_lpm (u : Nat) (f : UnitSt → UnitSt) : (setUnit u f s).lpm = s.lpm := rfl
@[simp] theorem setUnit_trie (u : Nat) (f : UnitSt → UnitSt) : (setUnit u f s).trie = s.trie := rfl
@[simp] theorem setUnit_tblBad (u : Nat) (f : UnitSt → UnitSt) : (setUnit u f s).tblBad = s.tblBad := rfl
@[simp] theorem setUnit_tcm (u : Nat) (f : UnitSt → UnitSt) : (setUnit u f s).tcm = s.tcm := rfl
@[simp] theorem setUnit_act (u : Nat) (f : UnitSt → UnitSt) : (setUnit u f s).act = s.act := rfl
@[simp] theorem setUnit_frames (u : Nat) (f : UnitSt → UnitSt) : (setUnit u f s).frames = s.frames := rfl
@[simp] theorem setUnit_fab (u : Nat) (f : UnitSt → UnitSt) : (setUnit u f s).fab = s.fab := rfl
@[simp] theorem setUnit_mem (u : Nat) (f : UnitSt → UnitSt) : (setUnit u f s).mem = s.mem := rfl
@[simp] theorem setUnit_dram (u : Nat) (f : UnitSt → UnitSt) : (setUnit u f s).dram = s.dram := rfl
@[simp] theorem setUnit_sch (u : Nat) (f : UnitSt → UnitSt) : (setUnit u f s).sch = s.sch := rfl
@[simp] theorem setUnit_cfb (u : Nat) (f : UnitSt → UnitSt) : (setUnit u f s).cfb = s.cfb := rfl
@[simp] theorem setUnit_engines (u : Nat) (f : UnitSt → UnitSt) : (setUnit u f s).engines = s.engines := rfl
@[simp] theorem setUnit_patch (u : Nat) (f : UnitSt → UnitSt) : (setUnit u f s).patch = s.patch := rfl
@[simp] theorem setUnit_hif (u : Nat) (f : UnitSt → UnitSt) : (setUnit u f s).hif = s.hif := rfl
@[simp] theorem setUnit_sec (u : Nat) (f : UnitSt → UnitSt) : (setUnit u f s).sec = s.sec := rfl
@[simp] theorem setUnit_flt (u : Nat) (f : UnitSt → UnitSt) : (setUnit u f s).flt = { s.flt with units := tupd s.flt.units u f } := rfl
@[simp] theorem setUnit_sens (u : Nat) (f : UnitSt → UnitSt) : (setUnit u f s).sens = s.sens := rfl
@[simp] theorem setUnit_ps (u : Nat) (f : UnitSt → UnitSt) : (setUnit u f s).ps = s.ps := rfl
@[simp] theorem setUnit_tel (u : Nat) (f : UnitSt → UnitSt) : (setUnit u f s).tel = s.tel := rfl
@[simp] theorem setUnit_out (u : Nat) (f : UnitSt → UnitSt) : (setUnit u f s).out = s.out := rfl

@[simp] theorem setPort_pending (p : Nat) (f : Port → Port) : (setPort p f s).pending = s.pending := rfl
@[simp] theorem setPort_freeCtr (p : Nat) (f : Port → Port) : (setPort p f s).freeCtr = s.freeCtr := rfl
@[simp] theorem setPort_serial (p : Nat) (f : Port → Port) : (setPort p f s).serial = s.serial := rfl
@[simp] theorem setPort_ident (p : Nat) (f : Port → Port) : (setPort p f s).ident = s.ident := rfl
@[simp] theorem setPort_regs (p : Nat) (f : Port → Port) : (setPort p f s).regs = s.regs := rfl
@[simp] theorem setPort_pwr (p : Nat) (f : Port → Port) : (setPort p f s).pwr = s.pwr := rfl
@[simp] theorem setPort_nvm (p : Nat) (f : Port → Port) : (setPort p f s).nvm = s.nvm := rfl
@[simp] theorem setPort_opt (p : Nat) (f : Port → Port) : (setPort p f s).opt = s.opt := rfl
@[simp] theorem setPort_tim (p : Nat) (f : Port → Port) : (setPort p f s).tim = s.tim := rfl
@[simp] theorem setPort_img (p : Nat) (f : Port → Port) : (setPort p f s).img = s.img := rfl
@[simp] theorem setPort_groups (p : Nat) (f : Port → Port) : (setPort p f s).groups = s.groups := rfl
@[simp] theorem setPort_ports (p : Nat) (f : Port → Port) : (setPort p f s).ports = tupd s.ports p f := rfl
@[simp] theorem setPort_cages (p : Nat) (f : Port → Port) : (setPort p f s).cages = s.cages := rfl
@[simp] theorem setPort_i2c (p : Nat) (f : Port → Port) : (setPort p f s).i2c = s.i2c := rfl
@[simp] theorem setPort_sas (p : Nat) (f : Port → Port) : (setPort p f s).sas = s.sas := rfl
@[simp] theorem setPort_chans (p : Nat) (f : Port → Port) : (setPort p f s).chans = s.chans := rfl
@[simp] theorem setPort_exm (p : Nat) (f : Port → Port) : (setPort p f s).exm = s.exm := rfl
@[simp] theorem setPort_lpm (p : Nat) (f : Port → Port) : (setPort p f s).lpm = s.lpm := rfl
@[simp] theorem setPort_trie (p : Nat) (f : Port → Port) : (setPort p f s).trie = s.trie := rfl
@[simp] theorem setPort_tblBad (p : Nat) (f : Port → Port) : (setPort p f s).tblBad = s.tblBad := rfl
@[simp] theorem setPort_tcm (p : Nat) (f : Port → Port) : (setPort p f s).tcm = s.tcm := rfl
@[simp] theorem setPort_act (p : Nat) (f : Port → Port) : (setPort p f s).act = s.act := rfl
@[simp] theorem setPort_frames (p : Nat) (f : Port → Port) : (setPort p f s).frames = s.frames := rfl
@[simp] theorem setPort_fab (p : Nat) (f : Port → Port) : (setPort p f s).fab = s.fab := rfl
@[simp] theorem setPort_mem (p : Nat) (f : Port → Port) : (setPort p f s).mem = s.mem := rfl
@[simp] theorem setPort_dram (p : Nat) (f : Port → Port) : (setPort p f s).dram = s.dram := rfl
@[simp] theorem setPort_sch (p : Nat) (f : Port → Port) : (setPort p f s).sch = s.sch := rfl
@[simp] theorem setPort_cfb (p : Nat) (f : Port → Port) : (setPort p f s).cfb = s.cfb := rfl
@[simp] theorem setPort_engines (p : Nat) (f : Port → Port) : (setPort p f s).engines = s.engines := rfl
@[simp] theorem setPort_patch (p : Nat) (f : Port → Port) : (setPort p f s).patch = s.patch := rfl
@[simp] theorem setPort_hif (p : Nat) (f : Port → Port) : (setPort p f s).hif = s.hif := rfl
@[simp] theorem setPort_sec (p : Nat) (f : Port → Port) : (setPort p f s).sec = s.sec := rfl
@[simp] theorem setPort_flt (p : Nat) (f : Port → Port) : (setPort p f s).flt = s.flt := rfl
@[simp] theorem setPort_sens (p : Nat) (f : Port → Port) : (setPort p f s).sens = s.sens := rfl
@[simp] theorem setPort_ps (p : Nat) (f : Port → Port) : (setPort p f s).ps = s.ps := rfl
@[simp] theorem setPort_tel (p : Nat) (f : Port → Port) : (setPort p f s).tel = s.tel := rfl
@[simp] theorem setPort_out (p : Nat) (f : Port → Port) : (setPort p f s).out = s.out := rfl

@[simp] theorem setNode_pending (l n : Nat) (f : Node → Node) : (setNode l n f s).pending = s.pending := rfl
@[simp] theorem setNode_freeCtr (l n : Nat) (f : Node → Node) : (setNode l n f s).freeCtr = s.freeCtr := rfl
@[simp] theorem setNode_serial (l n : Nat) (f : Node → Node) : (setNode l n f s).serial = s.serial := rfl
@[simp] theorem setNode_ident (l n : Nat) (f : Node → Node) : (setNode l n f s).ident = s.ident := rfl
@[simp] theorem setNode_regs (l n : Nat) (f : Node → Node) : (setNode l n f s).regs = s.regs := rfl
@[simp] theorem setNode_pwr (l n : Nat) (f : Node → Node) : (setNode l n f s).pwr = s.pwr := rfl
@[simp] theorem setNode_nvm (l n : Nat) (f : Node → Node) : (setNode l n f s).nvm = s.nvm := rfl
@[simp] theorem setNode_opt (l n : Nat) (f : Node → Node) : (setNode l n f s).opt = s.opt := rfl
@[simp] theorem setNode_tim (l n : Nat) (f : Node → Node) : (setNode l n f s).tim = s.tim := rfl
@[simp] theorem setNode_img (l n : Nat) (f : Node → Node) : (setNode l n f s).img = s.img := rfl
@[simp] theorem setNode_groups (l n : Nat) (f : Node → Node) : (setNode l n f s).groups = s.groups := rfl
@[simp] theorem setNode_ports (l n : Nat) (f : Node → Node) : (setNode l n f s).ports = s.ports := rfl
@[simp] theorem setNode_cages (l n : Nat) (f : Node → Node) : (setNode l n f s).cages = s.cages := rfl
@[simp] theorem setNode_i2c (l n : Nat) (f : Node → Node) : (setNode l n f s).i2c = s.i2c := rfl
@[simp] theorem setNode_sas (l n : Nat) (f : Node → Node) : (setNode l n f s).sas = s.sas := rfl
@[simp] theorem setNode_chans (l n : Nat) (f : Node → Node) : (setNode l n f s).chans = s.chans := rfl
@[simp] theorem setNode_exm (l n : Nat) (f : Node → Node) : (setNode l n f s).exm = s.exm := rfl
@[simp] theorem setNode_lpm (l n : Nat) (f : Node → Node) : (setNode l n f s).lpm = s.lpm := rfl
@[simp] theorem setNode_trie (l n : Nat) (f : Node → Node) : (setNode l n f s).trie = s.trie := rfl
@[simp] theorem setNode_tblBad (l n : Nat) (f : Node → Node) : (setNode l n f s).tblBad = s.tblBad := rfl
@[simp] theorem setNode_tcm (l n : Nat) (f : Node → Node) : (setNode l n f s).tcm = s.tcm := rfl
@[simp] theorem setNode_act (l n : Nat) (f : Node → Node) : (setNode l n f s).act = s.act := rfl
@[simp] theorem setNode_frames (l n : Nat) (f : Node → Node) : (setNode l n f s).frames = s.frames := rfl
@[simp] theorem setNode_fab (l n : Nat) (f : Node → Node) : (setNode l n f s).fab = s.fab := rfl
@[simp] theorem setNode_mem (l n : Nat) (f : Node → Node) : (setNode l n f s).mem = s.mem := rfl
@[simp] theorem setNode_dram (l n : Nat) (f : Node → Node) : (setNode l n f s).dram = s.dram := rfl
@[simp] theorem setNode_sch (l n : Nat) (f : Node → Node) : (setNode l n f s).sch = { s.sch with nodes := tupd s.sch.nodes (nodeKey l n) f } := rfl
@[simp] theorem setNode_cfb (l n : Nat) (f : Node → Node) : (setNode l n f s).cfb = s.cfb := rfl
@[simp] theorem setNode_engines (l n : Nat) (f : Node → Node) : (setNode l n f s).engines = s.engines := rfl
@[simp] theorem setNode_patch (l n : Nat) (f : Node → Node) : (setNode l n f s).patch = s.patch := rfl
@[simp] theorem setNode_hif (l n : Nat) (f : Node → Node) : (setNode l n f s).hif = s.hif := rfl
@[simp] theorem setNode_sec (l n : Nat) (f : Node → Node) : (setNode l n f s).sec = s.sec := rfl
@[simp] theorem setNode_flt (l n : Nat) (f : Node → Node) : (setNode l n f s).flt = s.flt := rfl
@[simp] theorem setNode_sens (l n : Nat) (f : Node → Node) : (setNode l n f s).sens = s.sens := rfl
@[simp] theorem setNode_ps (l n : Nat) (f : Node → Node) : (setNode l n f s).ps = s.ps := rfl
@[simp] theorem setNode_tel (l n : Nat) (f : Node → Node) : (setNode l n f s).tel = s.tel := rfl
@[simp] theorem setNode_out (l n : Nat) (f : Node → Node) : (setNode l n f s).out = s.out := rfl

@[simp] theorem setLeaf_pending (l : Nat) (f : Leaf → Leaf) : (setLeaf l f s).pending = s.pending := rfl
@[simp] theorem setLeaf_freeCtr (l : Nat) (f : Leaf → Leaf) : (setLeaf l f s).freeCtr = s.freeCtr := rfl
@[simp] theorem setLeaf_serial (l : Nat) (f : Leaf → Leaf) : (setLeaf l f s).serial = s.serial := rfl
@[simp] theorem setLeaf_ident (l : Nat) (f : Leaf → Leaf) : (setLeaf l f s).ident = s.ident := rfl
@[simp] theorem setLeaf_regs (l : Nat) (f : Leaf → Leaf) : (setLeaf l f s).regs = s.regs := rfl
@[simp] theorem setLeaf_pwr (l : Nat) (f : Leaf → Leaf) : (setLeaf l f s).pwr = s.pwr := rfl
@[simp] theorem setLeaf_nvm (l : Nat) (f : Leaf → Leaf) : (setLeaf l f s).nvm = s.nvm := rfl
@[simp] theorem setLeaf_opt (l : Nat) (f : Leaf → Leaf) : (setLeaf l f s).opt = s.opt := rfl
@[simp] theorem setLeaf_tim (l : Nat) (f : Leaf → Leaf) : (setLeaf l f s).tim = s.tim := rfl
@[simp] theorem setLeaf_img (l : Nat) (f : Leaf → Leaf) : (setLeaf l f s).img = s.img := rfl
@[simp] theorem setLeaf_groups (l : Nat) (f : Leaf → Leaf) : (setLeaf l f s).groups = s.groups := rfl
@[simp] theorem setLeaf_ports (l : Nat) (f : Leaf → Leaf) : (setLeaf l f s).ports = s.ports := rfl
@[simp] theorem setLeaf_cages (l : Nat) (f : Leaf → Leaf) : (setLeaf l f s).cages = s.cages := rfl
@[simp] theorem setLeaf_i2c (l : Nat) (f : Leaf → Leaf) : (setLeaf l f s).i2c = s.i2c := rfl
@[simp] theorem setLeaf_sas (l : Nat) (f : Leaf → Leaf) : (setLeaf l f s).sas = s.sas := rfl
@[simp] theorem setLeaf_chans (l : Nat) (f : Leaf → Leaf) : (setLeaf l f s).chans = s.chans := rfl
@[simp] theorem setLeaf_exm (l : Nat) (f : Leaf → Leaf) : (setLeaf l f s).exm = s.exm := rfl
@[simp] theorem setLeaf_lpm (l : Nat) (f : Leaf → Leaf) : (setLeaf l f s).lpm = s.lpm := rfl
@[simp] theorem setLeaf_trie (l : Nat) (f : Leaf → Leaf) : (setLeaf l f s).trie = s.trie := rfl
@[simp] theorem setLeaf_tblBad (l : Nat) (f : Leaf → Leaf) : (setLeaf l f s).tblBad = s.tblBad := rfl
@[simp] theorem setLeaf_tcm (l : Nat) (f : Leaf → Leaf) : (setLeaf l f s).tcm = s.tcm := rfl
@[simp] theorem setLeaf_act (l : Nat) (f : Leaf → Leaf) : (setLeaf l f s).act = s.act := rfl
@[simp] theorem setLeaf_frames (l : Nat) (f : Leaf → Leaf) : (setLeaf l f s).frames = s.frames := rfl
@[simp] theorem setLeaf_fab (l : Nat) (f : Leaf → Leaf) : (setLeaf l f s).fab = s.fab := rfl
@[simp] theorem setLeaf_mem (l : Nat) (f : Leaf → Leaf) : (setLeaf l f s).mem = s.mem := rfl
@[simp] theorem setLeaf_dram (l : Nat) (f : Leaf → Leaf) : (setLeaf l f s).dram = s.dram := rfl
@[simp] theorem setLeaf_sch (l : Nat) (f : Leaf → Leaf) : (setLeaf l f s).sch = { s.sch with leaves := tupd s.sch.leaves l f } := rfl
@[simp] theorem setLeaf_cfb (l : Nat) (f : Leaf → Leaf) : (setLeaf l f s).cfb = s.cfb := rfl
@[simp] theorem setLeaf_engines (l : Nat) (f : Leaf → Leaf) : (setLeaf l f s).engines = s.engines := rfl
@[simp] theorem setLeaf_patch (l : Nat) (f : Leaf → Leaf) : (setLeaf l f s).patch = s.patch := rfl
@[simp] theorem setLeaf_hif (l : Nat) (f : Leaf → Leaf) : (setLeaf l f s).hif = s.hif := rfl
@[simp] theorem setLeaf_sec (l : Nat) (f : Leaf → Leaf) : (setLeaf l f s).sec = s.sec := rfl
@[simp] theorem setLeaf_flt (l : Nat) (f : Leaf → Leaf) : (setLeaf l f s).flt = s.flt := rfl
@[simp] theorem setLeaf_sens (l : Nat) (f : Leaf → Leaf) : (setLeaf l f s).sens = s.sens := rfl
@[simp] theorem setLeaf_ps (l : Nat) (f : Leaf → Leaf) : (setLeaf l f s).ps = s.ps := rfl
@[simp] theorem setLeaf_tel (l : Nat) (f : Leaf → Leaf) : (setLeaf l f s).tel = s.tel := rfl
@[simp] theorem setLeaf_out (l : Nat) (f : Leaf → Leaf) : (setLeaf l f s).out = s.out := rfl

@[simp] theorem setRing_pending (q r : Nat) (f : Ring → Ring) : (setRing q r f s).pending = s.pending := rfl
@[simp] theorem setRing_freeCtr (q r : Nat) (f : Ring → Ring) : (setRing q r f s).freeCtr = s.freeCtr := rfl
@[simp] theorem setRing_serial (q r : Nat) (f : Ring → Ring) : (setRing q r f s).serial = s.serial := rfl
@[simp] theorem setRing_ident (q r : Nat) (f : Ring → Ring) : (setRing q r f s).ident = s.ident := rfl
@[simp] theorem setRing_regs (q r : Nat) (f : Ring → Ring) : (setRing q r f s).regs = s.regs := rfl
@[simp] theorem setRing_pwr (q r : Nat) (f : Ring → Ring) : (setRing q r f s).pwr = s.pwr := rfl
@[simp] theorem setRing_nvm (q r : Nat) (f : Ring → Ring) : (setRing q r f s).nvm = s.nvm := rfl
@[simp] theorem setRing_opt (q r : Nat) (f : Ring → Ring) : (setRing q r f s).opt = s.opt := rfl
@[simp] theorem setRing_tim (q r : Nat) (f : Ring → Ring) : (setRing q r f s).tim = s.tim := rfl
@[simp] theorem setRing_img (q r : Nat) (f : Ring → Ring) : (setRing q r f s).img = s.img := rfl
@[simp] theorem setRing_groups (q r : Nat) (f : Ring → Ring) : (setRing q r f s).groups = s.groups := rfl
@[simp] theorem setRing_ports (q r : Nat) (f : Ring → Ring) : (setRing q r f s).ports = s.ports := rfl
@[simp] theorem setRing_cages (q r : Nat) (f : Ring → Ring) : (setRing q r f s).cages = s.cages := rfl
@[simp] theorem setRing_i2c (q r : Nat) (f : Ring → Ring) : (setRing q r f s).i2c = s.i2c := rfl
@[simp] theorem setRing_sas (q r : Nat) (f : Ring → Ring) : (setRing q r f s).sas = s.sas := rfl
@[simp] theorem setRing_chans (q r : Nat) (f : Ring → Ring) : (setRing q r f s).chans = s.chans := rfl
@[simp] theorem setRing_exm (q r : Nat) (f : Ring → Ring) : (setRing q r f s).exm = s.exm := rfl
@[simp] theorem setRing_lpm (q r : Nat) (f : Ring → Ring) : (setRing q r f s).lpm = s.lpm := rfl
@[simp] theorem setRing_trie (q r : Nat) (f : Ring → Ring) : (setRing q r f s).trie = s.trie := rfl
@[simp] theorem setRing_tblBad (q r : Nat) (f : Ring → Ring) : (setRing q r f s).tblBad = s.tblBad := rfl
@[simp] theorem setRing_tcm (q r : Nat) (f : Ring → Ring) : (setRing q r f s).tcm = s.tcm := rfl
@[simp] theorem setRing_act (q r : Nat) (f : Ring → Ring) : (setRing q r f s).act = s.act := rfl
@[simp] theorem setRing_frames (q r : Nat) (f : Ring → Ring) : (setRing q r f s).frames = s.frames := rfl
@[simp] theorem setRing_fab (q r : Nat) (f : Ring → Ring) : (setRing q r f s).fab = s.fab := rfl
@[simp] theorem setRing_mem (q r : Nat) (f : Ring → Ring) : (setRing q r f s).mem = s.mem := rfl
@[simp] theorem setRing_dram (q r : Nat) (f : Ring → Ring) : (setRing q r f s).dram = s.dram := rfl
@[simp] theorem setRing_sch (q r : Nat) (f : Ring → Ring) : (setRing q r f s).sch = s.sch := rfl
@[simp] theorem setRing_cfb (q r : Nat) (f : Ring → Ring) : (setRing q r f s).cfb = s.cfb := rfl
@[simp] theorem setRing_engines (q r : Nat) (f : Ring → Ring) : (setRing q r f s).engines = s.engines := rfl
@[simp] theorem setRing_patch (q r : Nat) (f : Ring → Ring) : (setRing q r f s).patch = s.patch := rfl
@[simp] theorem setRing_hif (q r : Nat) (f : Ring → Ring) : (setRing q r f s).hif = { s.hif with rings := tupd s.hif.rings (ringKey q r) f } := rfl
@[simp] theorem setRing_sec (q r : Nat) (f : Ring → Ring) : (setRing q r f s).sec = s.sec := rfl
@[simp] theorem setRing_flt (q r : Nat) (f : Ring → Ring) : (setRing q r f s).flt = s.flt := rfl
@[simp] theorem setRing_sens (q r : Nat) (f : Ring → Ring) : (setRing q r f s).sens = s.sens := rfl
@[simp] theorem setRing_ps (q r : Nat) (f : Ring → Ring) : (setRing q r f s).ps = s.ps := rfl
@[simp] theorem setRing_tel (q r : Nat) (f : Ring → Ring) : (setRing q r f s).tel = s.tel := rfl
@[simp] theorem setRing_out (q r : Nat) (f : Ring → Ring) : (setRing q r f s).out = s.out := rfl

@[simp] theorem setBuf_pending (h : Nat) (f : Buf → Buf) : (setBuf h f s).pending = s.pending := rfl
@[simp] theorem setBuf_freeCtr (h : Nat) (f : Buf → Buf) : (setBuf h f s).freeCtr = s.freeCtr := rfl
@[simp] theorem setBuf_serial (h : Nat) (f : Buf → Buf) : (setBuf h f s).serial = s.serial := rfl
@[simp] theorem setBuf_ident (h : Nat) (f : Buf → Buf) : (setBuf h f s).ident = s.ident := rfl
@[simp] theorem setBuf_regs (h : Nat) (f : Buf → Buf) : (setBuf h f s).regs = s.regs := rfl
@[simp] theorem setBuf_pwr (h : Nat) (f : Buf → Buf) : (setBuf h f s).pwr = s.pwr := rfl
@[simp] theorem setBuf_nvm (h : Nat) (f : Buf → Buf) : (setBuf h f s).nvm = s.nvm := rfl
@[simp] theorem setBuf_opt (h : Nat) (f : Buf → Buf) : (setBuf h f s).opt = s.opt := rfl
@[simp] theorem setBuf_tim (h : Nat) (f : Buf → Buf) : (setBuf h f s).tim = s.tim := rfl
@[simp] theorem setBuf_img (h : Nat) (f : Buf → Buf) : (setBuf h f s).img = s.img := rfl
@[simp] theorem setBuf_groups (h : Nat) (f : Buf → Buf) : (setBuf h f s).groups = s.groups := rfl
@[simp] theorem setBuf_ports (h : Nat) (f : Buf → Buf) : (setBuf h f s).ports = s.ports := rfl
@[simp] theorem setBuf_cages (h : Nat) (f : Buf → Buf) : (setBuf h f s).cages = s.cages := rfl
@[simp] theorem setBuf_i2c (h : Nat) (f : Buf → Buf) : (setBuf h f s).i2c = s.i2c := rfl
@[simp] theorem setBuf_sas (h : Nat) (f : Buf → Buf) : (setBuf h f s).sas = s.sas := rfl
@[simp] theorem setBuf_chans (h : Nat) (f : Buf → Buf) : (setBuf h f s).chans = s.chans := rfl
@[simp] theorem setBuf_exm (h : Nat) (f : Buf → Buf) : (setBuf h f s).exm = s.exm := rfl
@[simp] theorem setBuf_lpm (h : Nat) (f : Buf → Buf) : (setBuf h f s).lpm = s.lpm := rfl
@[simp] theorem setBuf_trie (h : Nat) (f : Buf → Buf) : (setBuf h f s).trie = s.trie := rfl
@[simp] theorem setBuf_tblBad (h : Nat) (f : Buf → Buf) : (setBuf h f s).tblBad = s.tblBad := rfl
@[simp] theorem setBuf_tcm (h : Nat) (f : Buf → Buf) : (setBuf h f s).tcm = s.tcm := rfl
@[simp] theorem setBuf_act (h : Nat) (f : Buf → Buf) : (setBuf h f s).act = s.act := rfl
@[simp] theorem setBuf_frames (h : Nat) (f : Buf → Buf) : (setBuf h f s).frames = s.frames := rfl
@[simp] theorem setBuf_fab (h : Nat) (f : Buf → Buf) : (setBuf h f s).fab = { s.fab with bufs := tupd s.fab.bufs h f } := rfl
@[simp] theorem setBuf_mem (h : Nat) (f : Buf → Buf) : (setBuf h f s).mem = s.mem := rfl
@[simp] theorem setBuf_dram (h : Nat) (f : Buf → Buf) : (setBuf h f s).dram = s.dram := rfl
@[simp] theorem setBuf_sch (h : Nat) (f : Buf → Buf) : (setBuf h f s).sch = s.sch := rfl
@[simp] theorem setBuf_cfb (h : Nat) (f : Buf → Buf) : (setBuf h f s).cfb = s.cfb := rfl
@[simp] theorem setBuf_engines (h : Nat) (f : Buf → Buf) : (setBuf h f s).engines = s.engines := rfl
@[simp] theorem setBuf_patch (h : Nat) (f : Buf → Buf) : (setBuf h f s).patch = s.patch := rfl
@[simp] theorem setBuf_hif (h : Nat) (f : Buf → Buf) : (setBuf h f s).hif = s.hif := rfl
@[simp] theorem setBuf_sec (h : Nat) (f : Buf → Buf) : (setBuf h f s).sec = s.sec := rfl
@[simp] theorem setBuf_flt (h : Nat) (f : Buf → Buf) : (setBuf h f s).flt = s.flt := rfl
@[simp] theorem setBuf_sens (h : Nat) (f : Buf → Buf) : (setBuf h f s).sens = s.sens := rfl
@[simp] theorem setBuf_ps (h : Nat) (f : Buf → Buf) : (setBuf h f s).ps = s.ps := rfl
@[simp] theorem setBuf_tel (h : Nat) (f : Buf → Buf) : (setBuf h f s).tel = s.tel := rfl
@[simp] theorem setBuf_out (h : Nat) (f : Buf → Buf) : (setBuf h f s).out = s.out := rfl

@[simp] theorem bufFreeAll_pending (f : Nat → Buf → Bool) : (bufFreeAll f s).pending = s.pending := rfl
@[simp] theorem bufFreeAll_freeCtr (f : Nat → Buf → Bool) : (bufFreeAll f s).freeCtr = s.freeCtr := rfl
@[simp] theorem bufFreeAll_serial (f : Nat → Buf → Bool) : (bufFreeAll f s).serial = s.serial := rfl
@[simp] theorem bufFreeAll_ident (f : Nat → Buf → Bool) : (bufFreeAll f s).ident = s.ident := rfl
@[simp] theorem bufFreeAll_regs (f : Nat → Buf → Bool) : (bufFreeAll f s).regs = s.regs := rfl
@[simp] theorem bufFreeAll_pwr (f : Nat → Buf → Bool) : (bufFreeAll f s).pwr = s.pwr := rfl
@[simp] theorem bufFreeAll_nvm (f : Nat → Buf → Bool) : (bufFreeAll f s).nvm = s.nvm := rfl
@[simp] theorem bufFreeAll_opt (f : Nat → Buf → Bool) : (bufFreeAll f s).opt = s.opt := rfl
@[simp] theorem bufFreeAll_tim (f : Nat → Buf → Bool) : (bufFreeAll f s).tim = s.tim := rfl
@[simp] theorem bufFreeAll_img (f : Nat → Buf → Bool) : (bufFreeAll f s).img = s.img := rfl
@[simp] theorem bufFreeAll_groups (f : Nat → Buf → Bool) : (bufFreeAll f s).groups = s.groups := rfl
@[simp] theorem bufFreeAll_ports (f : Nat → Buf → Bool) : (bufFreeAll f s).ports = s.ports := rfl
@[simp] theorem bufFreeAll_cages (f : Nat → Buf → Bool) : (bufFreeAll f s).cages = s.cages := rfl
@[simp] theorem bufFreeAll_i2c (f : Nat → Buf → Bool) : (bufFreeAll f s).i2c = s.i2c := rfl
@[simp] theorem bufFreeAll_sas (f : Nat → Buf → Bool) : (bufFreeAll f s).sas = s.sas := rfl
@[simp] theorem bufFreeAll_chans (f : Nat → Buf → Bool) : (bufFreeAll f s).chans = s.chans := rfl
@[simp] theorem bufFreeAll_exm (f : Nat → Buf → Bool) : (bufFreeAll f s).exm = s.exm := rfl
@[simp] theorem bufFreeAll_lpm (f : Nat → Buf → Bool) : (bufFreeAll f s).lpm = s.lpm := rfl
@[simp] theorem bufFreeAll_trie (f : Nat → Buf → Bool) : (bufFreeAll f s).trie = s.trie := rfl
@[simp] theorem bufFreeAll_tblBad (f : Nat → Buf → Bool) : (bufFreeAll f s).tblBad = s.tblBad := rfl
@[simp] theorem bufFreeAll_tcm (f : Nat → Buf → Bool) : (bufFreeAll f s).tcm = s.tcm := rfl
@[simp] theorem bufFreeAll_act (f : Nat → Buf → Bool) : (bufFreeAll f s).act = s.act := rfl
@[simp] theorem bufFreeAll_frames (f : Nat → Buf → Bool) : (bufFreeAll f s).frames = s.frames := rfl
@[simp] theorem bufFreeAll_fab (f : Nat → Buf → Bool) : (bufFreeAll f s).fab = { s.fab with bufs := s.fab.bufs.filter fun x => !f x.1 x.2 } := rfl
@[simp] theorem bufFreeAll_mem (f : Nat → Buf → Bool) : (bufFreeAll f s).mem = s.mem := rfl
@[simp] theorem bufFreeAll_dram (f : Nat → Buf → Bool) : (bufFreeAll f s).dram = s.dram := rfl
@[simp] theorem bufFreeAll_sch (f : Nat → Buf → Bool) : (bufFreeAll f s).sch = s.sch := rfl
@[simp] theorem bufFreeAll_cfb (f : Nat → Buf → Bool) : (bufFreeAll f s).cfb = s.cfb := rfl
@[simp] theorem bufFreeAll_engines (f : Nat → Buf → Bool) : (bufFreeAll f s).engines = s.engines := rfl
@[simp] theorem bufFreeAll_patch (f : Nat → Buf → Bool) : (bufFreeAll f s).patch = s.patch := rfl
@[simp] theorem bufFreeAll_hif (f : Nat → Buf → Bool) : (bufFreeAll f s).hif = s.hif := rfl
@[simp] theorem bufFreeAll_sec (f : Nat → Buf → Bool) : (bufFreeAll f s).sec = s.sec := rfl
@[simp] theorem bufFreeAll_flt (f : Nat → Buf → Bool) : (bufFreeAll f s).flt = s.flt := rfl
@[simp] theorem bufFreeAll_sens (f : Nat → Buf → Bool) : (bufFreeAll f s).sens = s.sens := rfl
@[simp] theorem bufFreeAll_ps (f : Nat → Buf → Bool) : (bufFreeAll f s).ps = s.ps := rfl
@[simp] theorem bufFreeAll_tel (f : Nat → Buf → Bool) : (bufFreeAll f s).tel = s.tel := rfl
@[simp] theorem bufFreeAll_out (f : Nat → Buf → Bool) : (bufFreeAll f s).out = s.out := rfl

@[simp] theorem writeMem_pending (a : Nat) (bs : List Byte) : (writeMem a bs s).pending = s.pending := rfl
@[simp] theorem writeMem_freeCtr (a : Nat) (bs : List Byte) : (writeMem a bs s).freeCtr = s.freeCtr := rfl
@[simp] theorem writeMem_serial (a : Nat) (bs : List Byte) : (writeMem a bs s).serial = s.serial := rfl
@[simp] theorem writeMem_ident (a : Nat) (bs : List Byte) : (writeMem a bs s).ident = s.ident := rfl
@[simp] theorem writeMem_regs (a : Nat) (bs : List Byte) : (writeMem a bs s).regs = s.regs := rfl
@[simp] theorem writeMem_pwr (a : Nat) (bs : List Byte) : (writeMem a bs s).pwr = s.pwr := rfl
@[simp] theorem writeMem_nvm (a : Nat) (bs : List Byte) : (writeMem a bs s).nvm = s.nvm := rfl
@[simp] theorem writeMem_opt (a : Nat) (bs : List Byte) : (writeMem a bs s).opt = s.opt := rfl
@[simp] theorem writeMem_tim (a : Nat) (bs : List Byte) : (writeMem a bs s).tim = s.tim := rfl
@[simp] theorem writeMem_img (a : Nat) (bs : List Byte) : (writeMem a bs s).img = s.img := rfl
@[simp] theorem writeMem_groups (a : Nat) (bs : List Byte) : (writeMem a bs s).groups = s.groups := rfl
@[simp] theorem writeMem_ports (a : Nat) (bs : List Byte) : (writeMem a bs s).ports = s.ports := rfl
@[simp] theorem writeMem_cages (a : Nat) (bs : List Byte) : (writeMem a bs s).cages = s.cages := rfl
@[simp] theorem writeMem_i2c (a : Nat) (bs : List Byte) : (writeMem a bs s).i2c = s.i2c := rfl
@[simp] theorem writeMem_sas (a : Nat) (bs : List Byte) : (writeMem a bs s).sas = s.sas := rfl
@[simp] theorem writeMem_chans (a : Nat) (bs : List Byte) : (writeMem a bs s).chans = s.chans := rfl
@[simp] theorem writeMem_exm (a : Nat) (bs : List Byte) : (writeMem a bs s).exm = s.exm := rfl
@[simp] theorem writeMem_lpm (a : Nat) (bs : List Byte) : (writeMem a bs s).lpm = s.lpm := rfl
@[simp] theorem writeMem_trie (a : Nat) (bs : List Byte) : (writeMem a bs s).trie = s.trie := rfl
@[simp] theorem writeMem_tblBad (a : Nat) (bs : List Byte) : (writeMem a bs s).tblBad = s.tblBad := rfl
@[simp] theorem writeMem_tcm (a : Nat) (bs : List Byte) : (writeMem a bs s).tcm = s.tcm := rfl
@[simp] theorem writeMem_act (a : Nat) (bs : List Byte) : (writeMem a bs s).act = s.act := rfl
@[simp] theorem writeMem_frames (a : Nat) (bs : List Byte) : (writeMem a bs s).frames = s.frames := rfl
@[simp] theorem writeMem_fab (a : Nat) (bs : List Byte) : (writeMem a bs s).fab = s.fab := rfl
@[simp] theorem writeMem_mem (a : Nat) (bs : List Byte) : (writeMem a bs s).mem = memWrite s.mem a bs := rfl
@[simp] theorem writeMem_dram (a : Nat) (bs : List Byte) : (writeMem a bs s).dram = s.dram := rfl
@[simp] theorem writeMem_sch (a : Nat) (bs : List Byte) : (writeMem a bs s).sch = s.sch := rfl
@[simp] theorem writeMem_cfb (a : Nat) (bs : List Byte) : (writeMem a bs s).cfb = s.cfb := rfl
@[simp] theorem writeMem_engines (a : Nat) (bs : List Byte) : (writeMem a bs s).engines = s.engines := rfl
@[simp] theorem writeMem_patch (a : Nat) (bs : List Byte) : (writeMem a bs s).patch = s.patch := rfl
@[simp] theorem writeMem_hif (a : Nat) (bs : List Byte) : (writeMem a bs s).hif = s.hif := rfl
@[simp] theorem writeMem_sec (a : Nat) (bs : List Byte) : (writeMem a bs s).sec = s.sec := rfl
@[simp] theorem writeMem_flt (a : Nat) (bs : List Byte) : (writeMem a bs s).flt = s.flt := rfl
@[simp] theorem writeMem_sens (a : Nat) (bs : List Byte) : (writeMem a bs s).sens = s.sens := rfl
@[simp] theorem writeMem_ps (a : Nat) (bs : List Byte) : (writeMem a bs s).ps = s.ps := rfl
@[simp] theorem writeMem_tel (a : Nat) (bs : List Byte) : (writeMem a bs s).tel = s.tel := rfl
@[simp] theorem writeMem_out (a : Nat) (bs : List Byte) : (writeMem a bs s).out = s.out := rfl

@[simp] theorem send_pending (src dst : Nat) (m : Msg) : (send src dst m s).pending = s.pending := rfl
@[simp] theorem send_freeCtr (src dst : Nat) (m : Msg) : (send src dst m s).freeCtr = s.freeCtr := rfl
@[simp] theorem send_serial (src dst : Nat) (m : Msg) : (send src dst m s).serial = s.serial := rfl
@[simp] theorem send_ident (src dst : Nat) (m : Msg) : (send src dst m s).ident = s.ident := rfl
@[simp] theorem send_regs (src dst : Nat) (m : Msg) : (send src dst m s).regs = s.regs := rfl
@[simp] theorem send_pwr (src dst : Nat) (m : Msg) : (send src dst m s).pwr = s.pwr := rfl
@[simp] theorem send_nvm (src dst : Nat) (m : Msg) : (send src dst m s).nvm = s.nvm := rfl
@[simp] theorem send_opt (src dst : Nat) (m : Msg) : (send src dst m s).opt = s.opt := rfl
@[simp] theorem send_tim (src dst : Nat) (m : Msg) : (send src dst m s).tim = s.tim := rfl
@[simp] theorem send_img (src dst : Nat) (m : Msg) : (send src dst m s).img = s.img := rfl
@[simp] theorem send_groups (src dst : Nat) (m : Msg) : (send src dst m s).groups = s.groups := rfl
@[simp] theorem send_ports (src dst : Nat) (m : Msg) : (send src dst m s).ports = s.ports := rfl
@[simp] theorem send_cages (src dst : Nat) (m : Msg) : (send src dst m s).cages = s.cages := rfl
@[simp] theorem send_i2c (src dst : Nat) (m : Msg) : (send src dst m s).i2c = s.i2c := rfl
@[simp] theorem send_sas (src dst : Nat) (m : Msg) : (send src dst m s).sas = s.sas := rfl
@[simp] theorem send_chans (src dst : Nat) (m : Msg) : (send src dst m s).chans = s.chans := rfl
@[simp] theorem send_exm (src dst : Nat) (m : Msg) : (send src dst m s).exm = s.exm := rfl
@[simp] theorem send_lpm (src dst : Nat) (m : Msg) : (send src dst m s).lpm = s.lpm := rfl
@[simp] theorem send_trie (src dst : Nat) (m : Msg) : (send src dst m s).trie = s.trie := rfl
@[simp] theorem send_tblBad (src dst : Nat) (m : Msg) : (send src dst m s).tblBad = s.tblBad := rfl
@[simp] theorem send_tcm (src dst : Nat) (m : Msg) : (send src dst m s).tcm = s.tcm := rfl
@[simp] theorem send_act (src dst : Nat) (m : Msg) : (send src dst m s).act = s.act := rfl
@[simp] theorem send_frames (src dst : Nat) (m : Msg) : (send src dst m s).frames = s.frames := rfl
@[simp] theorem send_fab (src dst : Nat) (m : Msg) : (send src dst m s).fab = { s.fab with wires := s.fab.wires ++ [wireOf src dst m] } := rfl
@[simp] theorem send_mem (src dst : Nat) (m : Msg) : (send src dst m s).mem = s.mem := rfl
@[simp] theorem send_dram (src dst : Nat) (m : Msg) : (send src dst m s).dram = s.dram := rfl
@[simp] theorem send_sch (src dst : Nat) (m : Msg) : (send src dst m s).sch = s.sch := rfl
@[simp] theorem send_cfb (src dst : Nat) (m : Msg) : (send src dst m s).cfb = s.cfb := rfl
@[simp] theorem send_engines (src dst : Nat) (m : Msg) : (send src dst m s).engines = s.engines := rfl
@[simp] theorem send_patch (src dst : Nat) (m : Msg) : (send src dst m s).patch = s.patch := rfl
@[simp] theorem send_hif (src dst : Nat) (m : Msg) : (send src dst m s).hif = s.hif := rfl
@[simp] theorem send_sec (src dst : Nat) (m : Msg) : (send src dst m s).sec = s.sec := rfl
@[simp] theorem send_flt (src dst : Nat) (m : Msg) : (send src dst m s).flt = s.flt := rfl
@[simp] theorem send_sens (src dst : Nat) (m : Msg) : (send src dst m s).sens = s.sens := rfl
@[simp] theorem send_ps (src dst : Nat) (m : Msg) : (send src dst m s).ps = s.ps := rfl
@[simp] theorem send_tel (src dst : Nat) (m : Msg) : (send src dst m s).tel = s.tel := rfl
@[simp] theorem send_out (src dst : Nat) (m : Msg) : (send src dst m s).out = s.out := rfl

@[simp] theorem setFrame_pending (fid : Nat) (g : Frame → Frame) : (setFrame fid g s).pending = s.pending := rfl
@[simp] theorem setFrame_freeCtr (fid : Nat) (g : Frame → Frame) : (setFrame fid g s).freeCtr = s.freeCtr := rfl
@[simp] theorem setFrame_serial (fid : Nat) (g : Frame → Frame) : (setFrame fid g s).serial = s.serial := rfl
@[simp] theorem setFrame_ident (fid : Nat) (g : Frame → Frame) : (setFrame fid g s).ident = s.ident := rfl
@[simp] theorem setFrame_regs (fid : Nat) (g : Frame → Frame) : (setFrame fid g s).regs = s.regs := rfl
@[simp] theorem setFrame_pwr (fid : Nat) (g : Frame → Frame) : (setFrame fid g s).pwr = s.pwr := rfl
@[simp] theorem setFrame_nvm (fid : Nat) (g : Frame → Frame) : (setFrame fid g s).nvm = s.nvm := rfl
@[simp] theorem setFrame_opt (fid : Nat) (g : Frame → Frame) : (setFrame fid g s).opt = s.opt := rfl
@[simp] theorem setFrame_tim (fid : Nat) (g : Frame → Frame) : (setFrame fid g s).tim = s.tim := rfl
@[simp] theorem setFrame_img (fid : Nat) (g : Frame → Frame) : (setFrame fid g s).img = s.img := rfl
@[simp] theorem setFrame_groups (fid : Nat) (g : Frame → Frame) : (setFrame fid g s).groups = s.groups := rfl
@[simp] theorem setFrame_ports (fid : Nat) (g : Frame → Frame) : (setFrame fid g s).ports = s.ports := rfl
@[simp] theorem setFrame_cages (fid : Nat) (g : Frame → Frame) : (setFrame fid g s).cages = s.cages := rfl
@[simp] theorem setFrame_i2c (fid : Nat) (g : Frame → Frame) : (setFrame fid g s).i2c = s.i2c := rfl
@[simp] theorem setFrame_sas (fid : Nat) (g : Frame → Frame) : (setFrame fid g s).sas = s.sas := rfl
@[simp] theorem setFrame_chans (fid : Nat) (g : Frame → Frame) : (setFrame fid g s).chans = s.chans := rfl
@[simp] theorem setFrame_exm (fid : Nat) (g : Frame → Frame) : (setFrame fid g s).exm = s.exm := rfl
@[simp] theorem setFrame_lpm (fid : Nat) (g : Frame → Frame) : (setFrame fid g s).lpm = s.lpm := rfl
@[simp] theorem setFrame_trie (fid : Nat) (g : Frame → Frame) : (setFrame fid g s).trie = s.trie := rfl
@[simp] theorem setFrame_tblBad (fid : Nat) (g : Frame → Frame) : (setFrame fid g s).tblBad = s.tblBad := rfl
@[simp] theorem setFrame_tcm (fid : Nat) (g : Frame → Frame) : (setFrame fid g s).tcm = s.tcm := rfl
@[simp] theorem setFrame_act (fid : Nat) (g : Frame → Frame) : (setFrame fid g s).act = s.act := rfl
@[simp] theorem setFrame_frames (fid : Nat) (g : Frame → Frame) : (setFrame fid g s).frames = s.frames.map fun f => if f.fid = fid then g f else f := rfl
@[simp] theorem setFrame_fab (fid : Nat) (g : Frame → Frame) : (setFrame fid g s).fab = s.fab := rfl
@[simp] theorem setFrame_mem (fid : Nat) (g : Frame → Frame) : (setFrame fid g s).mem = s.mem := rfl
@[simp] theorem setFrame_dram (fid : Nat) (g : Frame → Frame) : (setFrame fid g s).dram = s.dram := rfl
@[simp] theorem setFrame_sch (fid : Nat) (g : Frame → Frame) : (setFrame fid g s).sch = s.sch := rfl
@[simp] theorem setFrame_cfb (fid : Nat) (g : Frame → Frame) : (setFrame fid g s).cfb = s.cfb := rfl
@[simp] theorem setFrame_engines (fid : Nat) (g : Frame → Frame) : (setFrame fid g s).engines = s.engines := rfl
@[simp] theorem setFrame_patch (fid : Nat) (g : Frame → Frame) : (setFrame fid g s).patch = s.patch := rfl
@[simp] theorem setFrame_hif (fid : Nat) (g : Frame → Frame) : (setFrame fid g s).hif = s.hif := rfl
@[simp] theorem setFrame_sec (fid : Nat) (g : Frame → Frame) : (setFrame fid g s).sec = s.sec := rfl
@[simp] theorem setFrame_flt (fid : Nat) (g : Frame → Frame) : (setFrame fid g s).flt = s.flt := rfl
@[simp] theorem setFrame_sens (fid : Nat) (g : Frame → Frame) : (setFrame fid g s).sens = s.sens := rfl
@[simp] theorem setFrame_ps (fid : Nat) (g : Frame → Frame) : (setFrame fid g s).ps = s.ps := rfl
@[simp] theorem setFrame_tel (fid : Nat) (g : Frame → Frame) : (setFrame fid g s).tel = s.tel := rfl
@[simp] theorem setFrame_out (fid : Nat) (g : Frame → Frame) : (setFrame fid g s).out = s.out := rfl

@[simp] theorem dropFrame_pending (fid : Nat) : (dropFrame fid s).pending = s.pending := rfl
@[simp] theorem dropFrame_freeCtr (fid : Nat) : (dropFrame fid s).freeCtr = s.freeCtr := rfl
@[simp] theorem dropFrame_serial (fid : Nat) : (dropFrame fid s).serial = s.serial := rfl
@[simp] theorem dropFrame_ident (fid : Nat) : (dropFrame fid s).ident = s.ident := rfl
@[simp] theorem dropFrame_regs (fid : Nat) : (dropFrame fid s).regs = s.regs := rfl
@[simp] theorem dropFrame_pwr (fid : Nat) : (dropFrame fid s).pwr = s.pwr := rfl
@[simp] theorem dropFrame_nvm (fid : Nat) : (dropFrame fid s).nvm = s.nvm := rfl
@[simp] theorem dropFrame_opt (fid : Nat) : (dropFrame fid s).opt = s.opt := rfl
@[simp] theorem dropFrame_tim (fid : Nat) : (dropFrame fid s).tim = s.tim := rfl
@[simp] theorem dropFrame_img (fid : Nat) : (dropFrame fid s).img = s.img := rfl
@[simp] theorem dropFrame_groups (fid : Nat) : (dropFrame fid s).groups = s.groups := rfl
@[simp] theorem dropFrame_ports (fid : Nat) : (dropFrame fid s).ports = s.ports := rfl
@[simp] theorem dropFrame_cages (fid : Nat) : (dropFrame fid s).cages = s.cages := rfl
@[simp] theorem dropFrame_i2c (fid : Nat) : (dropFrame fid s).i2c = s.i2c := rfl
@[simp] theorem dropFrame_sas (fid : Nat) : (dropFrame fid s).sas = s.sas := rfl
@[simp] theorem dropFrame_chans (fid : Nat) : (dropFrame fid s).chans = s.chans := rfl
@[simp] theorem dropFrame_exm (fid : Nat) : (dropFrame fid s).exm = s.exm := rfl
@[simp] theorem dropFrame_lpm (fid : Nat) : (dropFrame fid s).lpm = s.lpm := rfl
@[simp] theorem dropFrame_trie (fid : Nat) : (dropFrame fid s).trie = s.trie := rfl
@[simp] theorem dropFrame_tblBad (fid : Nat) : (dropFrame fid s).tblBad = s.tblBad := rfl
@[simp] theorem dropFrame_tcm (fid : Nat) : (dropFrame fid s).tcm = s.tcm := rfl
@[simp] theorem dropFrame_act (fid : Nat) : (dropFrame fid s).act = s.act := rfl
@[simp] theorem dropFrame_fab (fid : Nat) : (dropFrame fid s).fab = s.fab := rfl
@[simp] theorem dropFrame_mem (fid : Nat) : (dropFrame fid s).mem = s.mem := rfl
@[simp] theorem dropFrame_dram (fid : Nat) : (dropFrame fid s).dram = s.dram := rfl
@[simp] theorem dropFrame_sch (fid : Nat) : (dropFrame fid s).sch = s.sch := rfl
@[simp] theorem dropFrame_cfb (fid : Nat) : (dropFrame fid s).cfb = s.cfb := rfl
@[simp] theorem dropFrame_engines (fid : Nat) : (dropFrame fid s).engines = s.engines := rfl
@[simp] theorem dropFrame_patch (fid : Nat) : (dropFrame fid s).patch = s.patch := rfl
@[simp] theorem dropFrame_hif (fid : Nat) : (dropFrame fid s).hif = s.hif := rfl
@[simp] theorem dropFrame_sec (fid : Nat) : (dropFrame fid s).sec = s.sec := rfl
@[simp] theorem dropFrame_flt (fid : Nat) : (dropFrame fid s).flt = s.flt := rfl
@[simp] theorem dropFrame_sens (fid : Nat) : (dropFrame fid s).sens = s.sens := rfl
@[simp] theorem dropFrame_ps (fid : Nat) : (dropFrame fid s).ps = s.ps := rfl
@[simp] theorem dropFrame_tel (fid : Nat) : (dropFrame fid s).tel = s.tel := rfl
@[simp] theorem dropFrame_out (fid : Nat) : (dropFrame fid s).out = s.out := rfl

@[simp] theorem setChannel_pending (c : Nat) (f : Channel → Channel) : (setChannel c f s).pending = s.pending := rfl
@[simp] theorem setChannel_freeCtr (c : Nat) (f : Channel → Channel) : (setChannel c f s).freeCtr = s.freeCtr := rfl
@[simp] theorem setChannel_serial (c : Nat) (f : Channel → Channel) : (setChannel c f s).serial = s.serial := rfl
@[simp] theorem setChannel_ident (c : Nat) (f : Channel → Channel) : (setChannel c f s).ident = s.ident := rfl
@[simp] theorem setChannel_regs (c : Nat) (f : Channel → Channel) : (setChannel c f s).regs = s.regs := rfl
@[simp] theorem setChannel_pwr (c : Nat) (f : Channel → Channel) : (setChannel c f s).pwr = s.pwr := rfl
@[simp] theorem setChannel_nvm (c : Nat) (f : Channel → Channel) : (setChannel c f s).nvm = s.nvm := rfl
@[simp] theorem setChannel_opt (c : Nat) (f : Channel → Channel) : (setChannel c f s).opt = s.opt := rfl
@[simp] theorem setChannel_tim (c : Nat) (f : Channel → Channel) : (setChannel c f s).tim = s.tim := rfl
@[simp] theorem setChannel_img (c : Nat) (f : Channel → Channel) : (setChannel c f s).img = s.img := rfl
@[simp] theorem setChannel_groups (c : Nat) (f : Channel → Channel) : (setChannel c f s).groups = s.groups := rfl
@[simp] theorem setChannel_ports (c : Nat) (f : Channel → Channel) : (setChannel c f s).ports = s.ports := rfl
@[simp] theorem setChannel_cages (c : Nat) (f : Channel → Channel) : (setChannel c f s).cages = s.cages := rfl
@[simp] theorem setChannel_i2c (c : Nat) (f : Channel → Channel) : (setChannel c f s).i2c = s.i2c := rfl
@[simp] theorem setChannel_sas (c : Nat) (f : Channel → Channel) : (setChannel c f s).sas = s.sas := rfl
@[simp] theorem setChannel_chans (c : Nat) (f : Channel → Channel) : (setChannel c f s).chans = s.chans := rfl
@[simp] theorem setChannel_exm (c : Nat) (f : Channel → Channel) : (setChannel c f s).exm = s.exm := rfl
@[simp] theorem setChannel_lpm (c : Nat) (f : Channel → Channel) : (setChannel c f s).lpm = s.lpm := rfl
@[simp] theorem setChannel_trie (c : Nat) (f : Channel → Channel) : (setChannel c f s).trie = s.trie := rfl
@[simp] theorem setChannel_tblBad (c : Nat) (f : Channel → Channel) : (setChannel c f s).tblBad = s.tblBad := rfl
@[simp] theorem setChannel_tcm (c : Nat) (f : Channel → Channel) : (setChannel c f s).tcm = s.tcm := rfl
@[simp] theorem setChannel_act (c : Nat) (f : Channel → Channel) : (setChannel c f s).act = s.act := rfl
@[simp] theorem setChannel_frames (c : Nat) (f : Channel → Channel) : (setChannel c f s).frames = s.frames := rfl
@[simp] theorem setChannel_fab (c : Nat) (f : Channel → Channel) : (setChannel c f s).fab = s.fab := rfl
@[simp] theorem setChannel_mem (c : Nat) (f : Channel → Channel) : (setChannel c f s).mem = s.mem := rfl
@[simp] theorem setChannel_dram (c : Nat) (f : Channel → Channel) : (setChannel c f s).dram = tupd s.dram c f := rfl
@[simp] theorem setChannel_sch (c : Nat) (f : Channel → Channel) : (setChannel c f s).sch = s.sch := rfl
@[simp] theorem setChannel_cfb (c : Nat) (f : Channel → Channel) : (setChannel c f s).cfb = s.cfb := rfl
@[simp] theorem setChannel_engines (c : Nat) (f : Channel → Channel) : (setChannel c f s).engines = s.engines := rfl
@[simp] theorem setChannel_patch (c : Nat) (f : Channel → Channel) : (setChannel c f s).patch = s.patch := rfl
@[simp] theorem setChannel_hif (c : Nat) (f : Channel → Channel) : (setChannel c f s).hif = s.hif := rfl
@[simp] theorem setChannel_sec (c : Nat) (f : Channel → Channel) : (setChannel c f s).sec = s.sec := rfl
@[simp] theorem setChannel_flt (c : Nat) (f : Channel → Channel) : (setChannel c f s).flt = s.flt := rfl
@[simp] theorem setChannel_sens (c : Nat) (f : Channel → Channel) : (setChannel c f s).sens = s.sens := rfl
@[simp] theorem setChannel_ps (c : Nat) (f : Channel → Channel) : (setChannel c f s).ps = s.ps := rfl
@[simp] theorem setChannel_tel (c : Nat) (f : Channel → Channel) : (setChannel c f s).tel = s.tel := rfl
@[simp] theorem setChannel_out (c : Nat) (f : Channel → Channel) : (setChannel c f s).out = s.out := rfl

@[simp] theorem setEngine_pending (e : Nat) (f : Engine → Engine) : (setEngine e f s).pending = s.pending := rfl
@[simp] theorem setEngine_freeCtr (e : Nat) (f : Engine → Engine) : (setEngine e f s).freeCtr = s.freeCtr := rfl
@[simp] theorem setEngine_serial (e : Nat) (f : Engine → Engine) : (setEngine e f s).serial = s.serial := rfl
@[simp] theorem setEngine_ident (e : Nat) (f : Engine → Engine) : (setEngine e f s).ident = s.ident := rfl
@[simp] theorem setEngine_regs (e : Nat) (f : Engine → Engine) : (setEngine e f s).regs = s.regs := rfl
@[simp] theorem setEngine_pwr (e : Nat) (f : Engine → Engine) : (setEngine e f s).pwr = s.pwr := rfl
@[simp] theorem setEngine_nvm (e : Nat) (f : Engine → Engine) : (setEngine e f s).nvm = s.nvm := rfl
@[simp] theorem setEngine_opt (e : Nat) (f : Engine → Engine) : (setEngine e f s).opt = s.opt := rfl
@[simp] theorem setEngine_tim (e : Nat) (f : Engine → Engine) : (setEngine e f s).tim = s.tim := rfl
@[simp] theorem setEngine_img (e : Nat) (f : Engine → Engine) : (setEngine e f s).img = s.img := rfl
@[simp] theorem setEngine_groups (e : Nat) (f : Engine → Engine) : (setEngine e f s).groups = s.groups := rfl
@[simp] theorem setEngine_ports (e : Nat) (f : Engine → Engine) : (setEngine e f s).ports = s.ports := rfl
@[simp] theorem setEngine_cages (e : Nat) (f : Engine → Engine) : (setEngine e f s).cages = s.cages := rfl
@[simp] theorem setEngine_i2c (e : Nat) (f : Engine → Engine) : (setEngine e f s).i2c = s.i2c := rfl
@[simp] theorem setEngine_sas (e : Nat) (f : Engine → Engine) : (setEngine e f s).sas = s.sas := rfl
@[simp] theorem setEngine_chans (e : Nat) (f : Engine → Engine) : (setEngine e f s).chans = s.chans := rfl
@[simp] theorem setEngine_exm (e : Nat) (f : Engine → Engine) : (setEngine e f s).exm = s.exm := rfl
@[simp] theorem setEngine_lpm (e : Nat) (f : Engine → Engine) : (setEngine e f s).lpm = s.lpm := rfl
@[simp] theorem setEngine_trie (e : Nat) (f : Engine → Engine) : (setEngine e f s).trie = s.trie := rfl
@[simp] theorem setEngine_tblBad (e : Nat) (f : Engine → Engine) : (setEngine e f s).tblBad = s.tblBad := rfl
@[simp] theorem setEngine_tcm (e : Nat) (f : Engine → Engine) : (setEngine e f s).tcm = s.tcm := rfl
@[simp] theorem setEngine_act (e : Nat) (f : Engine → Engine) : (setEngine e f s).act = s.act := rfl
@[simp] theorem setEngine_frames (e : Nat) (f : Engine → Engine) : (setEngine e f s).frames = s.frames := rfl
@[simp] theorem setEngine_fab (e : Nat) (f : Engine → Engine) : (setEngine e f s).fab = s.fab := rfl
@[simp] theorem setEngine_mem (e : Nat) (f : Engine → Engine) : (setEngine e f s).mem = s.mem := rfl
@[simp] theorem setEngine_dram (e : Nat) (f : Engine → Engine) : (setEngine e f s).dram = s.dram := rfl
@[simp] theorem setEngine_sch (e : Nat) (f : Engine → Engine) : (setEngine e f s).sch = s.sch := rfl
@[simp] theorem setEngine_cfb (e : Nat) (f : Engine → Engine) : (setEngine e f s).cfb = s.cfb := rfl
@[simp] theorem setEngine_engines (e : Nat) (f : Engine → Engine) : (setEngine e f s).engines = tupd s.engines e f := rfl
@[simp] theorem setEngine_patch (e : Nat) (f : Engine → Engine) : (setEngine e f s).patch = s.patch := rfl
@[simp] theorem setEngine_hif (e : Nat) (f : Engine → Engine) : (setEngine e f s).hif = s.hif := rfl
@[simp] theorem setEngine_sec (e : Nat) (f : Engine → Engine) : (setEngine e f s).sec = s.sec := rfl
@[simp] theorem setEngine_flt (e : Nat) (f : Engine → Engine) : (setEngine e f s).flt = s.flt := rfl
@[simp] theorem setEngine_sens (e : Nat) (f : Engine → Engine) : (setEngine e f s).sens = s.sens := rfl
@[simp] theorem setEngine_ps (e : Nat) (f : Engine → Engine) : (setEngine e f s).ps = s.ps := rfl
@[simp] theorem setEngine_tel (e : Nat) (f : Engine → Engine) : (setEngine e f s).tel = s.tel := rfl
@[simp] theorem setEngine_out (e : Nat) (f : Engine → Engine) : (setEngine e f s).out = s.out := rfl

@[simp] theorem clearSas_pending (p : Nat) : (clearSas p s).pending = s.pending := rfl
@[simp] theorem clearSas_freeCtr (p : Nat) : (clearSas p s).freeCtr = s.freeCtr := rfl
@[simp] theorem clearSas_serial (p : Nat) : (clearSas p s).serial = s.serial := rfl
@[simp] theorem clearSas_ident (p : Nat) : (clearSas p s).ident = s.ident := rfl
@[simp] theorem clearSas_regs (p : Nat) : (clearSas p s).regs = s.regs := rfl
@[simp] theorem clearSas_pwr (p : Nat) : (clearSas p s).pwr = s.pwr := rfl
@[simp] theorem clearSas_nvm (p : Nat) : (clearSas p s).nvm = s.nvm := rfl
@[simp] theorem clearSas_opt (p : Nat) : (clearSas p s).opt = s.opt := rfl
@[simp] theorem clearSas_tim (p : Nat) : (clearSas p s).tim = s.tim := rfl
@[simp] theorem clearSas_img (p : Nat) : (clearSas p s).img = s.img := rfl
@[simp] theorem clearSas_groups (p : Nat) : (clearSas p s).groups = s.groups := rfl
@[simp] theorem clearSas_ports (p : Nat) : (clearSas p s).ports = s.ports := rfl
@[simp] theorem clearSas_cages (p : Nat) : (clearSas p s).cages = s.cages := rfl
@[simp] theorem clearSas_i2c (p : Nat) : (clearSas p s).i2c = s.i2c := rfl
@[simp] theorem clearSas_sas (p : Nat) : (clearSas p s).sas = s.sas.filter fun x => x.1 / 64 ≠ p := rfl
@[simp] theorem clearSas_chans (p : Nat) : (clearSas p s).chans = s.chans.filter fun x => x.1 / 64 ≠ p := rfl
@[simp] theorem clearSas_exm (p : Nat) : (clearSas p s).exm = s.exm := rfl
@[simp] theorem clearSas_lpm (p : Nat) : (clearSas p s).lpm = s.lpm := rfl
@[simp] theorem clearSas_trie (p : Nat) : (clearSas p s).trie = s.trie := rfl
@[simp] theorem clearSas_tblBad (p : Nat) : (clearSas p s).tblBad = s.tblBad := rfl
@[simp] theorem clearSas_tcm (p : Nat) : (clearSas p s).tcm = s.tcm := rfl
@[simp] theorem clearSas_act (p : Nat) : (clearSas p s).act = s.act := rfl
@[simp] theorem clearSas_frames (p : Nat) : (clearSas p s).frames = s.frames := rfl
@[simp] theorem clearSas_fab (p : Nat) : (clearSas p s).fab = s.fab := rfl
@[simp] theorem clearSas_mem (p : Nat) : (clearSas p s).mem = s.mem := rfl
@[simp] theorem clearSas_dram (p : Nat) : (clearSas p s).dram = s.dram := rfl
@[simp] theorem clearSas_sch (p : Nat) : (clearSas p s).sch = s.sch := rfl
@[simp] theorem clearSas_cfb (p : Nat) : (clearSas p s).cfb = s.cfb := rfl
@[simp] theorem clearSas_engines (p : Nat) : (clearSas p s).engines = s.engines := rfl
@[simp] theorem clearSas_patch (p : Nat) : (clearSas p s).patch = s.patch := rfl
@[simp] theorem clearSas_hif (p : Nat) : (clearSas p s).hif = s.hif := rfl
@[simp] theorem clearSas_sec (p : Nat) : (clearSas p s).sec = s.sec := rfl
@[simp] theorem clearSas_flt (p : Nat) : (clearSas p s).flt = s.flt := rfl
@[simp] theorem clearSas_sens (p : Nat) : (clearSas p s).sens = s.sens := rfl
@[simp] theorem clearSas_ps (p : Nat) : (clearSas p s).ps = s.ps := rfl
@[simp] theorem clearSas_tel (p : Nat) : (clearSas p s).tel = s.tel := rfl
@[simp] theorem clearSas_out (p : Nat) : (clearSas p s).out = s.out := rfl

@[simp] theorem setCage_pending (c : Nat) (f : Cage → Cage) : (setCage c f s).pending = s.pending := rfl
@[simp] theorem setCage_freeCtr (c : Nat) (f : Cage → Cage) : (setCage c f s).freeCtr = s.freeCtr := rfl
@[simp] theorem setCage_serial (c : Nat) (f : Cage → Cage) : (setCage c f s).serial = s.serial := rfl
@[simp] theorem setCage_ident (c : Nat) (f : Cage → Cage) : (setCage c f s).ident = s.ident := rfl
@[simp] theorem setCage_regs (c : Nat) (f : Cage → Cage) : (setCage c f s).regs = s.regs := rfl
@[simp] theorem setCage_pwr (c : Nat) (f : Cage → Cage) : (setCage c f s).pwr = s.pwr := rfl
@[simp] theorem setCage_nvm (c : Nat) (f : Cage → Cage) : (setCage c f s).nvm = s.nvm := rfl
@[simp] theorem setCage_opt (c : Nat) (f : Cage → Cage) : (setCage c f s).opt = s.opt := rfl
@[simp] theorem setCage_tim (c : Nat) (f : Cage → Cage) : (setCage c f s).tim = s.tim := rfl
@[simp] theorem setCage_img (c : Nat) (f : Cage → Cage) : (setCage c f s).img = s.img := rfl
@[simp] theorem setCage_groups (c : Nat) (f : Cage → Cage) : (setCage c f s).groups = s.groups := rfl
@[simp] theorem setCage_ports (c : Nat) (f : Cage → Cage) : (setCage c f s).ports = s.ports := rfl
@[simp] theorem setCage_cages (c : Nat) (f : Cage → Cage) : (setCage c f s).cages = tupd s.cages c f := rfl
@[simp] theorem setCage_i2c (c : Nat) (f : Cage → Cage) : (setCage c f s).i2c = s.i2c := rfl
@[simp] theorem setCage_sas (c : Nat) (f : Cage → Cage) : (setCage c f s).sas = s.sas := rfl
@[simp] theorem setCage_chans (c : Nat) (f : Cage → Cage) : (setCage c f s).chans = s.chans := rfl
@[simp] theorem setCage_exm (c : Nat) (f : Cage → Cage) : (setCage c f s).exm = s.exm := rfl
@[simp] theorem setCage_lpm (c : Nat) (f : Cage → Cage) : (setCage c f s).lpm = s.lpm := rfl
@[simp] theorem setCage_trie (c : Nat) (f : Cage → Cage) : (setCage c f s).trie = s.trie := rfl
@[simp] theorem setCage_tblBad (c : Nat) (f : Cage → Cage) : (setCage c f s).tblBad = s.tblBad := rfl
@[simp] theorem setCage_tcm (c : Nat) (f : Cage → Cage) : (setCage c f s).tcm = s.tcm := rfl
@[simp] theorem setCage_act (c : Nat) (f : Cage → Cage) : (setCage c f s).act = s.act := rfl
@[simp] theorem setCage_frames (c : Nat) (f : Cage → Cage) : (setCage c f s).frames = s.frames := rfl
@[simp] theorem setCage_fab (c : Nat) (f : Cage → Cage) : (setCage c f s).fab = s.fab := rfl
@[simp] theorem setCage_mem (c : Nat) (f : Cage → Cage) : (setCage c f s).mem = s.mem := rfl
@[simp] theorem setCage_dram (c : Nat) (f : Cage → Cage) : (setCage c f s).dram = s.dram := rfl
@[simp] theorem setCage_sch (c : Nat) (f : Cage → Cage) : (setCage c f s).sch = s.sch := rfl
@[simp] theorem setCage_cfb (c : Nat) (f : Cage → Cage) : (setCage c f s).cfb = s.cfb := rfl
@[simp] theorem setCage_engines (c : Nat) (f : Cage → Cage) : (setCage c f s).engines = s.engines := rfl
@[simp] theorem setCage_patch (c : Nat) (f : Cage → Cage) : (setCage c f s).patch = s.patch := rfl
@[simp] theorem setCage_hif (c : Nat) (f : Cage → Cage) : (setCage c f s).hif = s.hif := rfl
@[simp] theorem setCage_sec (c : Nat) (f : Cage → Cage) : (setCage c f s).sec = s.sec := rfl
@[simp] theorem setCage_flt (c : Nat) (f : Cage → Cage) : (setCage c f s).flt = s.flt := rfl
@[simp] theorem setCage_sens (c : Nat) (f : Cage → Cage) : (setCage c f s).sens = s.sens := rfl
@[simp] theorem setCage_ps (c : Nat) (f : Cage → Cage) : (setCage c f s).ps = s.ps := rfl
@[simp] theorem setCage_tel (c : Nat) (f : Cage → Cage) : (setCage c f s).tel = s.tel := rfl
@[simp] theorem setCage_out (c : Nat) (f : Cage → Cage) : (setCage c f s).out = s.out := rfl

@[simp] theorem setSens_pending (t : Nat) (f : Sensors → Sensors) : (setSens t f s).pending = s.pending := rfl
@[simp] theorem setSens_freeCtr (t : Nat) (f : Sensors → Sensors) : (setSens t f s).freeCtr = s.freeCtr := rfl
@[simp] theorem setSens_serial (t : Nat) (f : Sensors → Sensors) : (setSens t f s).serial = s.serial := rfl
@[simp] theorem setSens_ident (t : Nat) (f : Sensors → Sensors) : (setSens t f s).ident = s.ident := rfl
@[simp] theorem setSens_regs (t : Nat) (f : Sensors → Sensors) : (setSens t f s).regs = s.regs := rfl
@[simp] theorem setSens_pwr (t : Nat) (f : Sensors → Sensors) : (setSens t f s).pwr = s.pwr := rfl
@[simp] theorem setSens_nvm (t : Nat) (f : Sensors → Sensors) : (setSens t f s).nvm = s.nvm := rfl
@[simp] theorem setSens_opt (t : Nat) (f : Sensors → Sensors) : (setSens t f s).opt = s.opt := rfl
@[simp] theorem setSens_tim (t : Nat) (f : Sensors → Sensors) : (setSens t f s).tim = s.tim := rfl
@[simp] theorem setSens_img (t : Nat) (f : Sensors → Sensors) : (setSens t f s).img = s.img := rfl
@[simp] theorem setSens_groups (t : Nat) (f : Sensors → Sensors) : (setSens t f s).groups = s.groups := rfl
@[simp] theorem setSens_ports (t : Nat) (f : Sensors → Sensors) : (setSens t f s).ports = s.ports := rfl
@[simp] theorem setSens_cages (t : Nat) (f : Sensors → Sensors) : (setSens t f s).cages = s.cages := rfl
@[simp] theorem setSens_i2c (t : Nat) (f : Sensors → Sensors) : (setSens t f s).i2c = s.i2c := rfl
@[simp] theorem setSens_sas (t : Nat) (f : Sensors → Sensors) : (setSens t f s).sas = s.sas := rfl
@[simp] theorem setSens_chans (t : Nat) (f : Sensors → Sensors) : (setSens t f s).chans = s.chans := rfl
@[simp] theorem setSens_exm (t : Nat) (f : Sensors → Sensors) : (setSens t f s).exm = s.exm := rfl
@[simp] theorem setSens_lpm (t : Nat) (f : Sensors → Sensors) : (setSens t f s).lpm = s.lpm := rfl
@[simp] theorem setSens_trie (t : Nat) (f : Sensors → Sensors) : (setSens t f s).trie = s.trie := rfl
@[simp] theorem setSens_tblBad (t : Nat) (f : Sensors → Sensors) : (setSens t f s).tblBad = s.tblBad := rfl
@[simp] theorem setSens_tcm (t : Nat) (f : Sensors → Sensors) : (setSens t f s).tcm = s.tcm := rfl
@[simp] theorem setSens_act (t : Nat) (f : Sensors → Sensors) : (setSens t f s).act = s.act := rfl
@[simp] theorem setSens_frames (t : Nat) (f : Sensors → Sensors) : (setSens t f s).frames = s.frames := rfl
@[simp] theorem setSens_fab (t : Nat) (f : Sensors → Sensors) : (setSens t f s).fab = s.fab := rfl
@[simp] theorem setSens_mem (t : Nat) (f : Sensors → Sensors) : (setSens t f s).mem = s.mem := rfl
@[simp] theorem setSens_dram (t : Nat) (f : Sensors → Sensors) : (setSens t f s).dram = s.dram := rfl
@[simp] theorem setSens_sch (t : Nat) (f : Sensors → Sensors) : (setSens t f s).sch = s.sch := rfl
@[simp] theorem setSens_cfb (t : Nat) (f : Sensors → Sensors) : (setSens t f s).cfb = s.cfb := rfl
@[simp] theorem setSens_engines (t : Nat) (f : Sensors → Sensors) : (setSens t f s).engines = s.engines := rfl
@[simp] theorem setSens_patch (t : Nat) (f : Sensors → Sensors) : (setSens t f s).patch = s.patch := rfl
@[simp] theorem setSens_hif (t : Nat) (f : Sensors → Sensors) : (setSens t f s).hif = s.hif := rfl
@[simp] theorem setSens_sec (t : Nat) (f : Sensors → Sensors) : (setSens t f s).sec = s.sec := rfl
@[simp] theorem setSens_flt (t : Nat) (f : Sensors → Sensors) : (setSens t f s).flt = s.flt := rfl
@[simp] theorem setSens_sens (t : Nat) (f : Sensors → Sensors) : (setSens t f s).sens = tupd s.sens t f := rfl
@[simp] theorem setSens_ps (t : Nat) (f : Sensors → Sensors) : (setSens t f s).ps = s.ps := rfl
@[simp] theorem setSens_tel (t : Nat) (f : Sensors → Sensors) : (setSens t f s).tel = s.tel := rfl
@[simp] theorem setSens_out (t : Nat) (f : Sensors → Sensors) : (setSens t f s).out = s.out := rfl

@[simp] theorem setSec_pending (f : Sec → Sec) : (setSec f s).pending = s.pending := rfl
@[simp] theorem setSec_freeCtr (f : Sec → Sec) : (setSec f s).freeCtr = s.freeCtr := rfl
@[simp] theorem setSec_serial (f : Sec → Sec) : (setSec f s).serial = s.serial := rfl
@[simp] theorem setSec_ident (f : Sec → Sec) : (setSec f s).ident = s.ident := rfl
@[simp] theorem setSec_regs (f : Sec → Sec) : (setSec f s).regs = s.regs := rfl
@[simp] theorem setSec_pwr (f : Sec → Sec) : (setSec f s).pwr = s.pwr := rfl
@[simp] theorem setSec_nvm (f : Sec → Sec) : (setSec f s).nvm = s.nvm := rfl
@[simp] theorem setSec_opt (f : Sec → Sec) : (setSec f s).opt = s.opt := rfl
@[simp] theorem setSec_tim (f : Sec → Sec) : (setSec f s).tim = s.tim := rfl
@[simp] theorem setSec_img (f : Sec → Sec) : (setSec f s).img = s.img := rfl
@[simp] theorem setSec_groups (f : Sec → Sec) : (setSec f s).groups = s.groups := rfl
@[simp] theorem setSec_ports (f : Sec → Sec) : (setSec f s).ports = s.ports := rfl
@[simp] theorem setSec_cages (f : Sec → Sec) : (setSec f s).cages = s.cages := rfl
@[simp] theorem setSec_i2c (f : Sec → Sec) : (setSec f s).i2c = s.i2c := rfl
@[simp] theorem setSec_sas (f : Sec → Sec) : (setSec f s).sas = s.sas := rfl
@[simp] theorem setSec_chans (f : Sec → Sec) : (setSec f s).chans = s.chans := rfl
@[simp] theorem setSec_exm (f : Sec → Sec) : (setSec f s).exm = s.exm := rfl
@[simp] theorem setSec_lpm (f : Sec → Sec) : (setSec f s).lpm = s.lpm := rfl
@[simp] theorem setSec_trie (f : Sec → Sec) : (setSec f s).trie = s.trie := rfl
@[simp] theorem setSec_tblBad (f : Sec → Sec) : (setSec f s).tblBad = s.tblBad := rfl
@[simp] theorem setSec_tcm (f : Sec → Sec) : (setSec f s).tcm = s.tcm := rfl
@[simp] theorem setSec_act (f : Sec → Sec) : (setSec f s).act = s.act := rfl
@[simp] theorem setSec_frames (f : Sec → Sec) : (setSec f s).frames = s.frames := rfl
@[simp] theorem setSec_fab (f : Sec → Sec) : (setSec f s).fab = s.fab := rfl
@[simp] theorem setSec_mem (f : Sec → Sec) : (setSec f s).mem = s.mem := rfl
@[simp] theorem setSec_dram (f : Sec → Sec) : (setSec f s).dram = s.dram := rfl
@[simp] theorem setSec_sch (f : Sec → Sec) : (setSec f s).sch = s.sch := rfl
@[simp] theorem setSec_cfb (f : Sec → Sec) : (setSec f s).cfb = s.cfb := rfl
@[simp] theorem setSec_engines (f : Sec → Sec) : (setSec f s).engines = s.engines := rfl
@[simp] theorem setSec_patch (f : Sec → Sec) : (setSec f s).patch = s.patch := rfl
@[simp] theorem setSec_hif (f : Sec → Sec) : (setSec f s).hif = s.hif := rfl
@[simp] theorem setSec_sec (f : Sec → Sec) : (setSec f s).sec = f s.sec := rfl
@[simp] theorem setSec_flt (f : Sec → Sec) : (setSec f s).flt = s.flt := rfl
@[simp] theorem setSec_sens (f : Sec → Sec) : (setSec f s).sens = s.sens := rfl
@[simp] theorem setSec_ps (f : Sec → Sec) : (setSec f s).ps = s.ps := rfl
@[simp] theorem setSec_tel (f : Sec → Sec) : (setSec f s).tel = s.tel := rfl
@[simp] theorem setSec_out (f : Sec → Sec) : (setSec f s).out = s.out := rfl

@[simp] theorem setGate_pending (p : Nat) (f : Gate → Gate) : (setGate p f s).pending = s.pending := rfl
@[simp] theorem setGate_freeCtr (p : Nat) (f : Gate → Gate) : (setGate p f s).freeCtr = s.freeCtr := rfl
@[simp] theorem setGate_serial (p : Nat) (f : Gate → Gate) : (setGate p f s).serial = s.serial := rfl
@[simp] theorem setGate_ident (p : Nat) (f : Gate → Gate) : (setGate p f s).ident = s.ident := rfl
@[simp] theorem setGate_regs (p : Nat) (f : Gate → Gate) : (setGate p f s).regs = s.regs := rfl
@[simp] theorem setGate_pwr (p : Nat) (f : Gate → Gate) : (setGate p f s).pwr = s.pwr := rfl
@[simp] theorem setGate_nvm (p : Nat) (f : Gate → Gate) : (setGate p f s).nvm = s.nvm := rfl
@[simp] theorem setGate_opt (p : Nat) (f : Gate → Gate) : (setGate p f s).opt = s.opt := rfl
@[simp] theorem setGate_tim (p : Nat) (f : Gate → Gate) : (setGate p f s).tim = s.tim := rfl
@[simp] theorem setGate_img (p : Nat) (f : Gate → Gate) : (setGate p f s).img = s.img := rfl
@[simp] theorem setGate_groups (p : Nat) (f : Gate → Gate) : (setGate p f s).groups = s.groups := rfl
@[simp] theorem setGate_ports (p : Nat) (f : Gate → Gate) : (setGate p f s).ports = s.ports := rfl
@[simp] theorem setGate_cages (p : Nat) (f : Gate → Gate) : (setGate p f s).cages = s.cages := rfl
@[simp] theorem setGate_i2c (p : Nat) (f : Gate → Gate) : (setGate p f s).i2c = s.i2c := rfl
@[simp] theorem setGate_sas (p : Nat) (f : Gate → Gate) : (setGate p f s).sas = s.sas := rfl
@[simp] theorem setGate_chans (p : Nat) (f : Gate → Gate) : (setGate p f s).chans = s.chans := rfl
@[simp] theorem setGate_exm (p : Nat) (f : Gate → Gate) : (setGate p f s).exm = s.exm := rfl
@[simp] theorem setGate_lpm (p : Nat) (f : Gate → Gate) : (setGate p f s).lpm = s.lpm := rfl
@[simp] theorem setGate_trie (p : Nat) (f : Gate → Gate) : (setGate p f s).trie = s.trie := rfl
@[simp] theorem setGate_tblBad (p : Nat) (f : Gate → Gate) : (setGate p f s).tblBad = s.tblBad := rfl
@[simp] theorem setGate_tcm (p : Nat) (f : Gate → Gate) : (setGate p f s).tcm = s.tcm := rfl
@[simp] theorem setGate_act (p : Nat) (f : Gate → Gate) : (setGate p f s).act = s.act := rfl
@[simp] theorem setGate_frames (p : Nat) (f : Gate → Gate) : (setGate p f s).frames = s.frames := rfl
@[simp] theorem setGate_fab (p : Nat) (f : Gate → Gate) : (setGate p f s).fab = s.fab := rfl
@[simp] theorem setGate_mem (p : Nat) (f : Gate → Gate) : (setGate p f s).mem = s.mem := rfl
@[simp] theorem setGate_dram (p : Nat) (f : Gate → Gate) : (setGate p f s).dram = s.dram := rfl
@[simp] theorem setGate_sch (p : Nat) (f : Gate → Gate) : (setGate p f s).sch = { s.sch with gates := tupd s.sch.gates p f } := rfl
@[simp] theorem setGate_cfb (p : Nat) (f : Gate → Gate) : (setGate p f s).cfb = s.cfb := rfl
@[simp] theorem setGate_engines (p : Nat) (f : Gate → Gate) : (setGate p f s).engines = s.engines := rfl
@[simp] theorem setGate_patch (p : Nat) (f : Gate → Gate) : (setGate p f s).patch = s.patch := rfl
@[simp] theorem setGate_hif (p : Nat) (f : Gate → Gate) : (setGate p f s).hif = s.hif := rfl
@[simp] theorem setGate_sec (p : Nat) (f : Gate → Gate) : (setGate p f s).sec = s.sec := rfl
@[simp] theorem setGate_flt (p : Nat) (f : Gate → Gate) : (setGate p f s).flt = s.flt := rfl
@[simp] theorem setGate_sens (p : Nat) (f : Gate → Gate) : (setGate p f s).sens = s.sens := rfl
@[simp] theorem setGate_ps (p : Nat) (f : Gate → Gate) : (setGate p f s).ps = s.ps := rfl
@[simp] theorem setGate_tel (p : Nat) (f : Gate → Gate) : (setGate p f s).tel = s.tel := rfl
@[simp] theorem setGate_out (p : Nat) (f : Gate → Gate) : (setGate p f s).out = s.out := rfl

@[simp] theorem setSgate_pending (g : Nat) (f : Gate → Gate) : (setSgate g f s).pending = s.pending := rfl
@[simp] theorem setSgate_freeCtr (g : Nat) (f : Gate → Gate) : (setSgate g f s).freeCtr = s.freeCtr := rfl
@[simp] theorem setSgate_serial (g : Nat) (f : Gate → Gate) : (setSgate g f s).serial = s.serial := rfl
@[simp] theorem setSgate_ident (g : Nat) (f : Gate → Gate) : (setSgate g f s).ident = s.ident := rfl
@[simp] theorem setSgate_regs (g : Nat) (f : Gate → Gate) : (setSgate g f s).regs = s.regs := rfl
@[simp] theorem setSgate_pwr (g : Nat) (f : Gate → Gate) : (setSgate g f s).pwr = s.pwr := rfl
@[simp] theorem setSgate_nvm (g : Nat) (f : Gate → Gate) : (setSgate g f s).nvm = s.nvm := rfl
@[simp] theorem setSgate_opt (g : Nat) (f : Gate → Gate) : (setSgate g f s).opt = s.opt := rfl
@[simp] theorem setSgate_tim (g : Nat) (f : Gate → Gate) : (setSgate g f s).tim = s.tim := rfl
@[simp] theorem setSgate_img (g : Nat) (f : Gate → Gate) : (setSgate g f s).img = s.img := rfl
@[simp] theorem setSgate_groups (g : Nat) (f : Gate → Gate) : (setSgate g f s).groups = s.groups := rfl
@[simp] theorem setSgate_ports (g : Nat) (f : Gate → Gate) : (setSgate g f s).ports = s.ports := rfl
@[simp] theorem setSgate_cages (g : Nat) (f : Gate → Gate) : (setSgate g f s).cages = s.cages := rfl
@[simp] theorem setSgate_i2c (g : Nat) (f : Gate → Gate) : (setSgate g f s).i2c = s.i2c := rfl
@[simp] theorem setSgate_sas (g : Nat) (f : Gate → Gate) : (setSgate g f s).sas = s.sas := rfl
@[simp] theorem setSgate_chans (g : Nat) (f : Gate → Gate) : (setSgate g f s).chans = s.chans := rfl
@[simp] theorem setSgate_exm (g : Nat) (f : Gate → Gate) : (setSgate g f s).exm = s.exm := rfl
@[simp] theorem setSgate_lpm (g : Nat) (f : Gate → Gate) : (setSgate g f s).lpm = s.lpm := rfl
@[simp] theorem setSgate_trie (g : Nat) (f : Gate → Gate) : (setSgate g f s).trie = s.trie := rfl
@[simp] theorem setSgate_tblBad (g : Nat) (f : Gate → Gate) : (setSgate g f s).tblBad = s.tblBad := rfl
@[simp] theorem setSgate_tcm (g : Nat) (f : Gate → Gate) : (setSgate g f s).tcm = s.tcm := rfl
@[simp] theorem setSgate_act (g : Nat) (f : Gate → Gate) : (setSgate g f s).act = s.act := rfl
@[simp] theorem setSgate_frames (g : Nat) (f : Gate → Gate) : (setSgate g f s).frames = s.frames := rfl
@[simp] theorem setSgate_fab (g : Nat) (f : Gate → Gate) : (setSgate g f s).fab = s.fab := rfl
@[simp] theorem setSgate_mem (g : Nat) (f : Gate → Gate) : (setSgate g f s).mem = s.mem := rfl
@[simp] theorem setSgate_dram (g : Nat) (f : Gate → Gate) : (setSgate g f s).dram = s.dram := rfl
@[simp] theorem setSgate_sch (g : Nat) (f : Gate → Gate) : (setSgate g f s).sch = { s.sch with sgates := tupd s.sch.sgates g f } := rfl
@[simp] theorem setSgate_cfb (g : Nat) (f : Gate → Gate) : (setSgate g f s).cfb = s.cfb := rfl
@[simp] theorem setSgate_engines (g : Nat) (f : Gate → Gate) : (setSgate g f s).engines = s.engines := rfl
@[simp] theorem setSgate_patch (g : Nat) (f : Gate → Gate) : (setSgate g f s).patch = s.patch := rfl
@[simp] theorem setSgate_hif (g : Nat) (f : Gate → Gate) : (setSgate g f s).hif = s.hif := rfl
@[simp] theorem setSgate_sec (g : Nat) (f : Gate → Gate) : (setSgate g f s).sec = s.sec := rfl
@[simp] theorem setSgate_flt (g : Nat) (f : Gate → Gate) : (setSgate g f s).flt = s.flt := rfl
@[simp] theorem setSgate_sens (g : Nat) (f : Gate → Gate) : (setSgate g f s).sens = s.sens := rfl
@[simp] theorem setSgate_ps (g : Nat) (f : Gate → Gate) : (setSgate g f s).ps = s.ps := rfl
@[simp] theorem setSgate_tel (g : Nat) (f : Gate → Gate) : (setSgate g f s).tel = s.tel := rfl
@[simp] theorem setSgate_out (g : Nat) (f : Gate → Gate) : (setSgate g f s).out = s.out := rfl

@[simp] theorem setStream_pending (i : Nat) (f : Frer → Frer) : (setStream i f s).pending = s.pending := rfl
@[simp] theorem setStream_freeCtr (i : Nat) (f : Frer → Frer) : (setStream i f s).freeCtr = s.freeCtr := rfl
@[simp] theorem setStream_serial (i : Nat) (f : Frer → Frer) : (setStream i f s).serial = s.serial := rfl
@[simp] theorem setStream_ident (i : Nat) (f : Frer → Frer) : (setStream i f s).ident = s.ident := rfl
@[simp] theorem setStream_regs (i : Nat) (f : Frer → Frer) : (setStream i f s).regs = s.regs := rfl
@[simp] theorem setStream_pwr (i : Nat) (f : Frer → Frer) : (setStream i f s).pwr = s.pwr := rfl
@[simp] theorem setStream_nvm (i : Nat) (f : Frer → Frer) : (setStream i f s).nvm = s.nvm := rfl
@[simp] theorem setStream_opt (i : Nat) (f : Frer → Frer) : (setStream i f s).opt = s.opt := rfl
@[simp] theorem setStream_tim (i : Nat) (f : Frer → Frer) : (setStream i f s).tim = s.tim := rfl
@[simp] theorem setStream_img (i : Nat) (f : Frer → Frer) : (setStream i f s).img = s.img := rfl
@[simp] theorem setStream_groups (i : Nat) (f : Frer → Frer) : (setStream i f s).groups = s.groups := rfl
@[simp] theorem setStream_ports (i : Nat) (f : Frer → Frer) : (setStream i f s).ports = s.ports := rfl
@[simp] theorem setStream_cages (i : Nat) (f : Frer → Frer) : (setStream i f s).cages = s.cages := rfl
@[simp] theorem setStream_i2c (i : Nat) (f : Frer → Frer) : (setStream i f s).i2c = s.i2c := rfl
@[simp] theorem setStream_sas (i : Nat) (f : Frer → Frer) : (setStream i f s).sas = s.sas := rfl
@[simp] theorem setStream_chans (i : Nat) (f : Frer → Frer) : (setStream i f s).chans = s.chans := rfl
@[simp] theorem setStream_exm (i : Nat) (f : Frer → Frer) : (setStream i f s).exm = s.exm := rfl
@[simp] theorem setStream_lpm (i : Nat) (f : Frer → Frer) : (setStream i f s).lpm = s.lpm := rfl
@[simp] theorem setStream_trie (i : Nat) (f : Frer → Frer) : (setStream i f s).trie = s.trie := rfl
@[simp] theorem setStream_tblBad (i : Nat) (f : Frer → Frer) : (setStream i f s).tblBad = s.tblBad := rfl
@[simp] theorem setStream_tcm (i : Nat) (f : Frer → Frer) : (setStream i f s).tcm = s.tcm := rfl
@[simp] theorem setStream_act (i : Nat) (f : Frer → Frer) : (setStream i f s).act = s.act := rfl
@[simp] theorem setStream_frames (i : Nat) (f : Frer → Frer) : (setStream i f s).frames = s.frames := rfl
@[simp] theorem setStream_fab (i : Nat) (f : Frer → Frer) : (setStream i f s).fab = s.fab := rfl
@[simp] theorem setStream_mem (i : Nat) (f : Frer → Frer) : (setStream i f s).mem = s.mem := rfl
@[simp] theorem setStream_dram (i : Nat) (f : Frer → Frer) : (setStream i f s).dram = s.dram := rfl
@[simp] theorem setStream_cfb (i : Nat) (f : Frer → Frer) : (setStream i f s).cfb = s.cfb := rfl
@[simp] theorem setStream_engines (i : Nat) (f : Frer → Frer) : (setStream i f s).engines = s.engines := rfl
@[simp] theorem setStream_patch (i : Nat) (f : Frer → Frer) : (setStream i f s).patch = s.patch := rfl
@[simp] theorem setStream_hif (i : Nat) (f : Frer → Frer) : (setStream i f s).hif = s.hif := rfl
@[simp] theorem setStream_sec (i : Nat) (f : Frer → Frer) : (setStream i f s).sec = s.sec := rfl
@[simp] theorem setStream_flt (i : Nat) (f : Frer → Frer) : (setStream i f s).flt = s.flt := rfl
@[simp] theorem setStream_sens (i : Nat) (f : Frer → Frer) : (setStream i f s).sens = s.sens := rfl
@[simp] theorem setStream_ps (i : Nat) (f : Frer → Frer) : (setStream i f s).ps = s.ps := rfl
@[simp] theorem setStream_tel (i : Nat) (f : Frer → Frer) : (setStream i f s).tel = s.tel := rfl
@[simp] theorem setStream_out (i : Nat) (f : Frer → Frer) : (setStream i f s).out = s.out := rfl

@[simp] theorem setAdj_pending (p : Nat) (f : Adj → Adj) : (setAdj p f s).pending = s.pending := rfl
@[simp] theorem setAdj_freeCtr (p : Nat) (f : Adj → Adj) : (setAdj p f s).freeCtr = s.freeCtr := rfl
@[simp] theorem setAdj_serial (p : Nat) (f : Adj → Adj) : (setAdj p f s).serial = s.serial := rfl
@[simp] theorem setAdj_ident (p : Nat) (f : Adj → Adj) : (setAdj p f s).ident = s.ident := rfl
@[simp] theorem setAdj_regs (p : Nat) (f : Adj → Adj) : (setAdj p f s).regs = s.regs := rfl
@[simp] theorem setAdj_pwr (p : Nat) (f : Adj → Adj) : (setAdj p f s).pwr = s.pwr := rfl
@[simp] theorem setAdj_nvm (p : Nat) (f : Adj → Adj) : (setAdj p f s).nvm = s.nvm := rfl
@[simp] theorem setAdj_opt (p : Nat) (f : Adj → Adj) : (setAdj p f s).opt = s.opt := rfl
@[simp] theorem setAdj_tim (p : Nat) (f : Adj → Adj) : (setAdj p f s).tim = s.tim := rfl
@[simp] theorem setAdj_img (p : Nat) (f : Adj → Adj) : (setAdj p f s).img = s.img := rfl
@[simp] theorem setAdj_groups (p : Nat) (f : Adj → Adj) : (setAdj p f s).groups = s.groups := rfl
@[simp] theorem setAdj_ports (p : Nat) (f : Adj → Adj) : (setAdj p f s).ports = s.ports := rfl
@[simp] theorem setAdj_cages (p : Nat) (f : Adj → Adj) : (setAdj p f s).cages = s.cages := rfl
@[simp] theorem setAdj_i2c (p : Nat) (f : Adj → Adj) : (setAdj p f s).i2c = s.i2c := rfl
@[simp] theorem setAdj_sas (p : Nat) (f : Adj → Adj) : (setAdj p f s).sas = s.sas := rfl
@[simp] theorem setAdj_chans (p : Nat) (f : Adj → Adj) : (setAdj p f s).chans = s.chans := rfl
@[simp] theorem setAdj_exm (p : Nat) (f : Adj → Adj) : (setAdj p f s).exm = s.exm := rfl
@[simp] theorem setAdj_lpm (p : Nat) (f : Adj → Adj) : (setAdj p f s).lpm = s.lpm := rfl
@[simp] theorem setAdj_trie (p : Nat) (f : Adj → Adj) : (setAdj p f s).trie = s.trie := rfl
@[simp] theorem setAdj_tblBad (p : Nat) (f : Adj → Adj) : (setAdj p f s).tblBad = s.tblBad := rfl
@[simp] theorem setAdj_tcm (p : Nat) (f : Adj → Adj) : (setAdj p f s).tcm = s.tcm := rfl
@[simp] theorem setAdj_act (p : Nat) (f : Adj → Adj) : (setAdj p f s).act = s.act := rfl
@[simp] theorem setAdj_frames (p : Nat) (f : Adj → Adj) : (setAdj p f s).frames = s.frames := rfl
@[simp] theorem setAdj_fab (p : Nat) (f : Adj → Adj) : (setAdj p f s).fab = s.fab := rfl
@[simp] theorem setAdj_mem (p : Nat) (f : Adj → Adj) : (setAdj p f s).mem = s.mem := rfl
@[simp] theorem setAdj_dram (p : Nat) (f : Adj → Adj) : (setAdj p f s).dram = s.dram := rfl
@[simp] theorem setAdj_sch (p : Nat) (f : Adj → Adj) : (setAdj p f s).sch = s.sch := rfl
@[simp] theorem setAdj_cfb (p : Nat) (f : Adj → Adj) : (setAdj p f s).cfb = { s.cfb with adj := tupd s.cfb.adj p f } := rfl
@[simp] theorem setAdj_engines (p : Nat) (f : Adj → Adj) : (setAdj p f s).engines = s.engines := rfl
@[simp] theorem setAdj_patch (p : Nat) (f : Adj → Adj) : (setAdj p f s).patch = s.patch := rfl
@[simp] theorem setAdj_hif (p : Nat) (f : Adj → Adj) : (setAdj p f s).hif = s.hif := rfl
@[simp] theorem setAdj_sec (p : Nat) (f : Adj → Adj) : (setAdj p f s).sec = s.sec := rfl
@[simp] theorem setAdj_flt (p : Nat) (f : Adj → Adj) : (setAdj p f s).flt = s.flt := rfl
@[simp] theorem setAdj_sens (p : Nat) (f : Adj → Adj) : (setAdj p f s).sens = s.sens := rfl
@[simp] theorem setAdj_ps (p : Nat) (f : Adj → Adj) : (setAdj p f s).ps = s.ps := rfl
@[simp] theorem setAdj_tel (p : Nat) (f : Adj → Adj) : (setAdj p f s).tel = s.tel := rfl
@[simp] theorem setAdj_out (p : Nat) (f : Adj → Adj) : (setAdj p f s).out = s.out := rfl

@[simp] theorem setLearn_pending (l : List Learn) : (setLearn l s).pending = s.pending := rfl
@[simp] theorem setLearn_freeCtr (l : List Learn) : (setLearn l s).freeCtr = s.freeCtr := rfl
@[simp] theorem setLearn_serial (l : List Learn) : (setLearn l s).serial = s.serial := rfl
@[simp] theorem setLearn_ident (l : List Learn) : (setLearn l s).ident = s.ident := rfl
@[simp] theorem setLearn_regs (l : List Learn) : (setLearn l s).regs = s.regs := rfl
@[simp] theorem setLearn_pwr (l : List Learn) : (setLearn l s).pwr = s.pwr := rfl
@[simp] theorem setLearn_nvm (l : List Learn) : (setLearn l s).nvm = s.nvm := rfl
@[simp] theorem setLearn_opt (l : List Learn) : (setLearn l s).opt = s.opt := rfl
@[simp] theorem setLearn_tim (l : List Learn) : (setLearn l s).tim = s.tim := rfl
@[simp] theorem setLearn_img (l : List Learn) : (setLearn l s).img = s.img := rfl
@[simp] theorem setLearn_groups (l : List Learn) : (setLearn l s).groups = s.groups := rfl
@[simp] theorem setLearn_ports (l : List Learn) : (setLearn l s).ports = s.ports := rfl
@[simp] theorem setLearn_cages (l : List Learn) : (setLearn l s).cages = s.cages := rfl
@[simp] theorem setLearn_i2c (l : List Learn) : (setLearn l s).i2c = s.i2c := rfl
@[simp] theorem setLearn_sas (l : List Learn) : (setLearn l s).sas = s.sas := rfl
@[simp] theorem setLearn_chans (l : List Learn) : (setLearn l s).chans = s.chans := rfl
@[simp] theorem setLearn_exm (l : List Learn) : (setLearn l s).exm = { s.exm with learn := l } := rfl
@[simp] theorem setLearn_lpm (l : List Learn) : (setLearn l s).lpm = s.lpm := rfl
@[simp] theorem setLearn_trie (l : List Learn) : (setLearn l s).trie = s.trie := rfl
@[simp] theorem setLearn_tblBad (l : List Learn) : (setLearn l s).tblBad = s.tblBad := rfl
@[simp] theorem setLearn_tcm (l : List Learn) : (setLearn l s).tcm = s.tcm := rfl
@[simp] theorem setLearn_act (l : List Learn) : (setLearn l s).act = s.act := rfl
@[simp] theorem setLearn_frames (l : List Learn) : (setLearn l s).frames = s.frames := rfl
@[simp] theorem setLearn_fab (l : List Learn) : (setLearn l s).fab = s.fab := rfl
@[simp] theorem setLearn_mem (l : List Learn) : (setLearn l s).mem = s.mem := rfl
@[simp] theorem setLearn_dram (l : List Learn) : (setLearn l s).dram = s.dram := rfl
@[simp] theorem setLearn_sch (l : List Learn) : (setLearn l s).sch = s.sch := rfl
@[simp] theorem setLearn_cfb (l : List Learn) : (setLearn l s).cfb = s.cfb := rfl
@[simp] theorem setLearn_engines (l : List Learn) : (setLearn l s).engines = s.engines := rfl
@[simp] theorem setLearn_patch (l : List Learn) : (setLearn l s).patch = s.patch := rfl
@[simp] theorem setLearn_hif (l : List Learn) : (setLearn l s).hif = s.hif := rfl
@[simp] theorem setLearn_sec (l : List Learn) : (setLearn l s).sec = s.sec := rfl
@[simp] theorem setLearn_flt (l : List Learn) : (setLearn l s).flt = s.flt := rfl
@[simp] theorem setLearn_sens (l : List Learn) : (setLearn l s).sens = s.sens := rfl
@[simp] theorem setLearn_ps (l : List Learn) : (setLearn l s).ps = s.ps := rfl
@[simp] theorem setLearn_tel (l : List Learn) : (setLearn l s).tel = s.tel := rfl
@[simp] theorem setLearn_out (l : List Learn) : (setLearn l s).out = s.out := rfl

@[simp] theorem setAct_pending (f : Act → Act) : (setAct f s).pending = s.pending := rfl
@[simp] theorem setAct_freeCtr (f : Act → Act) : (setAct f s).freeCtr = s.freeCtr := rfl
@[simp] theorem setAct_serial (f : Act → Act) : (setAct f s).serial = s.serial := rfl
@[simp] theorem setAct_ident (f : Act → Act) : (setAct f s).ident = s.ident := rfl
@[simp] theorem setAct_regs (f : Act → Act) : (setAct f s).regs = s.regs := rfl
@[simp] theorem setAct_pwr (f : Act → Act) : (setAct f s).pwr = s.pwr := rfl
@[simp] theorem setAct_nvm (f : Act → Act) : (setAct f s).nvm = s.nvm := rfl
@[simp] theorem setAct_opt (f : Act → Act) : (setAct f s).opt = s.opt := rfl
@[simp] theorem setAct_tim (f : Act → Act) : (setAct f s).tim = s.tim := rfl
@[simp] theorem setAct_img (f : Act → Act) : (setAct f s).img = s.img := rfl
@[simp] theorem setAct_groups (f : Act → Act) : (setAct f s).groups = s.groups := rfl
@[simp] theorem setAct_ports (f : Act → Act) : (setAct f s).ports = s.ports := rfl
@[simp] theorem setAct_cages (f : Act → Act) : (setAct f s).cages = s.cages := rfl
@[simp] theorem setAct_i2c (f : Act → Act) : (setAct f s).i2c = s.i2c := rfl
@[simp] theorem setAct_sas (f : Act → Act) : (setAct f s).sas = s.sas := rfl
@[simp] theorem setAct_chans (f : Act → Act) : (setAct f s).chans = s.chans := rfl
@[simp] theorem setAct_exm (f : Act → Act) : (setAct f s).exm = s.exm := rfl
@[simp] theorem setAct_lpm (f : Act → Act) : (setAct f s).lpm = s.lpm := rfl
@[simp] theorem setAct_trie (f : Act → Act) : (setAct f s).trie = s.trie := rfl
@[simp] theorem setAct_tblBad (f : Act → Act) : (setAct f s).tblBad = s.tblBad := rfl
@[simp] theorem setAct_tcm (f : Act → Act) : (setAct f s).tcm = s.tcm := rfl
@[simp] theorem setAct_act (f : Act → Act) : (setAct f s).act = f s.act := rfl
@[simp] theorem setAct_frames (f : Act → Act) : (setAct f s).frames = s.frames := rfl
@[simp] theorem setAct_fab (f : Act → Act) : (setAct f s).fab = s.fab := rfl
@[simp] theorem setAct_mem (f : Act → Act) : (setAct f s).mem = s.mem := rfl
@[simp] theorem setAct_dram (f : Act → Act) : (setAct f s).dram = s.dram := rfl
@[simp] theorem setAct_sch (f : Act → Act) : (setAct f s).sch = s.sch := rfl
@[simp] theorem setAct_cfb (f : Act → Act) : (setAct f s).cfb = s.cfb := rfl
@[simp] theorem setAct_engines (f : Act → Act) : (setAct f s).engines = s.engines := rfl
@[simp] theorem setAct_patch (f : Act → Act) : (setAct f s).patch = s.patch := rfl
@[simp] theorem setAct_hif (f : Act → Act) : (setAct f s).hif = s.hif := rfl
@[simp] theorem setAct_sec (f : Act → Act) : (setAct f s).sec = s.sec := rfl
@[simp] theorem setAct_flt (f : Act → Act) : (setAct f s).flt = s.flt := rfl
@[simp] theorem setAct_sens (f : Act → Act) : (setAct f s).sens = s.sens := rfl
@[simp] theorem setAct_ps (f : Act → Act) : (setAct f s).ps = s.ps := rfl
@[simp] theorem setAct_tel (f : Act → Act) : (setAct f s).tel = s.tel := rfl
@[simp] theorem setAct_out (f : Act → Act) : (setAct f s).out = s.out := rfl

@[simp] theorem setTimer_pending (q k : Nat) (t : Timer) : (setTimer q k t s).pending = s.pending := rfl
@[simp] theorem setTimer_freeCtr (q k : Nat) (t : Timer) : (setTimer q k t s).freeCtr = s.freeCtr := rfl
@[simp] theorem setTimer_serial (q k : Nat) (t : Timer) : (setTimer q k t s).serial = s.serial := rfl
@[simp] theorem setTimer_ident (q k : Nat) (t : Timer) : (setTimer q k t s).ident = s.ident := rfl
@[simp] theorem setTimer_regs (q k : Nat) (t : Timer) : (setTimer q k t s).regs = s.regs := rfl
@[simp] theorem setTimer_pwr (q k : Nat) (t : Timer) : (setTimer q k t s).pwr = s.pwr := rfl
@[simp] theorem setTimer_nvm (q k : Nat) (t : Timer) : (setTimer q k t s).nvm = s.nvm := rfl
@[simp] theorem setTimer_opt (q k : Nat) (t : Timer) : (setTimer q k t s).opt = s.opt := rfl
@[simp] theorem setTimer_tim (q k : Nat) (t : Timer) : (setTimer q k t s).tim = s.tim := rfl
@[simp] theorem setTimer_img (q k : Nat) (t : Timer) : (setTimer q k t s).img = s.img := rfl
@[simp] theorem setTimer_groups (q k : Nat) (t : Timer) : (setTimer q k t s).groups = s.groups := rfl
@[simp] theorem setTimer_ports (q k : Nat) (t : Timer) : (setTimer q k t s).ports = s.ports := rfl
@[simp] theorem setTimer_cages (q k : Nat) (t : Timer) : (setTimer q k t s).cages = s.cages := rfl
@[simp] theorem setTimer_i2c (q k : Nat) (t : Timer) : (setTimer q k t s).i2c = s.i2c := rfl
@[simp] theorem setTimer_sas (q k : Nat) (t : Timer) : (setTimer q k t s).sas = s.sas := rfl
@[simp] theorem setTimer_chans (q k : Nat) (t : Timer) : (setTimer q k t s).chans = s.chans := rfl
@[simp] theorem setTimer_exm (q k : Nat) (t : Timer) : (setTimer q k t s).exm = s.exm := rfl
@[simp] theorem setTimer_lpm (q k : Nat) (t : Timer) : (setTimer q k t s).lpm = s.lpm := rfl
@[simp] theorem setTimer_trie (q k : Nat) (t : Timer) : (setTimer q k t s).trie = s.trie := rfl
@[simp] theorem setTimer_tblBad (q k : Nat) (t : Timer) : (setTimer q k t s).tblBad = s.tblBad := rfl
@[simp] theorem setTimer_tcm (q k : Nat) (t : Timer) : (setTimer q k t s).tcm = s.tcm := rfl
@[simp] theorem setTimer_act (q k : Nat) (t : Timer) : (setTimer q k t s).act = s.act := rfl
@[simp] theorem setTimer_frames (q k : Nat) (t : Timer) : (setTimer q k t s).frames = s.frames := rfl
@[simp] theorem setTimer_fab (q k : Nat) (t : Timer) : (setTimer q k t s).fab = s.fab := rfl
@[simp] theorem setTimer_mem (q k : Nat) (t : Timer) : (setTimer q k t s).mem = s.mem := rfl
@[simp] theorem setTimer_dram (q k : Nat) (t : Timer) : (setTimer q k t s).dram = s.dram := rfl
@[simp] theorem setTimer_sch (q k : Nat) (t : Timer) : (setTimer q k t s).sch = s.sch := rfl
@[simp] theorem setTimer_cfb (q k : Nat) (t : Timer) : (setTimer q k t s).cfb = s.cfb := rfl
@[simp] theorem setTimer_engines (q k : Nat) (t : Timer) : (setTimer q k t s).engines = s.engines := rfl
@[simp] theorem setTimer_patch (q k : Nat) (t : Timer) : (setTimer q k t s).patch = s.patch := rfl
@[simp] theorem setTimer_sec (q k : Nat) (t : Timer) : (setTimer q k t s).sec = s.sec := rfl
@[simp] theorem setTimer_flt (q k : Nat) (t : Timer) : (setTimer q k t s).flt = s.flt := rfl
@[simp] theorem setTimer_sens (q k : Nat) (t : Timer) : (setTimer q k t s).sens = s.sens := rfl
@[simp] theorem setTimer_ps (q k : Nat) (t : Timer) : (setTimer q k t s).ps = s.ps := rfl
@[simp] theorem setTimer_tel (q k : Nat) (t : Timer) : (setTimer q k t s).tel = s.tel := rfl
@[simp] theorem setTimer_out (q k : Nat) (t : Timer) : (setTimer q k t s).out = s.out := rfl

/-! Readings that an update of another part leaves. -/

@[simp] theorem rget_emit (o : Out) (x : Reg) (y z : Nat) : rget (emit o s) x y z = rget s x y z := rfl
@[simp] theorem rget_advanceFree (x : Reg) (y z : Nat) : rget (advanceFree s) x y z = rget s x y z := rfl
@[simp] theorem rget_count (set idx n : Nat) (x : Reg) (y z : Nat) : rget (count set idx n s) x y z = rget s x y z := rfl
@[simp] theorem rget_setUnit (u : Nat) (f : UnitSt → UnitSt) (x : Reg) (y z : Nat) : rget (setUnit u f s) x y z = rget s x y z := rfl
@[simp] theorem rget_setPort (p : Nat) (f : Port → Port) (x : Reg) (y z : Nat) : rget (setPort p f s) x y z = rget s x y z := rfl
@[simp] theorem rget_setNode (l n : Nat) (f : Node → Node) (x : Reg) (y z : Nat) : rget (setNode l n f s) x y z = rget s x y z := rfl
@[simp] theorem rget_setLeaf (l : Nat) (f : Leaf → Leaf) (x : Reg) (y z : Nat) : rget (setLeaf l f s) x y z = rget s x y z := rfl
@[simp] theorem rget_setRing (q r : Nat) (f : Ring → Ring) (x : Reg) (y z : Nat) : rget (setRing q r f s) x y z = rget s x y z := rfl
@[simp] theorem rget_setBuf (h : Nat) (f : Buf → Buf) (x : Reg) (y z : Nat) : rget (setBuf h f s) x y z = rget s x y z := rfl
@[simp] theorem rget_bufFreeAll (f : Nat → Buf → Bool) (x : Reg) (y z : Nat) : rget (bufFreeAll f s) x y z = rget s x y z := rfl
@[simp] theorem rget_writeMem (a : Nat) (bs : List Byte) (x : Reg) (y z : Nat) : rget (writeMem a bs s) x y z = rget s x y z := rfl
@[simp] theorem rget_send (src dst : Nat) (m : Msg) (x : Reg) (y z : Nat) : rget (send src dst m s) x y z = rget s x y z := rfl
@[simp] theorem rget_setFrame (fid : Nat) (g : Frame → Frame) (x : Reg) (y z : Nat) : rget (setFrame fid g s) x y z = rget s x y z := rfl
@[simp] theorem rget_dropFrame (fid : Nat) (x : Reg) (y z : Nat) : rget (dropFrame fid s) x y z = rget s x y z := rfl
@[simp] theorem rget_setChannel (c : Nat) (f : Channel → Channel) (x : Reg) (y z : Nat) : rget (setChannel c f s) x y z = rget s x y z := rfl
@[simp] theorem rget_setEngine (e : Nat) (f : Engine → Engine) (x : Reg) (y z : Nat) : rget (setEngine e f s) x y z = rget s x y z := rfl
@[simp] theorem rget_clearSas (p : Nat) (x : Reg) (y z : Nat) : rget (clearSas p s) x y z = rget s x y z := rfl
@[simp] theorem rget_setCage (c : Nat) (f : Cage → Cage) (x : Reg) (y z : Nat) : rget (setCage c f s) x y z = rget s x y z := rfl
@[simp] theorem rget_setSens (t : Nat) (f : Sensors → Sensors) (x : Reg) (y z : Nat) : rget (setSens t f s) x y z = rget s x y z := rfl
@[simp] theorem rget_setSec (f : Sec → Sec) (x : Reg) (y z : Nat) : rget (setSec f s) x y z = rget s x y z := rfl
@[simp] theorem rget_setGate (p : Nat) (f : Gate → Gate) (x : Reg) (y z : Nat) : rget (setGate p f s) x y z = rget s x y z := rfl
@[simp] theorem rget_setSgate (g : Nat) (f : Gate → Gate) (x : Reg) (y z : Nat) : rget (setSgate g f s) x y z = rget s x y z := rfl
@[simp] theorem rget_setStream (i : Nat) (f : Frer → Frer) (x : Reg) (y z : Nat) : rget (setStream i f s) x y z = rget s x y z := rfl
@[simp] theorem rget_setAdj (p : Nat) (f : Adj → Adj) (x : Reg) (y z : Nat) : rget (setAdj p f s) x y z = rget s x y z := rfl
@[simp] theorem rget_setLearn (l : List Learn) (x : Reg) (y z : Nat) : rget (setLearn l s) x y z = rget s x y z := rfl
@[simp] theorem rget_setAct (f : Act → Act) (x : Reg) (y z : Nat) : rget (setAct f s) x y z = rget s x y z := rfl
@[simp] theorem rget_setTimer (q k : Nat) (t : Timer) (x : Reg) (y z : Nat) : rget (setTimer q k t s) x y z = rget s x y z := rfl

end Sys2Proof.Machine
end

