-- ==== Sys2Proof/Laws/Tab.lean ====
section
/-! SUPPORT. Laws of sparse tables and of byte memory: a read after a write, and that every operation keeps the canonical form. -/
namespace Sys2Proof.Machine

/-! ## Keys above a bound -/

theorem keysAbove_of_le {α : Type} {a b : Nat} (hab : a ≤ b) : ∀ {t : List (Nat × α)}, keysAbove b t = true → keysAbove a t = true
  | [], _ => rfl
  | (k, v) :: r, h => by
    simp only [keysAbove, Bool.and_eq_true, decide_eq_true_eq] at h ⊢
    exact ⟨by omega, keysAbove_of_le hab h.2⟩

/-! ## Tables -/

/-- A key below every listed key reads as the default. -/
theorem tget_below {α : Type} [Inhabited α] {b key : Nat} : ∀ {t : Tab α}, keysAbove b t = true → key ≤ b → tget t key = default
  | [], _, _ => rfl
  | (k, v) :: r, h, hk => by
    simp only [keysAbove, Bool.and_eq_true, decide_eq_true_eq] at h
    simp only [tget]
    rw [if_neg (by omega), if_pos (by omega)]

section
variable {α : Type} [Inhabited α] [DecidableEq α]

theorem tput_above {b key : Nat} {v : α} (hb : b < key) : ∀ {t : Tab α}, keysAbove b t = true → keysAbove b (tput t key v) = true
  | [], _ => by
    simp only [tput]
    split <;> simp [keysAbove, hb]
  | (k, w) :: r, h => by
    simp only [keysAbove, Bool.and_eq_true, decide_eq_true_eq] at h
    simp only [tput]
    split
    · split
      · exact keysAbove_of_le (by omega) h.2
      · simp [keysAbove, hb, h.2]
    · split
      · split <;> simp [keysAbove, hb, h]
      · simp only [keysAbove, Bool.and_eq_true, decide_eq_true_eq]
        exact ⟨h.1, tput_above hb h.2⟩

/-- A write keeps the canonical form. -/
theorem tput_wf (key : Nat) (v : α) : ∀ {t : Tab α}, Tab.wf t = true → Tab.wf (tput t key v) = true
  | [], _ => by
    simp only [tput]
    split <;> simp_all [Tab.wf, keysAbove]
  | (k, w) :: r, h => by
    simp only [Tab.wf, Bool.and_eq_true, decide_eq_true_eq] at h
    obtain ⟨⟨hw, ha⟩, hr⟩ := h
    simp only [tput]
    split
    · split
      · exact hr
      · next hk hv => subst hk; simp [Tab.wf, hv, ha, hr]
    · split
      · split
        · simp [Tab.wf, hw, ha, hr]
        · next h1 h2 hv => simp [Tab.wf, keysAbove, hv, hw, ha, hr, h2, keysAbove_of_le (Nat.le_of_lt h2) ha]
      · next h1 h2 =>
        simp only [Tab.wf, Bool.and_eq_true, decide_eq_true_eq]
        exact ⟨⟨hw, tput_above (by omega) ha⟩, tput_wf key v hr⟩

/-- A read after a write to the same key gives the value written. -/
theorem tget_tput_same (key : Nat) (v : α) : ∀ {t : Tab α}, Tab.wf t = true → tget (tput t key v) key = v
  | [], _ => by
    simp only [tput]
    split <;> simp_all [tget]
  | (k, w) :: r, h => by
    simp only [Tab.wf, Bool.and_eq_true, decide_eq_true_eq] at h
    simp only [tput]
    split
    · next hk =>
      split
      · next hv => rw [tget_below h.1.2 (by omega), hv]
      · simp [tget]
    · next hk =>
      split
      · next hl =>
        split
        · next hv => simp [tget, hk, hl, hv]
        · simp [tget]
      · next hl => simp only [tget, hk, hl, if_false]; exact tget_tput_same key v h.2

/-- A write leaves every other key alone. -/
theorem tget_tput_ne {key other : Nat} (v : α) (hne : other ≠ key) : ∀ {t : Tab α}, Tab.wf t = true → tget (tput t key v) other = tget t other
  | [], _ => by
    simp only [tput]
    split
    · rfl
    · simp [tget, hne]
  | (k, w) :: r, h => by
    simp only [Tab.wf, Bool.and_eq_true, decide_eq_true_eq] at h
    simp only [tput]
    split
    · next hk =>
      subst hk
      split
      · simp only [tget, hne, if_false]
        split
        · next hl => exact tget_below h.1.2 (by omega)
        · rfl
      · simp [tget, hne]
    · next hk =>
      split
      · next hl =>
        split
        · rfl
        · simp only [tget, hne, if_false]
          split
          · next ho => rw [if_neg (by omega), if_pos (by omega)]
          · rfl
      · next hl =>
        simp only [tget]
        split
        · rfl
        · split
          · rfl
          · exact tget_tput_ne v hne h.2

/-- An update of a key's value keeps the canonical form. -/
theorem tupd_wf (key : Nat) (f : α → α) {t : Tab α} (h : Tab.wf t = true) : Tab.wf (tupd t key f) = true := tput_wf key _ h

theorem tget_tupd_same (key : Nat) (f : α → α) {t : Tab α} (h : Tab.wf t = true) : tget (tupd t key f) key = f (tget t key) :=
  tget_tput_same key _ h

theorem tget_tupd_ne {key other : Nat} (f : α → α) (hne : other ≠ key) {t : Tab α} (h : Tab.wf t = true) :
    tget (tupd t key f) other = tget t other := tget_tput_ne _ hne h

end

/-! ## Byte memory -/

theorem memByte_below {b a : Nat} : ∀ {m : List Host.Cell}, keysAbove b m = true → a ≤ b → memByte m a = 0
  | [], _, _ => rfl
  | (k, v) :: r, h, ha => by
    simp only [keysAbove, Bool.and_eq_true, decide_eq_true_eq] at h
    simp only [memByte]
    rw [if_neg (by omega), if_pos (by omega)]

theorem memSet_above {b a : Nat} {v : Byte} (hb : b < a) :
    ∀ {m : List Host.Cell}, keysAbove b m = true → keysAbove b (memSet m a v) = true
  | [], _ => by
    simp only [memSet]
    split <;> simp [keysAbove, hb]
  | (k, w) :: r, h => by
    simp only [keysAbove, Bool.and_eq_true, decide_eq_true_eq] at h
    simp only [memSet]
    split
    · split
      · exact keysAbove_of_le (by omega) h.2
      · simp [keysAbove, hb, h.2]
    · split
      · split <;> simp [keysAbove, hb, h]
      · simp only [keysAbove, Bool.and_eq_true, decide_eq_true_eq]
        exact ⟨h.1, memSet_above hb h.2⟩

/-- A byte written keeps the canonical form. -/
theorem memSet_wf (a : Nat) (v : Byte) : ∀ {m : List Host.Cell}, Memory.wf m = true → Memory.wf (memSet m a v) = true
  | [], _ => by
    simp only [memSet]
    split <;> simp_all [Memory.wf, keysAbove]
  | (k, w) :: r, h => by
    simp only [Memory.wf, Bool.and_eq_true, decide_eq_true_eq] at h
    obtain ⟨⟨hw, ha⟩, hr⟩ := h
    simp only [memSet]
    split
    · split
      · exact hr
      · next hk hv => subst hk; simp only [Memory.wf, ha, hr, Bool.and_true, decide_eq_true_eq]; exact hv
    · split
      · split
        · simp only [Memory.wf, ha, hr, Bool.and_true, decide_eq_true_eq]; exact hw
        · next h1 h2 hv => simp only [Memory.wf, keysAbove, ha, hr, h2, keysAbove_of_le (Nat.le_of_lt h2) ha, Bool.and_true, Bool.and_eq_true, decide_eq_true_eq]; exact ⟨⟨hv, trivial⟩, hw⟩
      · next h1 h2 =>
        simp only [Memory.wf, Bool.and_eq_true, decide_eq_true_eq]
        exact ⟨⟨hw, memSet_above (by omega) ha⟩, memSet_wf a v hr⟩

/-- Every write of bytes keeps the canonical form. -/
theorem memWrite_wf : ∀ (l : List Byte) (a : Nat) {m : List Host.Cell}, Memory.wf m = true → Memory.wf (memWrite m a l) = true
  | [], _, _, h => h
  | b :: bs, a, _, h => memWrite_wf bs (a + 1) (memSet_wf a b h)

theorem memByte_memSet_same (a : Nat) (v : Byte) : ∀ {m : List Host.Cell}, Memory.wf m = true → memByte (memSet m a v) a = v
  | [], _ => by
    simp only [memSet]
    split <;> simp_all [memByte]
  | (k, w) :: r, h => by
    simp only [Memory.wf, Bool.and_eq_true, decide_eq_true_eq] at h
    simp only [memSet]
    split
    · next hk =>
      split
      · next hv => rw [memByte_below h.1.2 (by omega), hv]
      · simp [memByte]
    · next hk =>
      split
      · next hl =>
        split
        · next hv => simp [memByte, hk, hl, hv]
        · simp [memByte]
      · next hl => simp only [memByte, hk, hl, if_false]; exact memByte_memSet_same a v h.2

theorem memByte_memSet_ne {a o : Nat} (v : Byte) (hne : o ≠ a) :
    ∀ {m : List Host.Cell}, Memory.wf m = true → memByte (memSet m a v) o = memByte m o
  | [], _ => by
    simp only [memSet]
    split
    · rfl
    · simp [memByte, hne]
  | (k, w) :: r, h => by
    simp only [Memory.wf, Bool.and_eq_true, decide_eq_true_eq] at h
    simp only [memSet]
    split
    · next hk =>
      subst hk
      split
      · simp only [memByte, hne, if_false]
        split
        · next hl => exact memByte_below h.1.2 (by omega)
        · rfl
      · simp [memByte, hne]
    · next hk =>
      split
      · next hl =>
        split
        · rfl
        · simp only [memByte, hne, if_false]
          split
          · next ho => rw [if_neg (by omega), if_pos (by omega)]
          · rfl
      · next hl =>
        simp only [memByte]
        split
        · rfl
        · split
          · rfl
          · exact memByte_memSet_ne v hne h.2

/-- A byte outside the bytes written reads as before. -/
theorem memByte_memWrite_out : ∀ (l : List Byte) (a o : Nat) {m : List Host.Cell}, Memory.wf m = true → (o < a ∨ a + l.length ≤ o) →
    memByte (memWrite m a l) o = memByte m o
  | [], _, _, _, _, _ => rfl
  | b :: bs, a, o, m, h, ho => by
    simp only [List.length_cons] at ho
    simp only [memWrite]
    rw [memByte_memWrite_out bs (a + 1) o (memSet_wf a b h) (by omega), memByte_memSet_ne b (by omega) h]

/-- The bytes written read back. -/
theorem memRead_memWrite : ∀ (l : List Byte) (a : Nat) {m : List Host.Cell}, Memory.wf m = true → memRead (memWrite m a l) a l.length = l
  | [], _, _, _ => rfl
  | b :: bs, a, m, h => by
    simp only [memWrite, memRead, List.length_cons]
    rw [memRead_memWrite bs (a + 1) (memSet_wf a b h), memByte_memWrite_out bs (a + 1) a (memSet_wf a b h) (by omega),
      memByte_memSet_same a b h]

end Sys2Proof.Machine
end

