-- ==== Sys2Proof/Laws/Ops.lean ====
section
/-! SUPPORT. What each shared operation can do, said once: every one of them is calm, that is, it leaves the queue and the module's
identity, and keeps module time legal, the fault FIFO bounded and the stores canonical. -/
namespace Sys2Proof.Machine

variable {α : Type} [Inhabited α] [DecidableEq α]

/-! ## Canonical form under filters -/

omit [Inhabited α] [DecidableEq α] in
theorem keysAbove_filter (P : Nat × α → Bool) {b : Nat} : ∀ {t : Tab α}, keysAbove b t = true → keysAbove b (t.filter P) = true
  | [], _ => rfl
  | (k, v) :: r, h => by
    simp only [keysAbove, Bool.and_eq_true] at h
    rw [List.filter_cons]
    split
    · simp only [keysAbove, Bool.and_eq_true]
      exact ⟨h.1, keysAbove_filter P h.2⟩
    · exact keysAbove_filter P h.2

theorem Tab_wf_filter (P : Nat × α → Bool) : ∀ {t : Tab α}, Tab.wf t = true → Tab.wf (t.filter P) = true
  | [], _ => rfl
  | (k, v) :: r, h => by
    simp only [Tab.wf, Bool.and_eq_true] at h
    rw [List.filter_cons]
    split
    · simp only [Tab.wf, Bool.and_eq_true]
      exact ⟨⟨h.1.1, keysAbove_filter P h.1.2⟩, Tab_wf_filter P h.2⟩
    · exact Tab_wf_filter P h.2

omit [Inhabited α] [DecidableEq α] in
theorem keysAbove_map (f : Nat × α → α) {b : Nat} :
    ∀ {t : Tab α}, keysAbove b t = true → keysAbove b (t.map fun x => (x.1, f x)) = true
  | [], _ => rfl
  | (k, v) :: r, h => by
    simp only [keysAbove, Bool.and_eq_true] at h
    simp only [List.map_cons, keysAbove, Bool.and_eq_true]
    exact ⟨h.1, keysAbove_map f h.2⟩

theorem tmap_wf (f : Nat → α → α) : ∀ {t : Tab α}, Tab.wf t = true → Tab.wf (tmap f t) = true
  | [], _ => rfl
  | (k, v) :: r, h => by
    simp only [Tab.wf, Bool.and_eq_true] at h
    have hr : Tab.wf (tmap f r) = true := tmap_wf f h.2
    unfold tmap
    rw [List.map_cons, List.filter_cons]
    split
    · rename_i hne
      simp only [Tab.wf, Bool.and_eq_true]
      exact ⟨⟨hne, keysAbove_filter _ (keysAbove_map (fun x => f x.1 x.2) h.1.2)⟩, hr⟩
    · exact hr

theorem Memory_wf_filter (P : Host.Cell → Bool) : ∀ {m : List Host.Cell}, Memory.wf m = true → Memory.wf (m.filter P) = true
  | [], _ => rfl
  | (k, v) :: r, h => by
    simp only [Memory.wf, Bool.and_eq_true] at h
    rw [List.filter_cons]
    split
    · simp only [Memory.wf, Bool.and_eq_true]
      exact ⟨⟨h.1.1, keysAbove_filter (α := Byte) P h.1.2⟩, Memory_wf_filter P h.2⟩
    · exact Memory_wf_filter P h.2

theorem reset_memory_wf : Memory.wf State.reset.mem = true := rfl

/-! ## Combinators -/

@[simp] theorem iff_true (f : State → State) (s : State) : iff_ true f s = f s := rfl

@[simp] theorem iff_false (f : State → State) (s : State) : iff_ false f s = s := rfl

@[simp] theorem forEach_nil {β : Type} (f : β → State → State) (s : State) : forEach [] f s = s := rfl

@[simp] theorem forEach_cons {β : Type} (a : β) (l : List β) (f : β → State → State) (s : State) :
    forEach (a :: l) f s = forEach l f (f a s) := rfl

/-! ## Registers -/

theorem rget_rput_same (r : Reg) (t i : Nat) (w : Word) {s : State} (h : Tab.wf s.regs = true) : rget (rput r t i w s) r t i = w := by
  unfold rget rput
  rw [tget_tput_same _ _ h]
  by_cases hw : w = regReset r i
  · rw [if_pos hw]; exact hw.symm
  · rw [if_neg hw]

theorem rget_rput_other (r q : Reg) (t i u j : Nat) (w : Word) {s : State} (h : Tab.wf s.regs = true)
    (hne : regOff q u j ≠ regOff r t i) : rget (rput r t i w s) q u j = rget s q u j := by
  unfold rget rput
  rw [tget_tput_ne _ hne h]

/-! ## Commands in their frame -/

theorem runCmd_runs {c : Cmd} {op : Nat} {w : Who} {checks : List (Bool × Nat)} {s : State} (f : State → State)
    (h : Runs c op w checks s) : runCmd c op w checks f s = f (noteCmd c s) := by
  unfold runCmd
  rw [h.1, h.2.1, h.2.2]
  rfl

theorem runCmd_waits {c : Cmd} {op : Nat} {w : Who} {checks : List (Bool × Nat)} {s : State} (f : State → State)
    (h : serving c op s = none) : runCmd c op w checks f s = s := by
  unfold runCmd
  rw [h]

theorem runCmd_unserved {c : Cmd} {op st : Nat} {w : Who} {checks : List (Bool × Nat)} {s : State} (f : State → State)
    (h : serving c op s = some (some st)) : runCmd c op w checks f s = fin c st [] s := by
  unfold runCmd
  rw [h]

theorem runCmd_who {c : Cmd} {op : Nat} {w : Who} {checks : List (Bool × Nat)} {s : State} (f : State → State)
    (h : serving c op s = some none) (hw : whoFails w c = true) : runCmd c op w checks f s = fin c stNO_PERMISSION [] s := by
  unfold runCmd
  rw [h, hw]
  rfl

theorem runCmd_fails {c : Cmd} {op st : Nat} {w : Who} {checks : List (Bool × Nat)} {s : State} (f : State → State)
    (h : serving c op s = some none) (hw : whoFails w c = false) (hf : firstFail checks = some st) :
    runCmd c op w checks f s = fin c st [] s := by
  unfold runCmd
  rw [h, hw, hf]
  rfl

/-! ## Calm changes -/

/-- What every operation leaves or keeps. -/
structure Calm (s t : State) : Prop where
  pending : t.pending = s.pending
  serial : t.serial = s.serial
  ident : t.ident = s.ident
  time : s.TimeLegal → t.TimeLegal
  fifo : s.FifoBounded → t.FifoBounded
  canon : s.Canonical → t.Canonical

theorem Calm.rfl {s : State} : Calm s s := ⟨Eq.refl _, Eq.refl _, Eq.refl _, id, id, id⟩

theorem Calm.trans {s t u : State} (a : Calm s t) (b : Calm t u) : Calm s u :=
  ⟨b.pending.trans a.pending, b.serial.trans a.serial, b.ident.trans a.ident, b.time ∘ a.time, b.fifo ∘ a.fifo, b.canon ∘ a.canon⟩

theorem calm_iff (c : Bool) {f : State → State} (h : ∀ s, Calm s (f s)) (s : State) : Calm s (iff_ c f s) := by
  cases c
  · exact Calm.rfl
  · exact h s

theorem calm_ite {c : Prop} [Decidable c] {s t u : State} (ht : c → Calm s t) (hu : ¬c → Calm s u) : Calm s (if c then t else u) := by
  split
  · exact ht ‹_›
  · exact hu ‹_›

theorem calm_forEach {β : Type} {f : β → State → State} (h : ∀ a s, Calm s (f a s)) : ∀ (l : List β) (s : State), Calm s (forEach l f s)
  | [], _ => Calm.rfl
  | a :: l, s => (h a s).trans (calm_forEach h l (f a s))

theorem calm_rput (r : Reg) (t i : Nat) (w : Word) (s : State) : Calm s (rput r t i w s) :=
  ⟨rfl, rfl, rfl, id, id, fun h => ⟨h.1, tput_wf _ _ h.2.1, h.2.2⟩⟩

theorem calm_rset (r : Reg) (t i hi lo v : Nat) (s : State) : Calm s (rset r t i hi lo v s) := calm_rput ..

theorem calm_pset (r : Reg) (b : Nat) (v : Bool) (s : State) : Calm s (pset r b v s) := calm_rput ..

theorem calm_setStage (n : Nat) (s : State) : Calm s (setStage n s) := calm_rput ..

theorem calm_emit (o : Out) (s : State) : Calm s (emit o s) := ⟨rfl, rfl, rfl, id, id, id⟩

theorem calm_emitHost (o : Out) (s : State) : Calm s (emitHost o s) := calm_iff _ (calm_emit o) s

theorem calm_advanceFree (s : State) : Calm s (advanceFree s) := ⟨rfl, rfl, rfl, id, id, id⟩

theorem calm_count (k i n : Nat) (s : State) : Calm s (count k i n s) := ⟨rfl, rfl, rfl, id, id, id⟩

theorem calm_lpmCnt (t i : Nat) (s : State) : Calm s (lpmCnt t i s) := calm_forEach (fun _ => calm_count _ _ _) _ s

theorem calm_setUnit (u : Nat) (f : UnitSt → UnitSt) (s : State) : Calm s (setUnit u f s) := ⟨rfl, rfl, rfl, id, id, id⟩

theorem calm_setPort (p : Nat) (f : Port → Port) (s : State) : Calm s (setPort p f s) := ⟨rfl, rfl, rfl, id, id, id⟩

theorem calm_setNode (l n : Nat) (f : Node → Node) (s : State) : Calm s (setNode l n f s) := ⟨rfl, rfl, rfl, id, id, id⟩

theorem calm_setLeaf (l : Nat) (f : Leaf → Leaf) (s : State) : Calm s (setLeaf l f s) := ⟨rfl, rfl, rfl, id, id, id⟩

theorem calm_depthSub (l n : Nat) (s : State) : Calm s (depthSub l n s) := calm_setLeaf ..

theorem calm_setRing (q r : Nat) (f : Ring → Ring) (s : State) : Calm s (setRing q r f s) :=
  ⟨rfl, rfl, rfl, id, id, fun h => ⟨h.1, h.2.1, tupd_wf _ _ h.2.2.1, h.2.2.2⟩⟩

theorem calm_setBuf (h : Nat) (f : Buf → Buf) (s : State) : Calm s (setBuf h f s) :=
  ⟨rfl, rfl, rfl, id, id, fun h => ⟨h.1, h.2.1, h.2.2.1, tupd_wf _ _ h.2.2.2⟩⟩

theorem calm_bufRelease (h : Nat) (s : State) : Calm s (bufRelease h s) := calm_setBuf ..

theorem calm_bufFreeAll (f : Nat → Buf → Bool) (s : State) : Calm s (bufFreeAll f s) :=
  ⟨rfl, rfl, rfl, id, id, fun h => ⟨h.1, h.2.1, h.2.2.1, Tab_wf_filter _ h.2.2.2⟩⟩

theorem calm_writeMem (a : Nat) (bs : List Byte) (s : State) : Calm s (writeMem a bs s) :=
  ⟨rfl, rfl, rfl, id, id, fun h => ⟨memWrite_wf bs a h.1, h.2⟩⟩

theorem calm_send (src dst : Nat) (m : Msg) (s : State) : Calm s (send src dst m s) := ⟨rfl, rfl, rfl, id, id, id⟩

theorem calm_setFrame (fid : Nat) (g : Frame → Frame) (s : State) : Calm s (setFrame fid g s) := ⟨rfl, rfl, rfl, id, id, id⟩

theorem calm_dropFrame (fid : Nat) (s : State) : Calm s (dropFrame fid s) := ⟨rfl, rfl, rfl, id, id, id⟩

theorem calm_setChannel (c : Nat) (f : Channel → Channel) (s : State) : Calm s (setChannel c f s) := ⟨rfl, rfl, rfl, id, id, id⟩

theorem calm_setEngine (e : Nat) (f : Engine → Engine) (s : State) : Calm s (setEngine e f s) := ⟨rfl, rfl, rfl, id, id, id⟩

theorem calm_clearSas (p : Nat) (s : State) : Calm s (clearSas p s) := ⟨rfl, rfl, rfl, id, id, id⟩

/-! ## Rings, notices and completions -/

theorem calm_sendVector (v : Nat) (s : State) : Calm s (sendVector v s) := by
  unfold sendVector
  refine calm_ite (fun _ => ⟨rfl, rfl, rfl, id, id, id⟩) fun _ => calm_emitHost _ s

theorem calm_ringIrq (q r : Nat) (s : State) : Calm s (ringIrq q r s) := by
  unfold ringIrq
  refine calm_ite (fun _ => ?_) fun _ => Calm.rfl
  split
  · exact calm_ite (fun _ => calm_setRing ..) fun _ => (calm_setRing ..).trans (calm_sendVector ..)
  · exact (calm_setRing ..).trans (calm_sendVector ..)

theorem calm_pushEntry (q r : Nat) (ws : List Word) (s : State) : Calm s (pushEntry q r ws s) :=
  (((calm_emitHost _ s).trans (calm_setRing ..)).trans (calm_count ..)).trans (calm_ringIrq ..)

theorem calm_postTo (q r typ src : Nat) (tag : Word) (t : Time80) (body : List Word) (s : State) :
    Calm s (postTo q r typ src tag t body s) := by
  unfold postTo
  exact calm_ite (fun _ => (calm_setRing ..).trans (calm_count ..)) fun _ => calm_pushEntry ..

theorem calm_postAt (q typ src : Nat) (tag : Word) (t : Time80) (body : List Word) (s : State) :
    Calm s (postAt q typ src tag t body s) := by
  unfold postAt
  split
  · exact calm_postTo ..
  · exact calm_count ..

theorem calm_post (q typ src : Nat) (body : List Word) (s : State) : Calm s (post q typ src body s) := calm_postAt ..

theorem calm_ringError (q r : Nat) (s : State) : Calm s (ringError q r s) := by
  unfold ringError
  split
  · exact calm_postTo ..
  · exact calm_count ..

theorem calm_ringStop (q r : Nat) (s : State) : Calm s (ringStop q r s) := calm_setRing ..

theorem calm_completeWith (q r : Nat) (desc : List Word) (st : Nat) (ret : List (Nat × Word)) (s : State) :
    Calm s (completeWith q r desc st ret s) := by
  unfold completeWith
  refine calm_ite (fun _ => ?_) fun _ => ((calm_emitHost _ s).trans (calm_setRing ..)).trans ((calm_count ..).trans (calm_ringIrq ..))
  split
  · exact (((calm_emitHost _ s).trans (calm_setRing ..)).trans ((calm_count ..).trans (calm_ringIrq ..))).trans (calm_postTo ..)
  · exact (((calm_emitHost _ s).trans (calm_setRing ..)).trans ((calm_count ..).trans (calm_ringIrq ..))).trans (calm_count ..)

theorem calm_fin (c : Cmd) (st : Nat) (ret : List (Nat × Word)) (s : State) : Calm s (fin c st ret s) := calm_completeWith ..

theorem calm_txFlush (q r : Nat) : ∀ (l : List TxTaken) (s : State), Calm s (txFlush q r l s)
  | [], _ => Calm.rfl
  | x :: l, s => by
    unfold txFlush
    split
    · exact Calm.rfl
    · exact (((calm_setRing ..).trans (calm_completeWith ..)).trans (calm_iff _ (calm_count _ _ _) _)).trans (calm_txFlush q r l _)

theorem calm_txBufs (l : List (Nat × Nat)) (s : State) : Calm s { s with hif := { s.hif with txBufs := l } } :=
  ⟨rfl, rfl, rfl, id, id, id⟩

theorem calm_frameOver (fid st : Nat) (ret : List (Nat × Word)) (s : State) : Calm s (frameOver fid st ret s) :=
  ((calm_forEach (β := Nat × Nat) (fun x s => calm_bufRelease x.2 s) _ s).trans (calm_txBufs _ _)).trans
    (calm_forEach (β := Nat × Ring) (fun _ _ => (calm_setRing ..).trans (calm_txFlush ..)) _ _)

theorem calm_frameGone (fid : Nat) (s : State) : Calm s (frameGone fid s) := calm_frameOver ..

/-! ## Buffers, leaves and evictions -/

theorem calm_takeBuf (t k cnt tag : Nat) (s : State) : Calm s (takeBuf t k cnt tag s).1 := (calm_setBuf ..).trans (calm_rset ..)

theorem calm_allocFor {t len : Nat} {u : PoolUser} {tag : Nat} {s v : State} {h : Nat} (e : allocFor t len u tag s = some (v, h)) :
    Calm s v := by
  unfold allocFor at e
  split at e
  · obtain rfl : _ = v := congrArg Prod.fst (Option.some.inj e)
    exact (calm_count ..).trans (calm_takeBuf ..)
  · cases e

theorem calm_evictNote (t : Nat) (n : Notice) (s : State) : Calm s (evictNote t n s) := by
  unfold evictNote
  refine Calm.trans (t := { s with fab := { s.fab with notices := s.fab.notices.filter fun m => !(sameFrame m n) } })
    ⟨rfl, rfl, rfl, id, id, id⟩ ?_
  exact (((calm_depthSub ..).trans (calm_frameGone ..)).trans (calm_forEach (fun _ => calm_send _ _ _) _ _)).trans (calm_count ..)

theorem calm_dropLeaf (l a b : Nat) (s : State) : Calm s (dropLeaf l a b s) :=
  ((calm_count ..).trans (calm_count ..)).trans (calm_count ..)

end Sys2Proof.Machine
end

