-- ==== Sys2Proof/WellFormed.lean ====
section
/-! DEFINITION. Which commands are well formed: every number names a unit of R11, R253, R369 or R400, and a command carries a
16-word descriptor. Meanings do not depend on it. -/
namespace Sys2Proof

/-- A command of an existing requester and ring number with a whole descriptor (R330, R369). -/
def cmdOk (c : Cmd) : Bool := c.req ≤ 16 && c.ring < 256 && c.desc.length = 16

/-- An access inside its BAR with a 4-bit byte-enable mask and a 20-bit PASID (R363, R367). -/
def accessOk (a : Access) : Bool :=
  a.be < 16 && (a.pasid.all fun p => p < 1048576) &&
  match a.bar with
  | 0 => a.off < 67108864
  | 2 => a.off < 33554432
  | 4 => a.off < 65536
  | _ => false

/-- A scope of the governor names a pipeline or a tile (R417). -/
def scopeOk : PwrScope → Bool
  | .pipe g => g < 64
  | .tile t => t < 8
  | .module => true

/-- Sixteen words to an entry (R369). -/
def entryOk (l : List Word) : Bool := l.length = 16

/-- The well-formedness of a command. -/
def Instr.wf : Instr → Bool
  | .mainsLost => true
  | .mainsReturn => true
  | .converterStop => true
  | .converterFault => true
  | .supplyGood => true
  | .plateColdHoldEnd => true
  | .sagThresholdCrossing => true
  | .sagShedTick => true
  | .saveStart => true
  | .saveWritten => true
  | .busBelow250v => true
  | .busAtReturnThreshold => true
  | .modResetNAssert => true
  | .modResetNRelease => true
  | .perstNAssert => true
  | .functionLevelReset => true
  | .watchdogExpiry => true
  | .optionsCommitted => true
  | .firmwareRunning => true
  | .patchesDone => true
  | .dramReady failed march => failed.all (· < 64) && march.all fun x => x.1 < 64 && x.2 < 9
  | .imageInTiles failed => failed.all fun x => x.1 < 64 && x.2 < 8
  | .tilesReady failed => failed.all (· < 8)
  | .calendarRunning => true
  | .islandReleaseTimeout unit => unit < 65536
  | .tileRejoinDone t => t < 8
  | .clockLoss code => code < 131
  | .clockRequalified => true
  | .safePolicyTimeout => true
  | .collectorResetTimeout => true
  | .thermShed _ => true
  | .thermUnshed _ => true
  | .pcsAlignmentHeld port => port < 528
  | .portDownDetect port _ => port < 528
  | .portHoldExpiry port => port < 528
  | .fecWindowEnd port _ _ _ _ => port < 528
  | .cagePoll cage x => cage < 64 && x.flags.length ≤ 32
  | .cageReadyTimeout cage => cage < 64
  | .i2cSdaStuck bus _ => bus < 8
  | .timSet => true
  | .timOffset => true
  | .timAdjWrite _ => true
  | .timNowCapture => true
  | .slewEnd => true
  | .scheduleRealign sched => sched ≤ 1536
  | .ppsOutEdge => true
  | .todLine => true
  | .ppsInEdge => true
  | .freqInPhase _ => true
  | .todRxByte bytes => bytes.length ≤ 256
  | .frameArrival _ port _ => port < 528
  | .headerCellsPresent _ _ _ => true
  | .frameTail _ => true
  | .expressLaunch _ => true
  | .expressArrival src dst => src.tile < 8 && dst < 8
  | .cellSpread _ => true
  | .cellArrival src dst _ => src < 8 && dst < 8
  | .spillWriteDone w => w.tile < 8
  | .noticeReceive src dst _ => src < 8 && dst < 8
  | .pullReceive src dst _ => src < 8 && dst < 8
  | .returnSend tile dst => tile < 8 && dst < 8
  | .returnArrival src dst _ => src < 8 && dst < 8
  | .reseqTimeout tile src leaf ssn pos => tile < 8 && src < 8 && leaf < 1048576 && ssn < 65536 && pos < 8
  | .reassemblyComplete tile src leaf ssn pos => tile < 8 && src < 8 && leaf < 1048576 && ssn < 65536 && pos < 8
  | .frameTxStart port => port < 528
  | .frameTxEnd port => port < 528
  | .evictReqReceive src dst _ => src < 8 && dst < 8
  | .evictReceive src dst _ => src < 8 && dst < 8
  | .evictNackReceive src dst _ => src < 8 && dst < 8
  | .pushoutTimeout _ => true
  | .evictionFilterExpiry tile => tile < 8
  | .portIdleSend tile => tile < 8
  | .portIdleReceive src dst _ => src < 8 && dst < 8
  | .linkDeclaredFailed rx tx => rx < 8 && tx < 8
  | .fenceReceive tile f => tile < 8 && f < 8
  | .bankSwap => true
  | .imgCommitSwap => true
  | .gateEntryChange port => port < 512
  | .gateSwitch port => port < 512
  | .streamGateEntryChange g => g < 1024
  | .streamGateSwitch g => g < 1024
  | .frerReset stream => stream < 65536
  | .depthSample tile => tile < 8
  | .raceWindowClose tile table slice _ => tile < 8 && table < 16 && slice < 16
  | .filterHoldExpiry tile table slice _ => tile < 8 && table < 16 && slice < 16
  | .tableWordRepaired tile _ _ => tile < 8
  | .junctionSample tile temps => tile < 8 && temps.length = 4
  | .throttleFall tile => tile < 8
  | .slabGroupAwake tile group => tile < 8 && group < 4
  | .slabSelfTestEnd tile failed => tile < 8 && failed.all fun x => x.1 < 8 && x.2 < 8
  | .junctionThermTrip tile => tile < 8
  | .plateThermTrip => true
  | .thermHoldRelease => true
  | .paceMonitorSample tile margins => tile < 8 && margins.all fun x => x.1 < 11
  | .avsLoop tile => tile < 8
  | .paceLow tile island => tile < 8 && island < 11
  | .paceMargin tile => tile < 8
  | .refreshDue ch rank _ => ch < 64 && rank < 9
  | .refreshDebtPayment ch => ch < 64
  | .dramReadDone tile idx _ => tile < 8 && idx < 67108864
  | .retirementRecordWritten ch => ch < 64
  | .migrationLastRow r => r.ch < 64
  | .remapCommit ch => ch < 64
  | .rngReseed => true
  | .migrationAbandon ch => ch < 64
  | .helloTimer port => port < 528
  | .helloReceive port _ => port < 528
  | .holdTimeExpiry port => port < 528
  | .managementFrameReceive port _ => port < 528
  | .failAdvRepeat => true
  | .repairStable port => port < 528
  | .revertTime => true
  | .leaveLeadExpiry => true
  | .mgmtPortFrameRx _ _ => true
  | .faultReport unit code _ _ => unit < 65536 && code < 65536
  | .engineFenceTimeout e => e < 16
  | .governorEvaluate scope _ => scopeOk scope
  | .governorWake scope => scopeOk scope
  | .islandWakeDone scope failed => scopeOk scope && failed.all (· < 64)
  | .dormantEntry _ => true
  | .dormantWake _ => true
  | .dormantWindowEnd => true
  | .governorDisable => true
  | .dumpPeriod set => set < 21
  | .engineSample e _ => e < 16
  | .timerExpiry req timer => req ≤ 16 && timer < 16
  | .ringDoorbell req ring idx => req ≤ 16 && ring < 256 && idx < 67108864
  | .descriptorFetchDone req ring entries _ => req ≤ 16 && ring < 256 && entries.all entryOk
  | .phaseRecheck req ring entry => req ≤ 16 && ring < 256 && entryOk entry
  | .ringEnable req ring => req ≤ 16 && ring < 256
  | .ringDisable req ring => req ≤ 16 && ring < 256
  | .msixHoldoffEnd req ring => req ≤ 16 && ring < 256
  | .hostReadTimeout req ring _ => req ≤ 16 && ring < 256
  | .packetTxTake c => cmdOk c
  | .sliceResetDone slice => slice < 16
  | .secLockClaim _ => true
  | .secMessageEnd => true
  | .urgentRequest level => level = 1 || level = 2
  | .secAlarm cause => cause < 4
  | .secCauseClear mask persists => mask < 16 && persists < 16
  | .uartFwHeader _ _ => true
  | .uartFwBlock _ _ => true
  | .swResetCold _ => true
  | .swResetWarm _ => true
  | .swResetTile _ tile => tile < 8
  | .swResetSlice _ slice => slice < 16
  | .swResetPort _ port => port < 528
  | .swResetEngine _ e => e < 16
  | .retryImage => true
  | .tileGo _ => true
  | .tcmBankSelWrite tile _ => tile < 8
  | .fltPop => true
  | .enterSafe _ => true
  | .fltUnitClear => true
  | .rcFieldRead _ => true
  | .registerWrite a => accessOk a
  | .tblSrch c => cmdOk c
  | .tblIns c => cmdOk c
  | .tblDel c => cmdOk c
  | .tblNext c => cmdOk c
  | .tblFlushp c => cmdOk c
  | .tblAge c _ => cmdOk c
  | .tblCkpt c => cmdOk c
  | .lpmIns c => cmdOk c
  | .lpmDel c => cmdOk c
  | .lpmSrch c => cmdOk c
  | .lpmLkup c => cmdOk c
  | .lpmNext c => cmdOk c
  | .tcmWr c => cmdOk c
  | .tcmVal c => cmdOk c
  | .tcmAct c => cmdOk c
  | .tcmRd c => cmdOk c
  | .tcmBase c => cmdOk c
  | .actNhWr c => cmdOk c
  | .actNhRd c => cmdOk c
  | .actGrpSet c => cmdOk c
  | .actBkt c => cmdOk c
  | .actBktRd c => cmdOk c
  | .actMemAdd c => cmdOk c
  | .actMemDel c => cmdOk c
  | .actMirSet c => cmdOk c
  | .schNode c => cmdOk c
  | .schShape c => cmdOk c
  | .schLeaf c => cmdOk c
  | .schRd c => cmdOk c
  | .schFrer c => cmdOk c
  | .schFrerRd c => cmdOk c
  | .polSet c => cmdOk c
  | .polRd c => cmdOk c
  | .gateWr c => cmdOk c
  | .gateSgWr c => cmdOk c
  | .gateCommit c => cmdOk c
  | .gateSgCommit c => cmdOk c
  | .gateRd c => cmdOk c
  | .calTimer c => cmdOk c
  | .calRd c => cmdOk c
  | .cntFrz c => cmdOk c
  | .cntRd c => cmdOk c
  | .cntDump c => cmdOk c
  | .cntPer c => cmdOk c
  | .memRd c => cmdOk c
  | .memWr c => cmdOk c
  | .memAlloc c => cmdOk c
  | .memFree c => cmdOk c
  | .memMig c => cmdOk c
  | .memMapClr c => cmdOk c
  | .memSaveRd c => cmdOk c
  | .portMode c => cmdOk c
  | .portSaAdd c => cmdOk c
  | .portSaDel c => cmdOk c
  | .portSaTxAn c => cmdOk c
  | .portCmisRd c _ => cmdOk c
  | .portCmisWr c _ => cmdOk c
  | .ringCrt c => cmdOk c
  | .ringDst c => cmdOk c
  | .ringBind c => cmdOk c
  | .ringUnbind c => cmdOk c
  | .slcRst c => cmdOk c
  | .slcInfo c => cmdOk c
  | .imgStage c _ => cmdOk c
  | .imgCommit c _ => cmdOk c
  | .imgCancel c => cmdOk c
  | .imgDiscard c => cmdOk c
  | .imgInfo c => cmdOk c
  | .imgKey c _ => cmdOk c
  | .secKeyLd c => cmdOk c
  | .secKeyClr c => cmdOk c
  | .secCmac c => cmdOk c
  | .secCrypt c => cmdOk c
  | .fabAdmit c => cmdOk c
  | .fabEvict c => cmdOk c
  | .fabRd c => cmdOk c
  | .sysNop c => cmdOk c
  | .sysFence c => cmdOk c
  | .sysReset c => cmdOk c
  | .sysOptWr c => cmdOk c && c.cut.all (· < 72)
  | .sysOptRd c => cmdOk c
  | .sysFwStage c _ _ => cmdOk c
  | .pcsAlignmentAcquired port => port < 528
  | .shaperLeavesRed level node => 1 ≤ level && level ≤ 3 && node < 1048576
  | .gateLeadOpening port cls => port < 512 && cls < 8
  | .mcLimiterRefill tile => tile < 8
  | .dormantWindowStart => true
  | .quietWindowStart tile => tile < 8
  | .oscWarm => true
  | .freqInOkChange _ => true
  | .ppsOutFall => true
  | .serviceUartCommand _ => true
  | .unmappedRead a => accessOk a
  | .bar4Write a => accessOk a
  | .pcieLinkChange _ _ _ => true

end Sys2Proof
end

