-- ==== Sys2Proof/Laws/PerInstr.lean ====
section
/-! SUPPORT. A statement of every command as syntax: a well-formed command carries a well-formed descriptor where it carries one. -/
namespace Sys2Proof

/-- The descriptor that a command carries, where it is one that an engine or HIF takes from a ring. -/
def Instr.cmd? : Instr → Option Cmd
  | .mainsLost => none
  | .mainsReturn => none
  | .converterStop => none
  | .converterFault => none
  | .supplyGood => none
  | .plateColdHoldEnd => none
  | .sagThresholdCrossing => none
  | .sagShedTick => none
  | .saveStart => none
  | .saveWritten => none
  | .busBelow250v => none
  | .busAtReturnThreshold => none
  | .modResetNAssert => none
  | .modResetNRelease => none
  | .perstNAssert => none
  | .functionLevelReset => none
  | .watchdogExpiry => none
  | .optionsCommitted => none
  | .firmwareRunning => none
  | .patchesDone => none
  | .dramReady _ _ => none
  | .imageInTiles _ => none
  | .tilesReady _ => none
  | .calendarRunning => none
  | .islandReleaseTimeout _ => none
  | .tileRejoinDone _ => none
  | .clockLoss _ => none
  | .clockRequalified => none
  | .safePolicyTimeout => none
  | .collectorResetTimeout => none
  | .thermShed _ => none
  | .thermUnshed _ => none
  | .pcsAlignmentHeld _ => none
  | .portDownDetect _ _ => none
  | .portHoldExpiry _ => none
  | .fecWindowEnd _ _ _ _ _ => none
  | .cagePoll _ _ => none
  | .cageReadyTimeout _ => none
  | .i2cSdaStuck _ _ => none
  | .timSet => none
  | .timOffset => none
  | .timAdjWrite _ => none
  | .timNowCapture => none
  | .slewEnd => none
  | .scheduleRealign _ => none
  | .ppsOutEdge => none
  | .todLine => none
  | .ppsInEdge => none
  | .freqInPhase _ => none
  | .todRxByte _ => none
  | .frameArrival _ _ _ => none
  | .headerCellsPresent _ _ _ => none
  | .frameTail _ => none
  | .expressLaunch _ => none
  | .expressArrival _ _ => none
  | .cellSpread _ => none
  | .cellArrival _ _ _ => none
  | .spillWriteDone _ => none
  | .noticeReceive _ _ _ => none
  | .pullReceive _ _ _ => none
  | .returnSend _ _ => none
  | .returnArrival _ _ _ => none
  | .reseqTimeout _ _ _ _ _ => none
  | .reassemblyComplete _ _ _ _ _ => none
  | .frameTxStart _ => none
  | .frameTxEnd _ => none
  | .evictReqReceive _ _ _ => none
  | .evictReceive _ _ _ => none
  | .evictNackReceive _ _ _ => none
  | .pushoutTimeout _ => none
  | .evictionFilterExpiry _ => none
  | .portIdleSend _ => none
  | .portIdleReceive _ _ _ => none
  | .linkDeclaredFailed _ _ => none
  | .fenceReceive _ _ => none
  | .bankSwap => none
  | .imgCommitSwap => none
  | .gateEntryChange _ => none
  | .gateSwitch _ => none
  | .streamGateEntryChange _ => none
  | .streamGateSwitch _ => none
  | .frerReset _ => none
  | .depthSample _ => none
  | .raceWindowClose _ _ _ _ => none
  | .filterHoldExpiry _ _ _ _ => none
  | .tableWordRepaired _ _ _ => none
  | .junctionSample _ _ => none
  | .throttleFall _ => none
  | .slabGroupAwake _ _ => none
  | .slabSelfTestEnd _ _ => none
  | .junctionThermTrip _ => none
  | .plateThermTrip => none
  | .thermHoldRelease => none
  | .paceMonitorSample _ _ => none
  | .avsLoop _ => none
  | .paceLow _ _ => none
  | .paceMargin _ => none
  | .refreshDue _ _ _ => none
  | .refreshDebtPayment _ => none
  | .dramReadDone _ _ _ => none
  | .retirementRecordWritten _ => none
  | .migrationLastRow _ => none
  | .remapCommit _ => none
  | .rngReseed => none
  | .migrationAbandon _ => none
  | .helloTimer _ => none
  | .helloReceive _ _ => none
  | .holdTimeExpiry _ => none
  | .managementFrameReceive _ _ => none
  | .failAdvRepeat => none
  | .repairStable _ => none
  | .revertTime => none
  | .leaveLeadExpiry => none
  | .mgmtPortFrameRx _ _ => none
  | .faultReport _ _ _ _ => none
  | .engineFenceTimeout _ => none
  | .governorEvaluate _ _ => none
  | .governorWake _ => none
  | .islandWakeDone _ _ => none
  | .dormantEntry _ => none
  | .dormantWake _ => none
  | .dormantWindowEnd => none
  | .governorDisable => none
  | .dumpPeriod _ => none
  | .engineSample _ _ => none
  | .timerExpiry _ _ => none
  | .ringDoorbell _ _ _ => none
  | .descriptorFetchDone _ _ _ _ => none
  | .phaseRecheck _ _ _ => none
  | .ringEnable _ _ => none
  | .ringDisable _ _ => none
  | .msixHoldoffEnd _ _ => none
  | .hostReadTimeout _ _ _ => none
  | .packetTxTake c => some c
  | .sliceResetDone _ => none
  | .secLockClaim _ => none
  | .secMessageEnd => none
  | .urgentRequest _ => none
  | .secAlarm _ => none
  | .secCauseClear _ _ => none
  | .uartFwHeader _ _ => none
  | .uartFwBlock _ _ => none
  | .swResetCold _ => none
  | .swResetWarm _ => none
  | .swResetTile _ _ => none
  | .swResetSlice _ _ => none
  | .swResetPort _ _ => none
  | .swResetEngine _ _ => none
  | .retryImage => none
  | .tileGo _ => none
  | .tcmBankSelWrite _ _ => none
  | .fltPop => none
  | .enterSafe _ => none
  | .fltUnitClear => none
  | .rcFieldRead _ => none
  | .registerWrite _ => none
  | .tblSrch c => some c
  | .tblIns c => some c
  | .tblDel c => some c
  | .tblNext c => some c
  | .tblFlushp c => some c
  | .tblAge c _ => some c
  | .tblCkpt c => some c
  | .lpmIns c => some c
  | .lpmDel c => some c
  | .lpmSrch c => some c
  | .lpmLkup c => some c
  | .lpmNext c => some c
  | .tcmWr c => some c
  | .tcmVal c => some c
  | .tcmAct c => some c
  | .tcmRd c => some c
  | .tcmBase c => some c
  | .actNhWr c => some c
  | .actNhRd c => some c
  | .actGrpSet c => some c
  | .actBkt c => some c
  | .actBktRd c => some c
  | .actMemAdd c => some c
  | .actMemDel c => some c
  | .actMirSet c => some c
  | .schNode c => some c
  | .schShape c => some c
  | .schLeaf c => some c
  | .schRd c => some c
  | .schFrer c => some c
  | .schFrerRd c => some c
  | .polSet c => some c
  | .polRd c => some c
  | .gateWr c => some c
  | .gateSgWr c => some c
  | .gateCommit c => some c
  | .gateSgCommit c => some c
  | .gateRd c => some c
  | .calTimer c => some c
  | .calRd c => some c
  | .cntFrz c => some c
  | .cntRd c => some c
  | .cntDump c => some c
  | .cntPer c => some c
  | .memRd c => some c
  | .memWr c => some c
  | .memAlloc c => some c
  | .memFree c => some c
  | .memMig c => some c
  | .memMapClr c => some c
  | .memSaveRd c => some c
  | .portMode c => some c
  | .portSaAdd c => some c
  | .portSaDel c => some c
  | .portSaTxAn c => some c
  | .portCmisRd c _ => some c
  | .portCmisWr c _ => some c
  | .ringCrt c => some c
  | .ringDst c => some c
  | .ringBind c => some c
  | .ringUnbind c => some c
  | .slcRst c => some c
  | .slcInfo c => some c
  | .imgStage c _ => some c
  | .imgCommit c _ => some c
  | .imgCancel c => some c
  | .imgDiscard c => some c
  | .imgInfo c => some c
  | .imgKey c _ => some c
  | .secKeyLd c => some c
  | .secKeyClr c => some c
  | .secCmac c => some c
  | .secCrypt c => some c
  | .fabAdmit c => some c
  | .fabEvict c => some c
  | .fabRd c => some c
  | .sysNop c => some c
  | .sysFence c => some c
  | .sysReset c => some c
  | .sysOptWr c => some c
  | .sysOptRd c => some c
  | .sysFwStage c _ _ => some c
  | .pcsAlignmentAcquired _ => none
  | .shaperLeavesRed _ _ => none
  | .gateLeadOpening _ _ => none
  | .mcLimiterRefill _ => none
  | .dormantWindowStart => none
  | .quietWindowStart _ => none
  | .oscWarm => none
  | .freqInOkChange _ => none
  | .ppsOutFall => none
  | .serviceUartCommand _ => none
  | .unmappedRead _ => none
  | .bar4Write _ => none
  | .pcieLinkChange _ _ _ => none

/-- A well-formed command's descriptor has its sixteen words and a requester and ring that exist. -/
def Laws.Shape.Statement (i : Instr) : Prop := i.wf = true → (i.cmd?).all cmdOk = true

theorem Laws.Shape.mainsLost : Laws.Shape.Statement (.mainsLost) := fun _ => rfl
theorem Laws.Shape.mainsReturn : Laws.Shape.Statement (.mainsReturn) := fun _ => rfl
theorem Laws.Shape.converterStop : Laws.Shape.Statement (.converterStop) := fun _ => rfl
theorem Laws.Shape.converterFault : Laws.Shape.Statement (.converterFault) := fun _ => rfl
theorem Laws.Shape.supplyGood : Laws.Shape.Statement (.supplyGood) := fun _ => rfl
theorem Laws.Shape.plateColdHoldEnd : Laws.Shape.Statement (.plateColdHoldEnd) := fun _ => rfl
theorem Laws.Shape.sagThresholdCrossing : Laws.Shape.Statement (.sagThresholdCrossing) := fun _ => rfl
theorem Laws.Shape.sagShedTick : Laws.Shape.Statement (.sagShedTick) := fun _ => rfl
theorem Laws.Shape.saveStart : Laws.Shape.Statement (.saveStart) := fun _ => rfl
theorem Laws.Shape.saveWritten : Laws.Shape.Statement (.saveWritten) := fun _ => rfl
theorem Laws.Shape.busBelow250v : Laws.Shape.Statement (.busBelow250v) := fun _ => rfl
theorem Laws.Shape.busAtReturnThreshold : Laws.Shape.Statement (.busAtReturnThreshold) := fun _ => rfl
theorem Laws.Shape.modResetNAssert : Laws.Shape.Statement (.modResetNAssert) := fun _ => rfl
theorem Laws.Shape.modResetNRelease : Laws.Shape.Statement (.modResetNRelease) := fun _ => rfl
theorem Laws.Shape.perstNAssert : Laws.Shape.Statement (.perstNAssert) := fun _ => rfl
theorem Laws.Shape.functionLevelReset : Laws.Shape.Statement (.functionLevelReset) := fun _ => rfl
theorem Laws.Shape.watchdogExpiry : Laws.Shape.Statement (.watchdogExpiry) := fun _ => rfl
theorem Laws.Shape.optionsCommitted : Laws.Shape.Statement (.optionsCommitted) := fun _ => rfl
theorem Laws.Shape.firmwareRunning : Laws.Shape.Statement (.firmwareRunning) := fun _ => rfl
theorem Laws.Shape.patchesDone : Laws.Shape.Statement (.patchesDone) := fun _ => rfl
theorem Laws.Shape.dramReady (failed : List Nat) (march : List (Nat × Nat)) : Laws.Shape.Statement (.dramReady failed march) := fun _ => rfl
theorem Laws.Shape.imageInTiles (failed : List (Nat × Nat)) : Laws.Shape.Statement (.imageInTiles failed) := fun _ => rfl
theorem Laws.Shape.tilesReady (failed : List Nat) : Laws.Shape.Statement (.tilesReady failed) := fun _ => rfl
theorem Laws.Shape.calendarRunning : Laws.Shape.Statement (.calendarRunning) := fun _ => rfl
theorem Laws.Shape.islandReleaseTimeout (unit : Nat) : Laws.Shape.Statement (.islandReleaseTimeout unit) := fun _ => rfl
theorem Laws.Shape.tileRejoinDone (t : Nat) : Laws.Shape.Statement (.tileRejoinDone t) := fun _ => rfl
theorem Laws.Shape.clockLoss (code : Nat) : Laws.Shape.Statement (.clockLoss code) := fun _ => rfl
theorem Laws.Shape.clockRequalified : Laws.Shape.Statement (.clockRequalified) := fun _ => rfl
theorem Laws.Shape.safePolicyTimeout : Laws.Shape.Statement (.safePolicyTimeout) := fun _ => rfl
theorem Laws.Shape.collectorResetTimeout : Laws.Shape.Statement (.collectorResetTimeout) := fun _ => rfl
theorem Laws.Shape.thermShed (plate : Int) : Laws.Shape.Statement (.thermShed plate) := fun _ => rfl
theorem Laws.Shape.thermUnshed (plate : Int) : Laws.Shape.Statement (.thermUnshed plate) := fun _ => rfl
theorem Laws.Shape.pcsAlignmentHeld (port : Nat) : Laws.Shape.Statement (.pcsAlignmentHeld port) := fun _ => rfl
theorem Laws.Shape.portDownDetect (port : Nat) (los : Bool) : Laws.Shape.Statement (.portDownDetect port los) := fun _ => rfl
theorem Laws.Shape.portHoldExpiry (port : Nat) : Laws.Shape.Statement (.portHoldExpiry port) := fun _ => rfl
theorem Laws.Shape.fecWindowEnd (port : Nat) (cw : Nat) (corr : Nat) (uncorr : Nat) (symbols : Nat) : Laws.Shape.Statement (.fecWindowEnd port cw corr uncorr symbols) := fun _ => rfl
theorem Laws.Shape.cagePoll (cage : Nat) (x : CageSample) : Laws.Shape.Statement (.cagePoll cage x) := fun _ => rfl
theorem Laws.Shape.cageReadyTimeout (cage : Nat) : Laws.Shape.Statement (.cageReadyTimeout cage) := fun _ => rfl
theorem Laws.Shape.i2cSdaStuck (bus : Nat) (stuck : Bool) : Laws.Shape.Statement (.i2cSdaStuck bus stuck) := fun _ => rfl
theorem Laws.Shape.timSet : Laws.Shape.Statement (.timSet) := fun _ => rfl
theorem Laws.Shape.timOffset : Laws.Shape.Statement (.timOffset) := fun _ => rfl
theorem Laws.Shape.timAdjWrite (val : Word) : Laws.Shape.Statement (.timAdjWrite val) := fun _ => rfl
theorem Laws.Shape.timNowCapture : Laws.Shape.Statement (.timNowCapture) := fun _ => rfl
theorem Laws.Shape.slewEnd : Laws.Shape.Statement (.slewEnd) := fun _ => rfl
theorem Laws.Shape.scheduleRealign (sched : Nat) : Laws.Shape.Statement (.scheduleRealign sched) := fun _ => rfl
theorem Laws.Shape.ppsOutEdge : Laws.Shape.Statement (.ppsOutEdge) := fun _ => rfl
theorem Laws.Shape.todLine : Laws.Shape.Statement (.todLine) := fun _ => rfl
theorem Laws.Shape.ppsInEdge : Laws.Shape.Statement (.ppsInEdge) := fun _ => rfl
theorem Laws.Shape.freqInPhase (ps : Word) : Laws.Shape.Statement (.freqInPhase ps) := fun _ => rfl
theorem Laws.Shape.todRxByte (bytes : List Byte) : Laws.Shape.Statement (.todRxByte bytes) := fun _ => rfl
theorem Laws.Shape.frameArrival (fid : Nat) (port : Nat) (f : RxFrame) : Laws.Shape.Statement (.frameArrival fid port f) := fun _ => rfl
theorem Laws.Shape.headerCellsPresent (fid : Nat) (present : Nat) (x : Findings) : Laws.Shape.Statement (.headerCellsPresent fid present x) := fun _ => rfl
theorem Laws.Shape.frameTail (fid : Nat) : Laws.Shape.Statement (.frameTail fid) := fun _ => rfl
theorem Laws.Shape.expressLaunch (fid : Nat) : Laws.Shape.Statement (.expressLaunch fid) := fun _ => rfl
theorem Laws.Shape.expressArrival (src : LinkEnd) (dst : Nat) : Laws.Shape.Statement (.expressArrival src dst) := fun _ => rfl
theorem Laws.Shape.cellSpread (fid : Nat) : Laws.Shape.Statement (.cellSpread fid) := fun _ => rfl
theorem Laws.Shape.cellArrival (src : Nat) (dst : Nat) (crcOk : Bool) : Laws.Shape.Statement (.cellArrival src dst crcOk) := fun _ => rfl
theorem Laws.Shape.spillWriteDone (w : SpillWrite) : Laws.Shape.Statement (.spillWriteDone w) := fun _ => rfl
theorem Laws.Shape.noticeReceive (src : Nat) (dst : Nat) (crcOk : Bool) : Laws.Shape.Statement (.noticeReceive src dst crcOk) := fun _ => rfl
theorem Laws.Shape.pullReceive (src : Nat) (dst : Nat) (crcOk : Bool) : Laws.Shape.Statement (.pullReceive src dst crcOk) := fun _ => rfl
theorem Laws.Shape.returnSend (tile : Nat) (dst : Nat) : Laws.Shape.Statement (.returnSend tile dst) := fun _ => rfl
theorem Laws.Shape.returnArrival (src : Nat) (dst : Nat) (crcOk : Bool) : Laws.Shape.Statement (.returnArrival src dst crcOk) := fun _ => rfl
theorem Laws.Shape.reseqTimeout (tile : Nat) (src : Nat) (leaf : Nat) (ssn : Nat) (pos : Nat) : Laws.Shape.Statement (.reseqTimeout tile src leaf ssn pos) := fun _ => rfl
theorem Laws.Shape.reassemblyComplete (tile : Nat) (src : Nat) (leaf : Nat) (ssn : Nat) (pos : Nat) : Laws.Shape.Statement (.reassemblyComplete tile src leaf ssn pos) := fun _ => rfl
theorem Laws.Shape.frameTxStart (port : Nat) : Laws.Shape.Statement (.frameTxStart port) := fun _ => rfl
theorem Laws.Shape.frameTxEnd (port : Nat) : Laws.Shape.Statement (.frameTxEnd port) := fun _ => rfl
theorem Laws.Shape.evictReqReceive (src : Nat) (dst : Nat) (crcOk : Bool) : Laws.Shape.Statement (.evictReqReceive src dst crcOk) := fun _ => rfl
theorem Laws.Shape.evictReceive (src : Nat) (dst : Nat) (crcOk : Bool) : Laws.Shape.Statement (.evictReceive src dst crcOk) := fun _ => rfl
theorem Laws.Shape.evictNackReceive (src : Nat) (dst : Nat) (crcOk : Bool) : Laws.Shape.Statement (.evictNackReceive src dst crcOk) := fun _ => rfl
theorem Laws.Shape.pushoutTimeout (fid : Nat) : Laws.Shape.Statement (.pushoutTimeout fid) := fun _ => rfl
theorem Laws.Shape.evictionFilterExpiry (tile : Nat) : Laws.Shape.Statement (.evictionFilterExpiry tile) := fun _ => rfl
theorem Laws.Shape.portIdleSend (tile : Nat) : Laws.Shape.Statement (.portIdleSend tile) := fun _ => rfl
theorem Laws.Shape.portIdleReceive (src : Nat) (dst : Nat) (crcOk : Bool) : Laws.Shape.Statement (.portIdleReceive src dst crcOk) := fun _ => rfl
theorem Laws.Shape.linkDeclaredFailed (rx : Nat) (tx : Nat) : Laws.Shape.Statement (.linkDeclaredFailed rx tx) := fun _ => rfl
theorem Laws.Shape.fenceReceive (tile : Nat) (f : Nat) : Laws.Shape.Statement (.fenceReceive tile f) := fun _ => rfl
theorem Laws.Shape.bankSwap : Laws.Shape.Statement (.bankSwap) := fun _ => rfl
theorem Laws.Shape.imgCommitSwap : Laws.Shape.Statement (.imgCommitSwap) := fun _ => rfl
theorem Laws.Shape.gateEntryChange (port : Nat) : Laws.Shape.Statement (.gateEntryChange port) := fun _ => rfl
theorem Laws.Shape.gateSwitch (port : Nat) : Laws.Shape.Statement (.gateSwitch port) := fun _ => rfl
theorem Laws.Shape.streamGateEntryChange (g : Nat) : Laws.Shape.Statement (.streamGateEntryChange g) := fun _ => rfl
theorem Laws.Shape.streamGateSwitch (g : Nat) : Laws.Shape.Statement (.streamGateSwitch g) := fun _ => rfl
theorem Laws.Shape.frerReset (stream : Nat) : Laws.Shape.Statement (.frerReset stream) := fun _ => rfl
theorem Laws.Shape.depthSample (tile : Nat) : Laws.Shape.Statement (.depthSample tile) := fun _ => rfl
theorem Laws.Shape.raceWindowClose (tile : Nat) (table : Nat) (slice : Nat) (key : BitVec 128) : Laws.Shape.Statement (.raceWindowClose tile table slice key) := fun _ => rfl
theorem Laws.Shape.filterHoldExpiry (tile : Nat) (table : Nat) (slice : Nat) (key : BitVec 128) : Laws.Shape.Statement (.filterHoldExpiry tile table slice key) := fun _ => rfl
theorem Laws.Shape.tableWordRepaired (tile : Nat) (mem : Nat) (addr : Nat) : Laws.Shape.Statement (.tableWordRepaired tile mem addr) := fun _ => rfl
theorem Laws.Shape.junctionSample (tile : Nat) (temps : List Int) : Laws.Shape.Statement (.junctionSample tile temps) := fun _ => rfl
theorem Laws.Shape.throttleFall (tile : Nat) : Laws.Shape.Statement (.throttleFall tile) := fun _ => rfl
theorem Laws.Shape.slabGroupAwake (tile : Nat) (group : Nat) : Laws.Shape.Statement (.slabGroupAwake tile group) := fun _ => rfl
theorem Laws.Shape.slabSelfTestEnd (tile : Nat) (failed : List (Nat × Nat)) : Laws.Shape.Statement (.slabSelfTestEnd tile failed) := fun _ => rfl
theorem Laws.Shape.junctionThermTrip (tile : Nat) : Laws.Shape.Statement (.junctionThermTrip tile) := fun _ => rfl
theorem Laws.Shape.plateThermTrip : Laws.Shape.Statement (.plateThermTrip) := fun _ => rfl
theorem Laws.Shape.thermHoldRelease : Laws.Shape.Statement (.thermHoldRelease) := fun _ => rfl
theorem Laws.Shape.paceMonitorSample (tile : Nat) (margins : List (Nat × Int)) : Laws.Shape.Statement (.paceMonitorSample tile margins) := fun _ => rfl
theorem Laws.Shape.avsLoop (tile : Nat) : Laws.Shape.Statement (.avsLoop tile) := fun _ => rfl
theorem Laws.Shape.paceLow (tile : Nat) (island : Nat) : Laws.Shape.Statement (.paceLow tile island) := fun _ => rfl
theorem Laws.Shape.paceMargin (tile : Nat) : Laws.Shape.Statement (.paceMargin tile) := fun _ => rfl
theorem Laws.Shape.refreshDue (ch : Nat) (rank : Nat) (busy : Bool) : Laws.Shape.Statement (.refreshDue ch rank busy) := fun _ => rfl
theorem Laws.Shape.refreshDebtPayment (ch : Nat) : Laws.Shape.Statement (.refreshDebtPayment ch) := fun _ => rfl
theorem Laws.Shape.dramReadDone (tile : Nat) (idx : Nat) (x : EccFinding) : Laws.Shape.Statement (.dramReadDone tile idx x) := fun _ => rfl
theorem Laws.Shape.retirementRecordWritten (ch : Nat) : Laws.Shape.Statement (.retirementRecordWritten ch) := fun _ => rfl
theorem Laws.Shape.migrationLastRow (r : RowsCopied) : Laws.Shape.Statement (.migrationLastRow r) := fun _ => rfl
theorem Laws.Shape.remapCommit (ch : Nat) : Laws.Shape.Statement (.remapCommit ch) := fun _ => rfl
theorem Laws.Shape.rngReseed : Laws.Shape.Statement (.rngReseed) := fun _ => rfl
theorem Laws.Shape.migrationAbandon (ch : Nat) : Laws.Shape.Statement (.migrationAbandon ch) := fun _ => rfl
theorem Laws.Shape.helloTimer (port : Nat) : Laws.Shape.Statement (.helloTimer port) := fun _ => rfl
theorem Laws.Shape.helloReceive (port : Nat) (h : Hello) : Laws.Shape.Statement (.helloReceive port h) := fun _ => rfl
theorem Laws.Shape.holdTimeExpiry (port : Nat) : Laws.Shape.Statement (.holdTimeExpiry port) := fun _ => rfl
theorem Laws.Shape.managementFrameReceive (port : Nat) (m : Mgmt) : Laws.Shape.Statement (.managementFrameReceive port m) := fun _ => rfl
theorem Laws.Shape.failAdvRepeat : Laws.Shape.Statement (.failAdvRepeat) := fun _ => rfl
theorem Laws.Shape.repairStable (port : Nat) : Laws.Shape.Statement (.repairStable port) := fun _ => rfl
theorem Laws.Shape.revertTime : Laws.Shape.Statement (.revertTime) := fun _ => rfl
theorem Laws.Shape.leaveLeadExpiry : Laws.Shape.Statement (.leaveLeadExpiry) := fun _ => rfl
theorem Laws.Shape.mgmtPortFrameRx (bytes : List Byte) (m : Option Mgmt) : Laws.Shape.Statement (.mgmtPortFrameRx bytes m) := fun _ => rfl
theorem Laws.Shape.faultReport (unit : Nat) (code : Nat) (info : Nat) (addr : Nat) : Laws.Shape.Statement (.faultReport unit code info addr) := fun _ => rfl
theorem Laws.Shape.engineFenceTimeout (e : Nat) : Laws.Shape.Statement (.engineFenceTimeout e) := fun _ => rfl
theorem Laws.Shape.governorEvaluate (scope : PwrScope) (next : Nat) : Laws.Shape.Statement (.governorEvaluate scope next) := fun _ => rfl
theorem Laws.Shape.governorWake (scope : PwrScope) : Laws.Shape.Statement (.governorWake scope) := fun _ => rfl
theorem Laws.Shape.islandWakeDone (scope : PwrScope) (failed : List Nat) : Laws.Shape.Statement (.islandWakeDone scope failed) := fun _ => rfl
theorem Laws.Shape.dormantEntry (val : Word) : Laws.Shape.Statement (.dormantEntry val) := fun _ => rfl
theorem Laws.Shape.dormantWake (val : Word) : Laws.Shape.Statement (.dormantWake val) := fun _ => rfl
theorem Laws.Shape.dormantWindowEnd : Laws.Shape.Statement (.dormantWindowEnd) := fun _ => rfl
theorem Laws.Shape.governorDisable : Laws.Shape.Statement (.governorDisable) := fun _ => rfl
theorem Laws.Shape.dumpPeriod (set : Nat) : Laws.Shape.Statement (.dumpPeriod set) := fun _ => rfl
theorem Laws.Shape.engineSample (e : Nat) (skid : Nat) : Laws.Shape.Statement (.engineSample e skid) := fun _ => rfl
theorem Laws.Shape.timerExpiry (req : Nat) (timer : Nat) : Laws.Shape.Statement (.timerExpiry req timer) := fun _ => rfl
theorem Laws.Shape.ringDoorbell (req : Nat) (ring : Nat) (idx : Nat) : Laws.Shape.Statement (.ringDoorbell req ring idx) := fun _ => rfl
theorem Laws.Shape.descriptorFetchDone (req : Nat) (ring : Nat) (entries : List (List Word)) (micro : Nat) : Laws.Shape.Statement (.descriptorFetchDone req ring entries micro) := fun _ => rfl
theorem Laws.Shape.phaseRecheck (req : Nat) (ring : Nat) (entry : List Word) : Laws.Shape.Statement (.phaseRecheck req ring entry) := fun _ => rfl
theorem Laws.Shape.ringEnable (req : Nat) (ring : Nat) : Laws.Shape.Statement (.ringEnable req ring) := fun _ => rfl
theorem Laws.Shape.ringDisable (req : Nat) (ring : Nat) : Laws.Shape.Statement (.ringDisable req ring) := fun _ => rfl
theorem Laws.Shape.msixHoldoffEnd (req : Nat) (ring : Nat) : Laws.Shape.Statement (.msixHoldoffEnd req ring) := fun _ => rfl
theorem Laws.Shape.hostReadTimeout (req : Nat) (ring : Nat) (ringMem : Bool) : Laws.Shape.Statement (.hostReadTimeout req ring ringMem) := fun _ => rfl
theorem Laws.Shape.packetTxTake (c : Cmd) : Laws.Shape.Statement (.packetTxTake c) := fun h => h
theorem Laws.Shape.sliceResetDone (slice : Nat) : Laws.Shape.Statement (.sliceResetDone slice) := fun _ => rfl
theorem Laws.Shape.secLockClaim (id : Nat) : Laws.Shape.Statement (.secLockClaim id) := fun _ => rfl
theorem Laws.Shape.secMessageEnd : Laws.Shape.Statement (.secMessageEnd) := fun _ => rfl
theorem Laws.Shape.urgentRequest (level : Nat) : Laws.Shape.Statement (.urgentRequest level) := fun _ => rfl
theorem Laws.Shape.secAlarm (cause : Nat) : Laws.Shape.Statement (.secAlarm cause) := fun _ => rfl
theorem Laws.Shape.secCauseClear (mask : Nat) (persists : Nat) : Laws.Shape.Statement (.secCauseClear mask persists) := fun _ => rfl
theorem Laws.Shape.uartFwHeader (slotB : Bool) (length : Nat) : Laws.Shape.Statement (.uartFwHeader slotB length) := fun _ => rfl
theorem Laws.Shape.uartFwBlock (crcOk : Bool) (fw : FwImage) : Laws.Shape.Statement (.uartFwBlock crcOk fw) := fun _ => rfl
theorem Laws.Shape.swResetCold (key : Nat) : Laws.Shape.Statement (.swResetCold key) := fun _ => rfl
theorem Laws.Shape.swResetWarm (key : Nat) : Laws.Shape.Statement (.swResetWarm key) := fun _ => rfl
theorem Laws.Shape.swResetTile (key : Nat) (tile : Nat) : Laws.Shape.Statement (.swResetTile key tile) := fun _ => rfl
theorem Laws.Shape.swResetSlice (key : Nat) (slice : Nat) : Laws.Shape.Statement (.swResetSlice key slice) := fun _ => rfl
theorem Laws.Shape.swResetPort (key : Nat) (port : Nat) : Laws.Shape.Statement (.swResetPort key port) := fun _ => rfl
theorem Laws.Shape.swResetEngine (key : Nat) (e : Nat) : Laws.Shape.Statement (.swResetEngine key e) := fun _ => rfl
theorem Laws.Shape.retryImage : Laws.Shape.Statement (.retryImage) := fun _ => rfl
theorem Laws.Shape.tileGo (mask : Nat) : Laws.Shape.Statement (.tileGo mask) := fun _ => rfl
theorem Laws.Shape.tcmBankSelWrite (tile : Nat) (val : Word) : Laws.Shape.Statement (.tcmBankSelWrite tile val) := fun _ => rfl
theorem Laws.Shape.fltPop : Laws.Shape.Statement (.fltPop) := fun _ => rfl
theorem Laws.Shape.enterSafe (key : Nat) : Laws.Shape.Statement (.enterSafe key) := fun _ => rfl
theorem Laws.Shape.fltUnitClear : Laws.Shape.Statement (.fltUnitClear) := fun _ => rfl
theorem Laws.Shape.rcFieldRead (off : Nat) : Laws.Shape.Statement (.rcFieldRead off) := fun _ => rfl
theorem Laws.Shape.registerWrite (a : Access) : Laws.Shape.Statement (.registerWrite a) := fun _ => rfl
theorem Laws.Shape.tblSrch (c : Cmd) : Laws.Shape.Statement (.tblSrch c) := fun h => h
theorem Laws.Shape.tblIns (c : Cmd) : Laws.Shape.Statement (.tblIns c) := fun h => h
theorem Laws.Shape.tblDel (c : Cmd) : Laws.Shape.Statement (.tblDel c) := fun h => h
theorem Laws.Shape.tblNext (c : Cmd) : Laws.Shape.Statement (.tblNext c) := fun h => h
theorem Laws.Shape.tblFlushp (c : Cmd) : Laws.Shape.Statement (.tblFlushp c) := fun h => h
theorem Laws.Shape.tblAge (c : Cmd) (raced : List Nat) : Laws.Shape.Statement (.tblAge c raced) := fun h => h
theorem Laws.Shape.tblCkpt (c : Cmd) : Laws.Shape.Statement (.tblCkpt c) := fun h => h
theorem Laws.Shape.lpmIns (c : Cmd) : Laws.Shape.Statement (.lpmIns c) := fun h => h
theorem Laws.Shape.lpmDel (c : Cmd) : Laws.Shape.Statement (.lpmDel c) := fun h => h
theorem Laws.Shape.lpmSrch (c : Cmd) : Laws.Shape.Statement (.lpmSrch c) := fun h => h
theorem Laws.Shape.lpmLkup (c : Cmd) : Laws.Shape.Statement (.lpmLkup c) := fun h => h
theorem Laws.Shape.lpmNext (c : Cmd) : Laws.Shape.Statement (.lpmNext c) := fun h => h
theorem Laws.Shape.tcmWr (c : Cmd) : Laws.Shape.Statement (.tcmWr c) := fun h => h
theorem Laws.Shape.tcmVal (c : Cmd) : Laws.Shape.Statement (.tcmVal c) := fun h => h
theorem Laws.Shape.tcmAct (c : Cmd) : Laws.Shape.Statement (.tcmAct c) := fun h => h
theorem Laws.Shape.tcmRd (c : Cmd) : Laws.Shape.Statement (.tcmRd c) := fun h => h
theorem Laws.Shape.tcmBase (c : Cmd) : Laws.Shape.Statement (.tcmBase c) := fun h => h
theorem Laws.Shape.actNhWr (c : Cmd) : Laws.Shape.Statement (.actNhWr c) := fun h => h
theorem Laws.Shape.actNhRd (c : Cmd) : Laws.Shape.Statement (.actNhRd c) := fun h => h
theorem Laws.Shape.actGrpSet (c : Cmd) : Laws.Shape.Statement (.actGrpSet c) := fun h => h
theorem Laws.Shape.actBkt (c : Cmd) : Laws.Shape.Statement (.actBkt c) := fun h => h
theorem Laws.Shape.actBktRd (c : Cmd) : Laws.Shape.Statement (.actBktRd c) := fun h => h
theorem Laws.Shape.actMemAdd (c : Cmd) : Laws.Shape.Statement (.actMemAdd c) := fun h => h
theorem Laws.Shape.actMemDel (c : Cmd) : Laws.Shape.Statement (.actMemDel c) := fun h => h
theorem Laws.Shape.actMirSet (c : Cmd) : Laws.Shape.Statement (.actMirSet c) := fun h => h
theorem Laws.Shape.schNode (c : Cmd) : Laws.Shape.Statement (.schNode c) := fun h => h
theorem Laws.Shape.schShape (c : Cmd) : Laws.Shape.Statement (.schShape c) := fun h => h
theorem Laws.Shape.schLeaf (c : Cmd) : Laws.Shape.Statement (.schLeaf c) := fun h => h
theorem Laws.Shape.schRd (c : Cmd) : Laws.Shape.Statement (.schRd c) := fun h => h
theorem Laws.Shape.schFrer (c : Cmd) : Laws.Shape.Statement (.schFrer c) := fun h => h
theorem Laws.Shape.schFrerRd (c : Cmd) : Laws.Shape.Statement (.schFrerRd c) := fun h => h
theorem Laws.Shape.polSet (c : Cmd) : Laws.Shape.Statement (.polSet c) := fun h => h
theorem Laws.Shape.polRd (c : Cmd) : Laws.Shape.Statement (.polRd c) := fun h => h
theorem Laws.Shape.gateWr (c : Cmd) : Laws.Shape.Statement (.gateWr c) := fun h => h
theorem Laws.Shape.gateSgWr (c : Cmd) : Laws.Shape.Statement (.gateSgWr c) := fun h => h
theorem Laws.Shape.gateCommit (c : Cmd) : Laws.Shape.Statement (.gateCommit c) := fun h => h
theorem Laws.Shape.gateSgCommit (c : Cmd) : Laws.Shape.Statement (.gateSgCommit c) := fun h => h
theorem Laws.Shape.gateRd (c : Cmd) : Laws.Shape.Statement (.gateRd c) := fun h => h
theorem Laws.Shape.calTimer (c : Cmd) : Laws.Shape.Statement (.calTimer c) := fun h => h
theorem Laws.Shape.calRd (c : Cmd) : Laws.Shape.Statement (.calRd c) := fun h => h
theorem Laws.Shape.cntFrz (c : Cmd) : Laws.Shape.Statement (.cntFrz c) := fun h => h
theorem Laws.Shape.cntRd (c : Cmd) : Laws.Shape.Statement (.cntRd c) := fun h => h
theorem Laws.Shape.cntDump (c : Cmd) : Laws.Shape.Statement (.cntDump c) := fun h => h
theorem Laws.Shape.cntPer (c : Cmd) : Laws.Shape.Statement (.cntPer c) := fun h => h
theorem Laws.Shape.memRd (c : Cmd) : Laws.Shape.Statement (.memRd c) := fun h => h
theorem Laws.Shape.memWr (c : Cmd) : Laws.Shape.Statement (.memWr c) := fun h => h
theorem Laws.Shape.memAlloc (c : Cmd) : Laws.Shape.Statement (.memAlloc c) := fun h => h
theorem Laws.Shape.memFree (c : Cmd) : Laws.Shape.Statement (.memFree c) := fun h => h
theorem Laws.Shape.memMig (c : Cmd) : Laws.Shape.Statement (.memMig c) := fun h => h
theorem Laws.Shape.memMapClr (c : Cmd) : Laws.Shape.Statement (.memMapClr c) := fun h => h
theorem Laws.Shape.memSaveRd (c : Cmd) : Laws.Shape.Statement (.memSaveRd c) := fun h => h
theorem Laws.Shape.portMode (c : Cmd) : Laws.Shape.Statement (.portMode c) := fun h => h
theorem Laws.Shape.portSaAdd (c : Cmd) : Laws.Shape.Statement (.portSaAdd c) := fun h => h
theorem Laws.Shape.portSaDel (c : Cmd) : Laws.Shape.Statement (.portSaDel c) := fun h => h
theorem Laws.Shape.portSaTxAn (c : Cmd) : Laws.Shape.Statement (.portSaTxAn c) := fun h => h
theorem Laws.Shape.portCmisRd (c : Cmd) (optic : Option (List Byte)) : Laws.Shape.Statement (.portCmisRd c optic) := fun h => h
theorem Laws.Shape.portCmisWr (c : Cmd) (optic : Bool) : Laws.Shape.Statement (.portCmisWr c optic) := fun h => h
theorem Laws.Shape.ringCrt (c : Cmd) : Laws.Shape.Statement (.ringCrt c) := fun h => h
theorem Laws.Shape.ringDst (c : Cmd) : Laws.Shape.Statement (.ringDst c) := fun h => h
theorem Laws.Shape.ringBind (c : Cmd) : Laws.Shape.Statement (.ringBind c) := fun h => h
theorem Laws.Shape.ringUnbind (c : Cmd) : Laws.Shape.Statement (.ringUnbind c) := fun h => h
theorem Laws.Shape.slcRst (c : Cmd) : Laws.Shape.Statement (.slcRst c) := fun h => h
theorem Laws.Shape.slcInfo (c : Cmd) : Laws.Shape.Statement (.slcInfo c) := fun h => h
theorem Laws.Shape.imgStage (c : Cmd) (img : Option Image) : Laws.Shape.Statement (.imgStage c img) := fun h => h
theorem Laws.Shape.imgCommit (c : Cmd) (late : Bool) : Laws.Shape.Statement (.imgCommit c late) := fun h => h
theorem Laws.Shape.imgCancel (c : Cmd) : Laws.Shape.Statement (.imgCancel c) := fun h => h
theorem Laws.Shape.imgDiscard (c : Cmd) : Laws.Shape.Statement (.imgDiscard c) := fun h => h
theorem Laws.Shape.imgInfo (c : Cmd) : Laws.Shape.Statement (.imgInfo c) := fun h => h
theorem Laws.Shape.imgKey (c : Cmd) (cert : Option (Option Nat)) : Laws.Shape.Statement (.imgKey c cert) := fun h => h
theorem Laws.Shape.secKeyLd (c : Cmd) : Laws.Shape.Statement (.secKeyLd c) := fun h => h
theorem Laws.Shape.secKeyClr (c : Cmd) : Laws.Shape.Statement (.secKeyClr c) := fun h => h
theorem Laws.Shape.secCmac (c : Cmd) : Laws.Shape.Statement (.secCmac c) := fun h => h
theorem Laws.Shape.secCrypt (c : Cmd) : Laws.Shape.Statement (.secCrypt c) := fun h => h
theorem Laws.Shape.fabAdmit (c : Cmd) : Laws.Shape.Statement (.fabAdmit c) := fun h => h
theorem Laws.Shape.fabEvict (c : Cmd) : Laws.Shape.Statement (.fabEvict c) := fun h => h
theorem Laws.Shape.fabRd (c : Cmd) : Laws.Shape.Statement (.fabRd c) := fun h => h
theorem Laws.Shape.sysNop (c : Cmd) : Laws.Shape.Statement (.sysNop c) := fun h => h
theorem Laws.Shape.sysFence (c : Cmd) : Laws.Shape.Statement (.sysFence c) := fun h => h
theorem Laws.Shape.sysReset (c : Cmd) : Laws.Shape.Statement (.sysReset c) := fun h => h
theorem Laws.Shape.sysOptWr (c : Cmd) : Laws.Shape.Statement (.sysOptWr c) := fun h => ((Bool.and_eq_true _ _).mp h).1
theorem Laws.Shape.sysOptRd (c : Cmd) : Laws.Shape.Statement (.sysOptRd c) := fun h => h
theorem Laws.Shape.sysFwStage (c : Cmd) (fw : FwImage) (patch : PatchBlock) : Laws.Shape.Statement (.sysFwStage c fw patch) := fun h => h
theorem Laws.Shape.pcsAlignmentAcquired (port : Nat) : Laws.Shape.Statement (.pcsAlignmentAcquired port) := fun _ => rfl
theorem Laws.Shape.shaperLeavesRed (level : Nat) (node : Nat) : Laws.Shape.Statement (.shaperLeavesRed level node) := fun _ => rfl
theorem Laws.Shape.gateLeadOpening (port : Nat) (cls : Nat) : Laws.Shape.Statement (.gateLeadOpening port cls) := fun _ => rfl
theorem Laws.Shape.mcLimiterRefill (tile : Nat) : Laws.Shape.Statement (.mcLimiterRefill tile) := fun _ => rfl
theorem Laws.Shape.dormantWindowStart : Laws.Shape.Statement (.dormantWindowStart) := fun _ => rfl
theorem Laws.Shape.quietWindowStart (tile : Nat) : Laws.Shape.Statement (.quietWindowStart tile) := fun _ => rfl
theorem Laws.Shape.oscWarm : Laws.Shape.Statement (.oscWarm) := fun _ => rfl
theorem Laws.Shape.freqInOkChange (ok : Bool) : Laws.Shape.Statement (.freqInOkChange ok) := fun _ => rfl
theorem Laws.Shape.ppsOutFall : Laws.Shape.Statement (.ppsOutFall) := fun _ => rfl
theorem Laws.Shape.serviceUartCommand (u : UartCmd) : Laws.Shape.Statement (.serviceUartCommand u) := fun _ => rfl
theorem Laws.Shape.unmappedRead (a : Access) : Laws.Shape.Statement (.unmappedRead a) := fun _ => rfl
theorem Laws.Shape.bar4Write (a : Access) : Laws.Shape.Statement (.bar4Write a) := fun _ => rfl
theorem Laws.Shape.pcieLinkChange (up : Bool) (speed : Nat) (width : Nat) : Laws.Shape.Statement (.pcieLinkChange up speed width) := fun _ => rfl

end Sys2Proof
end

