-- ==== Sys2Proof/Laws/Units.lean ====
section
/-! SUPPORT. The operations on whole units are calm: ports, engines, fences, reports and resets. -/
namespace Sys2Proof.Machine

/-! ## Frames and ports -/

theorem calm_freeExpress (f : Frame) (s : State) : Calm s (freeExpress f s) := (calm_setLeaf ..).trans (calm_setPort ..)

theorem calm_slotRelease (sl : Slot) (s : State) : Calm s (slotRelease sl s) := by
  unfold slotRelease
  exact calm_ite (fun _ => Calm.rfl) fun _ => calm_bufRelease ..

theorem calm_framesWires (l : List Frame) (w : List Wire) (s : State) :
    Calm s { s with frames := l, fab := { s.fab with wires := w } } := ⟨rfl, rfl, rfl, id, id, id⟩

theorem calm_endKeep (p : Nat) (s : State) : Calm s (endKeep p s) := ⟨rfl, rfl, rfl, id, id, id⟩

/-- The frame of an express slot is over: gone from the tile and the links. -/
theorem calm_expressOver (f : Frame) (l : List Frame) (w : List Wire) (s : State) :
    Calm s (frameGone f.fid (freeExpress f { s with frames := l, fab := { s.fab with wires := w } })) :=
  (calm_framesWires l w s).trans ((calm_freeExpress f _).trans (calm_frameGone f.fid _))

theorem calm_expressCut (p : Nat) (f : Port → Port) (s : State) :
    Calm s (portCnt p 22 1 (emit (.abort p) (endKeep p (setPort p f s)))) :=
  ((calm_setPort ..).trans (calm_endKeep ..)).trans ((calm_emit ..).trans (calm_count ..))

theorem calm_expressBad (f : Frame) (s : State) : Calm s (expressBad f s) := by
  unfold expressBad
  refine Calm.trans ?_ (calm_setPort ..)
  refine Calm.trans ?_ (calm_forEach (fun sl => calm_slotRelease sl) _ _)
  exact calm_ite (fun _ => Calm.trans (calm_expressOver f _ _ s) (calm_expressCut ..)) fun _ => calm_expressOver f _ _ s

theorem calm_frames (l : List Frame) (s : State) : Calm s { s with frames := l } := ⟨rfl, rfl, rfl, id, id, id⟩

theorem calm_expressLost (f : Frame) (s : State) : Calm s (expressLost f s) := by
  unfold expressLost
  exact calm_ite (fun _ => calm_expressBad f s) fun _ => (calm_expressBad f s).trans (calm_frames _ _)

theorem calm_copyGone (sl : Slot) (s : State) : Calm s (copyGone sl s) :=
  (calm_iff _ (calm_frameGone sl.fid) s).trans (calm_slotRelease ..)

theorem calm_dropCopy (p a b : Nat) (sl : Slot) (s : State) : Calm s (dropCopy p a b sl s) :=
  ((calm_copyGone sl s).trans (calm_count ..)).trans (calm_count ..)

theorem calm_dropSlot (p : Nat) (sl : Slot) (s : State) : Calm s (dropSlot p sl s) := by
  unfold dropSlot
  refine calm_ite (fun _ => calm_dropCopy ..) fun _ => ?_
  refine calm_ite (fun _ => ((calm_frameGone ..).trans (calm_slotRelease ..)).trans ((calm_setLeaf ..).trans (calm_dropLeaf ..))) fun _ => ?_
  exact calm_ite (fun _ => ((calm_frameGone ..).trans (calm_slotRelease ..)).trans (calm_dropLeaf ..)) fun _ => Calm.rfl

theorem calm_asms (l : List Asm) (s : State) : Calm s { s with fab := { s.fab with asms := l } } := ⟨rfl, rfl, rfl, id, id, id⟩

theorem calm_dropTx (p : Nat) (x : Option Slot) (s : State) :
    Calm s (match x with
      | some sl => emit (.abort p) (dropSlot p { sl with ready := true } s)
      | none => s) := by
  cases x
  · exact Calm.rfl
  · exact (calm_dropSlot ..).trans (calm_emit ..)

theorem calm_dropPulled (p : Nat) (s : State) : Calm s (dropPulled p s) := by
  unfold dropPulled
  refine Calm.trans ?_ ((calm_setPort ..).trans (calm_endKeep ..))
  refine Calm.trans ?_ (calm_dropTx p _ _)
  exact (calm_asms _ s).trans (calm_forEach (fun sl => calm_dropSlot p sl) _ _)

theorem calm_flushPort (p : Nat) (s : State) : Calm s (flushPort p s) :=
  ((calm_forEach (β := Notice) (fun _ _ => (calm_evictNote ..).trans (calm_dropLeaf ..)) _ s).trans
    (calm_forEach (β := Nat × Slot) (fun _ _ => calm_dropCopy ..) _ _)).trans (calm_setPort ..)

theorem calm_portGoDown (p : Nat) (b : Bool) (s : State) : Calm s (portGoDown p b s) := by
  unfold portGoDown
  refine calm_ite (fun _ => Calm.trans ?_ ((calm_flushPort ..).trans (calm_setPort ..))) fun _ =>
    calm_ite (fun _ => Calm.trans ?_ (calm_setPort ..)) fun _ => ?_
  all_goals exact ((calm_setPort ..).trans (calm_iff _ (calm_count _ _ _) _)).trans (calm_dropPulled p _)

theorem calm_portHoldDown (p : Nat) (b : Bool) (s : State) : Calm s (portHoldDown p b s) :=
  ((calm_setPort ..).trans (calm_setPort ..)).trans (calm_portGoDown ..)

theorem calm_updateLimit (s : State) : Calm s (updateLimit s) :=
  (calm_forEach (β := Nat) (fun _ _ => calm_rset ..) _ s).trans (calm_forEach (β := Nat × Nat) (fun _ _ => calm_rset ..) _ _)

/-! ## Records and the safe state -/

theorem calm_countLost (s : State) : Calm s (countLost s) := (calm_rset ..).trans (calm_count ..)

theorem calm_appendRec (r : FaultRec) (s : State) : Calm s (appendRec r s) := by
  unfold appendRec
  refine calm_ite (fun _ => calm_countLost s) fun _ => calm_ite (fun _ => (calm_countLost s).trans (calm_pset ..)) fun h => ?_
  refine Calm.trans (t := { s with flt := { s.flt with
    fifo := s.flt.fifo ++ [{ r with seq := s.flt.seq, time := s.tim.now }], seq := (s.flt.seq + 1) % 65536 } })
    ⟨rfl, rfl, rfl, id, fun _ => ?_, id⟩ ?_
  · show (s.flt.fifo ++ [_]).length ≤ 64
    rw [List.length_append]
    simp only [List.length_singleton]
    omega
  · exact ((calm_count ..).trans (calm_count ..)).trans ((calm_post ..).trans (calm_count ..))

theorem calm_freezeFifo (s : State) : Calm s (freezeFifo s) := calm_pset ..

theorem calm_enterSafe (s : State) : Calm s (enterSafe s) := by
  unfold enterSafe
  refine calm_ite (fun _ => Calm.rfl) fun _ => ?_
  exact ((calm_freezeFifo s).trans (calm_pset ..)).trans (calm_forEach (fun p => calm_portHoldDown p false) _ _)

/-! ## Engines -/

theorem calm_iterStops (d : List Word) (s : State) : Calm s (iterStops d s) := by
  unfold iterStops
  exact calm_ite (fun _ => calm_setChannel ..) fun _ => Calm.rfl

theorem calm_endPartial (q r : Nat) (s : State) : Calm s (endPartial q r s) := by
  unfold endPartial
  split
  · exact (calm_completeWith ..).trans (calm_iterStops ..)
  · exact Calm.rfl

theorem calm_completeFetched (q r st : Nat) (s : State) : Calm s (completeFetched q r st s) :=
  calm_forEach (β := Nat × List Word) (fun _ _ => calm_completeWith ..) _ s

theorem calm_pairLost (t : Nat) (s : State) : Calm s (pairLost t s) :=
  (calm_forEach (β := Nat × Nat) (fun _ _ => calm_completeFetched ..) _ s).trans (calm_post ..)

theorem calm_squashRunning (e : Nat) (s : State) : Calm s (squashRunning e s) := by
  unfold squashRunning
  dsimp only
  split
  · split
    · exact calm_ite (fun _ => calm_completeWith ..) fun _ => calm_completeWith ..
    · exact Calm.rfl
  · exact Calm.rfl

/-- Every ring is changed by a function. -/
theorem calm_rings (f : Nat → Ring → Ring) (s : State) : Calm s { s with hif := { s.hif with rings := tmap f s.hif.rings } } :=
  ⟨rfl, rfl, rfl, id, id, fun h => ⟨h.1, h.2.1, tmap_wf f h.2.2.1, h.2.2.2⟩⟩

theorem calm_engineOut (e : Nat) (f : Engine → Engine) (s : State) : Calm s (engineOut e f s) := by
  unfold engineOut
  refine calm_ite (fun _ => Calm.trans ?_ (calm_setEngine ..)) fun _ => Calm.trans ?_ (calm_iff _ (calm_pairLost _) _)
  all_goals exact ((calm_squashRunning e s).trans (calm_forEach (β := Nat × Nat) (fun _ _ => calm_endPartial ..) _ _)).trans (
    ((calm_setEngine ..).trans (calm_rings ..)).trans (calm_bufFreeAll ..))

theorem calm_fenceEngine (e k : Nat) (s : State) : Calm s (fenceEngine e k s) := calm_engineOut ..

theorem calm_requestFence (e k : Nat) (s : State) : Calm s (requestFence e k s) := by
  unfold requestFence
  refine calm_ite (fun _ => Calm.rfl) fun _ => calm_ite (fun _ => calm_setEngine ..) fun _ => calm_fenceEngine ..

theorem calm_resetEngine (e : Nat) (s : State) : Calm s (resetEngine e s) := by
  unfold resetEngine
  refine Calm.trans ?_ (((calm_iff _ (calm_setUnit _ _) _).trans (calm_setEngine ..)).trans
    (calm_iff _ (fun s => (calm_setEngine _ _ s).trans (calm_rings _ _)) _))
  exact calm_ite (fun _ => calm_engineOut e id s) fun _ => Calm.rfl

theorem calm_urgentStops (q h : Nat) (own : Nat → Bool) (s : State) : Calm s (urgentStops q h own s) :=
  calm_forEach (β := Nat × Nat) (fun _ _ => calm_endPartial ..) _ s

theorem calm_noteCmd (c : Cmd) (s : State) : Calm s (noteCmd c s) := by
  unfold noteCmd
  dsimp only
  split
  · exact (calm_iff _ (calm_urgentStops _ _ _) s).trans (calm_setEngine ..)
  · exact calm_iff _ (calm_urgentStops _ _ _) s

/-- A command is calm when its execution is. -/
theorem calm_runCmd {c : Cmd} {op : Nat} {w : Who} {checks : List (Bool × Nat)} {f : State → State} (h : ∀ s, Calm s (f s)) (s : State) :
    Calm s (runCmd c op w checks f s) := by
  unfold runCmd
  split
  · exact Calm.rfl
  · exact calm_fin ..
  · refine calm_ite (fun _ => calm_fin ..) fun _ => ?_
    split
    · exact calm_fin ..
    · exact (calm_noteCmd c s).trans (h _)

/-! ## Slices, ranks and fences -/

theorem calm_endBusy (q r st : Nat) (ret : List (Nat × Word)) (s : State) : Calm s (endBusy q r st ret s) := by
  unfold endBusy
  split
  · exact calm_completeWith ..
  · exact Calm.rfl

theorem calm_sliceResetStart (sl : Nat) (s : State) : Calm s (sliceResetStart sl s) :=
  ((((calm_forEach (β := Nat) (fun r s => (calm_endPartial sl r s).trans (calm_endBusy ..)) _ s).trans (calm_forEach (β := Nat) (fun _ _ => calm_txFlush ..) _ _)).trans
    (calm_forEach (β := Nat) (fun _ _ => calm_completeFetched ..) _ _)).trans
    (calm_forEach (β := Nat) (fun _ _ => calm_setRing ..) _ _)).trans ⟨rfl, rfl, rfl, id, id, id⟩

theorem calm_activate (c r b row : Nat) (s : State) : Calm s (activate c r b row s) :=
  (calm_advanceFree s).trans (calm_iff _ (fun s => (calm_emit _ s).trans (calm_count ..)) _)

theorem calm_copyRows (ch phys lo hi : Nat) (s : State) : Calm s (copyRows ch phys lo hi s) :=
  (calm_forEach (β := Nat) (fun _ _ => (calm_activate ..).trans (calm_activate ..)) _ s).trans (calm_count ..)

theorem calm_settleMig (ch : Nat) (s : State) : Calm s (settleMig ch s) :=
  calm_iff _ (fun s => (calm_copyRows ch _ _ _ s).trans (calm_setChannel ..)) s

theorem calm_refreshes (c r n : Nat) (s : State) : Calm s (refreshes c r n s) := calm_forEach (fun _ _ => calm_emit ..) _ s

theorem calm_payDebt (ch : Nat) (s : State) : Calm s (payDebt ch s) :=
  (calm_setChannel ..).trans (calm_forEach (β := Nat × Nat) (fun _ _ => calm_refreshes ..) _ _)

theorem calm_selfRefresh (l : List Nat) (s : State) :
    Calm s (forEach l (fun c s => setChannel c (fun x => { x with selfRefresh := true }) (payDebt c s)) s) :=
  calm_forEach (β := Nat) (fun c s => (calm_payDebt c s).trans (calm_setChannel ..)) l s

theorem calm_power (p : PwrState) (s : State) : Calm s { s with ps := p } := ⟨rfl, rfl, rfl, id, id, id⟩

theorem calm_dormantStep (s : State) : Calm s (dormantStep s) := by
  unfold dormantStep
  generalize List.range 64 = l
  refine calm_ite (fun _ => Calm.trans ?_ (calm_power _ _)) fun _ => Calm.rfl
  exact calm_selfRefresh l s

theorem calm_tileSelfRefresh (t : Nat) (s : State) : Calm s (tileSelfRefresh t s) :=
  (calm_forEach (β := Nat) (fun l s => ((calm_settleMig (t * 8 + l) s).trans (calm_payDebt ..)).trans (calm_setChannel ..)) _ s).trans
    (calm_dormantStep _)

theorem calm_wakePipe (g : Nat) (s : State) : Calm s (wakePipe g s) := ⟨rfl, rfl, rfl, id, id, id⟩

theorem calm_dropLanding (f : Frame → Bool) (s : State) : Calm s (dropLanding f s) := by
  refine calm_forEach (β := Frame) (fun x s => Calm.trans ?_ (calm_count ..)) _ s
  exact calm_ite (fun _ => calm_expressLost ..) fun _ => (calm_dropFrame ..).trans (calm_frameGone ..)

theorem calm_portSquelch (p : Nat) (s : State) : Calm s (portSquelch p s) :=
  ((((calm_iff _ (calm_count _ _ _) s).trans (calm_iff _ (calm_emit _) _)).trans
    (calm_forEach (β := Slot) (fun sl => calm_frameGone sl.fid) _ _)).trans (calm_endKeep ..)).trans (calm_setPort ..)

theorem calm_retireRank (c p : Nat) (s : State) : Calm s (retireRank c p s) :=
  (((calm_settleMig c s).trans (calm_setChannel ..)).trans (calm_updateLimit _)).trans (calm_dormantStep _)

theorem calm_countFlushed (t f l : Nat) (s : State) : Calm s (countFlushed t f l s) := by
  unfold countFlushed
  refine calm_ite (fun _ => Calm.rfl) fun _ => Calm.trans ?_ ((calm_count ..).trans (calm_count ..))
  exact ⟨rfl, rfl, rfl, id, id, id⟩

theorem calm_lostNotes (t : Nat) (s : State) : Calm s { s with
    fab := { s.fab with notices := s.fab.notices.filter (fun n => leafTile n.leaf ≠ t), asms := s.fab.asms.filter fun a => a.tile ≠ t },
    sch := { s.sch with leaves := tmap (fun l (x : Leaf) => if leafTile l = t then { x with depth := 0 } else x) s.sch.leaves } } :=
  ⟨rfl, rfl, rfl, id, id, id⟩

theorem calm_tileOut (t : Nat) (s : State) : Calm s (tileOut t s) := by
  unfold tileOut
  refine Calm.trans ?_ ((calm_tileSelfRefresh t _).trans (calm_updateLimit _))
  refine Calm.trans ?_ ((calm_requestFence ..).trans (calm_requestFence ..))
  refine Calm.trans ?_ ((calm_lostNotes t _).trans (calm_dropLanding _ _))
  refine Calm.trans ?_ (calm_forEach (β := Notice) (fun n => calm_frameGone n.fid) _ _)
  exact (calm_forEach (β := Nat) (fun p => calm_portSquelch p) _ s).trans (calm_forEach (β := Notice) (fun _ _ => calm_countFlushed ..) _ _)

theorem calm_fenceTile (t : Nat) (s : State) : Calm s (fenceTile t s) := by
  unfold fenceTile
  refine calm_ite (fun _ => Calm.trans ?_ (calm_enterSafe _)) fun _ => ?_
  all_goals exact (calm_setUnit ..).trans (calm_tileOut ..)

theorem calm_fenceUnit (u k : Nat) (s : State) : Calm s (fenceUnit u k s) := by
  unfold fenceUnit
  dsimp only
  split
  · exact calm_ite (fun _ => ((calm_setUnit ..).trans (calm_setPort ..)).trans (calm_portHoldDown ..)) fun _ => calm_setUnit ..
  · exact ((calm_setUnit ..).trans (calm_forEach (β := Nat) (fun p => calm_portHoldDown p true) _ _)).trans (calm_dropLanding ..)
  · exact (calm_setUnit ..).trans ⟨rfl, rfl, rfl, id, id, id⟩
  · exact (calm_setUnit ..).trans (calm_requestFence ..)
  · exact calm_ite (fun _ => calm_setUnit ..) fun _ => (calm_setUnit ..).trans (calm_retireRank ..)
  · exact calm_fenceTile ..
  · refine Calm.trans ?_ (calm_sliceResetStart ..)
    exact (calm_setUnit u _ s).trans ⟨rfl, rfl, rfl, id, id, id⟩
  · exact calm_setUnit ..
  · exact calm_fenceTile ..
  · exact Calm.rfl

/-! ## Resets and reports -/

theorem calm_measured (s t : State) : Calm t (measured s t) := (calm_rput ..).trans (calm_rput ..)

theorem reset_time_legal : State.reset.TimeLegal := by decide

theorem calm_ppsLow (s : State) : Calm s (ppsLow s) := by
  unfold ppsLow
  refine calm_iff _ (fun s => ?_) s
  exact ⟨rfl, rfl, rfl, id, id, id⟩

theorem calm_coldReset (s : State) : Calm s (coldReset s) := by
  refine (calm_ppsLow s).trans ?_
  unfold coldReset
  generalize ppsLow s = u
  refine Calm.trans ?_ (calm_rput ..)
  refine Calm.trans ?_ (calm_measured ..)
  refine Calm.trans ?_ (calm_freezeFifo _)
  exact ⟨rfl, rfl, rfl, fun _ => reset_time_legal, fun _ => Nat.zero_le 64, fun h => ⟨rfl, Tab_wf_filter _ h.2.1, rfl, rfl⟩⟩

theorem calm_endpointReset (s : State) : Calm s (endpointReset s) := by
  refine Calm.trans ?_ ((calm_rset ..).trans ((calm_rset ..).trans (calm_rset ..)))
  exact ⟨rfl, rfl, rfl, id, id, id⟩

theorem calm_payAll (l : List Nat) (s : State) : Calm s (forEach l payDebt s) := calm_forEach (fun c => calm_payDebt c) l s

theorem calm_warmReset (s : State) : Calm s (warmReset s) := by
  refine Calm.trans (calm_payAll (List.range 64) s) ?_
  unfold warmReset
  generalize forEach (List.range 64) payDebt s = u
  refine Calm.trans ?_ (calm_rput ..)
  refine Calm.trans ?_ ((calm_pset ..).trans (calm_endpointReset _))
  refine Calm.trans ?_ ((calm_freezeFifo _).trans ((calm_pset ..).trans ((calm_pset ..).trans (calm_rset ..))))
  refine ⟨rfl, rfl, rfl, id, fun h => ?_, fun h => ⟨Memory_wf_filter _ h.1, Tab_wf_filter _ h.2.1, rfl, rfl⟩⟩
  show (if _ then [] else _ : List FaultRec).length ≤ 64
  split
  · exact Nat.zero_le _
  · exact h

theorem calm_moduleReset (c : Bool) (s : State) : Calm s (moduleReset c s) := by
  unfold moduleReset
  exact calm_ite (fun _ => calm_coldReset s) fun _ => calm_warmReset s

theorem calm_arbitrateAs (m : Bool) (k : Nat) (c : Bool) (s : State) : Calm s (arbitrateAs m k c s) := by
  unfold arbitrateAs
  refine calm_ite (fun _ => Calm.trans ?_ (calm_freezeFifo _)) fun _ => ?_
  · exact ⟨rfl, rfl, rfl, id, id, id⟩
  exact calm_ite (fun _ => Calm.rfl) fun _ => calm_moduleReset ..

theorem calm_arbitrate (k : Nat) (c : Bool) (s : State) : Calm s (arbitrate k c s) := calm_arbitrateAs ..

theorem calm_requestAs (k : Nat) (m c : Bool) (s : State) : Calm s (requestAs k m c s) := (calm_pset ..).trans (calm_arbitrateAs ..)

theorem calm_requestReset (k : Nat) (c : Bool) (s : State) : Calm s (requestReset k c s) := calm_requestAs ..

theorem calm_collectorFault (code : Nat) (s : State) : Calm s (collectorFault code s) := by
  unfold collectorFault
  refine Calm.trans ?_ (calm_enterSafe _)
  exact (calm_pset .pltRstCause _ true s).trans ⟨rfl, rfl, rfl, id, id, id⟩

theorem calm_faultAction (u code : Nat) (s : State) : Calm s (faultAction u code s) := by
  unfold faultAction
  refine calm_ite (fun _ => ?_) fun _ => calm_ite (fun _ => calm_requestAs ..) fun _ => Calm.rfl
  refine calm_ite (fun _ => calm_ite (fun _ => Calm.rfl) fun _ => calm_fenceUnit ..) fun _ => calm_fenceUnit ..

theorem calm_takeFault (u code info addr : Nat) (s : State) : Calm s (takeFault u code info addr s) := by
  unfold takeFault
  refine calm_ite (fun _ => (calm_setUnit ..).trans (calm_iff _ (calm_fenceUnit u 0) _)) fun _ => ?_
  exact ((calm_appendRec ..).trans (calm_setUnit ..)).trans (calm_faultAction ..)

theorem calm_report (u code info addr : Nat) (s : State) : Calm s (report u code info addr s) := by
  unfold report
  refine calm_ite (fun _ => calm_collectorFault ..) fun _ => ?_
  refine calm_ite (fun _ => (calm_setUnit ..).trans (calm_countLost _)) fun _ => ?_
  exact calm_ite (fun _ => Calm.rfl) fun _ => calm_takeFault ..

theorem calm_resetDone (u k b : Nat) (s : State) : Calm s (resetDone u k b s) := calm_post ..

theorem calm_setAdj (p : Nat) (f : Adj → Adj) (s : State) : Calm s (setAdj p f s) := ⟨rfl, rfl, rfl, id, id, id⟩

theorem calm_adjTo (p k : Nat) (s : State) : Calm s (adjTo p k s) := by
  unfold adjTo
  exact calm_ite (fun _ => Calm.rfl) fun _ => ((calm_setAdj ..).trans (calm_post ..)).trans (calm_iff _ (calm_portGoDown p true) _)

theorem calm_sendMgmt (l : List Nat) (k : Nat) (b : List Byte) (s : State) : Calm s (sendMgmt l k b s) := by
  unfold sendMgmt
  exact calm_iff _ (fun s => calm_forEach (β := Nat) (fun _ _ => calm_emit ..) _ s) s

theorem calm_sendFail (but id : Nat) (s : State) : Calm s (sendFail but id s) :=
  calm_sendMgmt ..

theorem calm_setFail (p id : Nat) (s : State) : Calm s (setFail p id s) := by
  unfold setFail
  refine calm_ite (fun _ => Calm.rfl) fun _ => calm_ite (fun _ => (calm_rset ..).trans (calm_count ..)) fun _ => ?_
  exact (calm_pset ..).trans (calm_report ..)

theorem calm_localFail (p i : Nat) (s : State) : Calm s (localFail p i s) :=
  ((calm_setFail p i s).trans (calm_sendFail ..)).trans ⟨rfl, rfl, rfl, id, id, id⟩

theorem calm_adjLost (p : Nat) (s : State) : Calm s (adjLost p s) := by
  unfold adjLost
  exact calm_ite (fun _ => Calm.rfl) fun _ => (calm_adjTo ..).trans (calm_iff _ (calm_localFail p _) _)

theorem calm_portReset (p b : Nat) (s : State) : Calm s (portReset p b s) := by
  unfold portReset
  refine Calm.trans ?_ (calm_resetDone ..)
  refine Calm.trans ?_ (calm_setPort ..)
  exact (((calm_portHoldDown p true s).trans (calm_clearSas ..)).trans (calm_adjLost ..)).trans (calm_iff _ (calm_setUnit _ _) _)

theorem calm_engineReset (e b : Nat) (s : State) : Calm s (engineReset e b s) := (calm_resetEngine ..).trans (calm_resetDone ..)

end Sys2Proof.Machine
end

