-- ==== Sys2Proof/Tests/Slice0.lean ====
section
/-! SUPPORT. Tests: ill-formed commands are refused, the worked examples of the spec come out as it says, and for every statement
concrete states and operands meet the hypotheses of each of its clauses. -/
set_option Elab.async false

namespace Sys2Proof.Tests
open Sys2Proof Sys2Proof.Machine

/-! ### Well-formedness -/

/-- A well-formed command descriptor. -/
def okCmd : Cmd := { req := 16, ring := 0, desc := List.replicate 16 0 }

theorem test_wf_refuses_1 : ([
    .dramReady [64] [], .dramReady [] [(64, 0)], .dramReady [] [(0, 9)], .imageInTiles [(64, 0)], .imageInTiles [(0, 8)],
    .tilesReady [8], .islandReleaseTimeout 65536, .tileRejoinDone 8, .clockLoss 131, .pcsAlignmentHeld 528,
    .portDownDetect 528 false, .portHoldExpiry 528, .fecWindowEnd 528 0 0 0 0, .cagePoll 64 {},
    .cagePoll 0 { flags := List.replicate 33 0 }, .cageReadyTimeout 64, .i2cSdaStuck 8 false, .scheduleRealign 1537,
    .todRxByte (List.replicate 257 0), .frameArrival 0 528 { bytes := [] }, .expressArrival ⟨8, false⟩ 0,
    .expressArrival ⟨0, false⟩ 8, .cellArrival 8 0 false, .cellArrival 0 8 false, .spillWriteDone ⟨8, .clean⟩,
    .noticeReceive 8 0 false, .noticeReceive 0 8 false, .pullReceive 8 0 false, .pullReceive 0 8 false, .returnSend 8 0,
    .returnSend 0 8, .returnArrival 8 0 false, .returnArrival 0 8 false, .reseqTimeout 8 0 0 0 0, .reseqTimeout 0 8 0 0 0,
    .reseqTimeout 0 0 1048576 0 0, .reseqTimeout 0 0 0 65536 0, .reseqTimeout 0 0 0 0 8, .reassemblyComplete 8 0 0 0 0,
    .reassemblyComplete 0 8 0 0 0, .reassemblyComplete 0 0 1048576 0 0, .reassemblyComplete 0 0 0 65536 0,
    .reassemblyComplete 0 0 0 0 8, .frameTxStart 528, .frameTxEnd 528, .evictReqReceive 8 0 false, .evictReqReceive 0 8 false,
    .evictReceive 8 0 false, .evictReceive 0 8 false, .evictNackReceive 8 0 false, .evictNackReceive 0 8 false,
    .evictionFilterExpiry 8, .portIdleSend 8, .portIdleReceive 8 0 false, .portIdleReceive 0 8 false, .linkDeclaredFailed 8 0,
    .linkDeclaredFailed 0 8, .fenceReceive 8 0, .fenceReceive 0 8, .gateEntryChange 512] : List Instr).all (fun i => !i.wf) = true := by decide +kernel

theorem test_wf_refuses_2 : ([
    .gateSwitch 512, .streamGateEntryChange 1024, .streamGateSwitch 1024, .frerReset 65536, .depthSample 8,
    .raceWindowClose 8 0 0 0, .raceWindowClose 0 16 0 0, .raceWindowClose 0 0 16 0, .filterHoldExpiry 8 0 0 0,
    .filterHoldExpiry 0 16 0 0, .filterHoldExpiry 0 0 16 0, .tableWordRepaired 8 0 0, .junctionSample 8 [0, 0, 0, 0],
    .junctionSample 0 [], .throttleFall 8, .slabGroupAwake 8 0, .slabGroupAwake 0 4, .slabSelfTestEnd 8 [],
    .slabSelfTestEnd 0 [(8, 0)], .slabSelfTestEnd 0 [(0, 8)], .junctionThermTrip 8, .paceMonitorSample 8 [],
    .paceMonitorSample 0 [(11, 0)], .avsLoop 8, .paceLow 8 0, .paceLow 0 11, .paceMargin 8, .refreshDue 64 0 false, .refreshDue 0 9 false,
    .refreshDebtPayment 64, .dramReadDone 8 0 .clean, .dramReadDone 0 67108864 .clean, .retirementRecordWritten 64,
    .migrationLastRow ⟨64, []⟩, .remapCommit 64, .migrationAbandon 64, .helloTimer 528, .helloReceive 528 {},
    .holdTimeExpiry 528, .managementFrameReceive 528 {}, .repairStable 528, .faultReport 65536 0 0 0,
    .faultReport 0 65536 0 0, .engineFenceTimeout 16, .governorEvaluate (.pipe 64) 0, .governorEvaluate (.tile 8) 0,
    .governorWake (.pipe 64), .governorWake (.tile 8), .islandWakeDone (.pipe 64) [], .islandWakeDone (.tile 8) [],
    .islandWakeDone .module [64], .dumpPeriod 21, .engineSample 16 0, .timerExpiry 17 0, .timerExpiry 0 16,
    .ringDoorbell 17 0 0, .ringDoorbell 0 256 0, .ringDoorbell 0 0 67108864, .descriptorFetchDone 17 0 [] 0,
    .descriptorFetchDone 0 256 [] 0] : List Instr).all (fun i => !i.wf) = true := by decide +kernel

theorem test_wf_refuses_3 : ([
    .descriptorFetchDone 0 0 [[]] 0, .phaseRecheck 17 0 (List.replicate 16 0), .phaseRecheck 0 256 (List.replicate 16 0),
    .phaseRecheck 0 0 [], .ringEnable 17 0, .ringEnable 0 256, .ringDisable 17 0, .ringDisable 0 256, .msixHoldoffEnd 17 0,
    .msixHoldoffEnd 0 256, .hostReadTimeout 17 0 false, .hostReadTimeout 0 256 false, .packetTxTake { okCmd with req := 17 },
    .sliceResetDone 16, .urgentRequest 0, .urgentRequest 3, .secAlarm 4, .secCauseClear 16 0, .secCauseClear 0 16,
    .swResetTile 0 8, .swResetSlice 0 16, .swResetPort 0 528, .swResetEngine 0 16, .tcmBankSelWrite 8 0,
    .registerWrite { be := 16 }, .registerWrite { pasid := some 1048576 }, .registerWrite { bar := 0, off := 67108864 },
    .registerWrite { bar := 2, off := 33554432 }, .registerWrite { bar := 4, off := 65536 }, .registerWrite { bar := 1 },
    .tblSrch { okCmd with req := 17 }, .tblSrch { okCmd with ring := 256 }, .tblSrch { okCmd with desc := [] },
    .tblIns { okCmd with req := 17 }, .tblDel { okCmd with req := 17 }, .tblNext { okCmd with req := 17 },
    .tblFlushp { okCmd with req := 17 }, .tblAge { okCmd with req := 17 } [], .tblCkpt { okCmd with req := 17 },
    .lpmIns { okCmd with req := 17 }, .lpmDel { okCmd with req := 17 }, .lpmSrch { okCmd with req := 17 },
    .lpmLkup { okCmd with req := 17 }, .lpmNext { okCmd with req := 17 }, .tcmWr { okCmd with req := 17 },
    .tcmVal { okCmd with req := 17 }, .tcmAct { okCmd with req := 17 }, .tcmRd { okCmd with req := 17 },
    .tcmBase { okCmd with req := 17 }, .actNhWr { okCmd with req := 17 }, .actNhRd { okCmd with req := 17 },
    .actGrpSet { okCmd with req := 17 }, .actBkt { okCmd with req := 17 }, .actBktRd { okCmd with req := 17 },
    .actMemAdd { okCmd with req := 17 }, .actMemDel { okCmd with req := 17 }, .actMirSet { okCmd with req := 17 },
    .schNode { okCmd with req := 17 }, .schShape { okCmd with req := 17 }, .schLeaf { okCmd with req := 17 }] : List Instr).all (fun i => !i.wf) = true := by decide +kernel

theorem test_wf_refuses_4 : ([
    .schRd { okCmd with req := 17 }, .schFrer { okCmd with req := 17 }, .schFrerRd { okCmd with req := 17 },
    .polSet { okCmd with req := 17 }, .polRd { okCmd with req := 17 }, .gateWr { okCmd with req := 17 },
    .gateSgWr { okCmd with req := 17 }, .gateCommit { okCmd with req := 17 }, .gateSgCommit { okCmd with req := 17 },
    .gateRd { okCmd with req := 17 }, .calTimer { okCmd with req := 17 }, .calRd { okCmd with req := 17 },
    .cntFrz { okCmd with req := 17 }, .cntRd { okCmd with req := 17 }, .cntDump { okCmd with req := 17 },
    .cntPer { okCmd with req := 17 }, .memRd { okCmd with req := 17 }, .memWr { okCmd with req := 17 },
    .memAlloc { okCmd with req := 17 }, .memFree { okCmd with req := 17 }, .memMig { okCmd with req := 17 },
    .memMapClr { okCmd with req := 17 }, .memSaveRd { okCmd with req := 17 }, .portMode { okCmd with req := 17 },
    .portSaAdd { okCmd with req := 17 }, .portSaDel { okCmd with req := 17 }, .portSaTxAn { okCmd with req := 17 },
    .portCmisRd { okCmd with req := 17 } none, .portCmisWr { okCmd with req := 17 } false, .ringCrt { okCmd with req := 17 },
    .ringDst { okCmd with req := 17 }, .ringBind { okCmd with req := 17 }, .ringUnbind { okCmd with req := 17 },
    .slcRst { okCmd with req := 17 }, .slcInfo { okCmd with req := 17 }, .imgStage { okCmd with req := 17 } none,
    .imgCommit { okCmd with req := 17 } false, .imgCancel { okCmd with req := 17 }, .imgDiscard { okCmd with req := 17 },
    .imgInfo { okCmd with req := 17 }, .imgKey { okCmd with req := 17 } none, .secKeyLd { okCmd with req := 17 },
    .secKeyClr { okCmd with req := 17 }, .secCmac { okCmd with req := 17 }, .secCrypt { okCmd with req := 17 },
    .fabAdmit { okCmd with req := 17 }, .fabEvict { okCmd with req := 17 }, .fabRd { okCmd with req := 17 },
    .sysNop { okCmd with req := 17 }, .sysFence { okCmd with req := 17 }, .sysReset { okCmd with req := 17 },
    .sysOptWr { okCmd with req := 17 }, .sysOptWr { okCmd with cut := some 72 }, .sysOptRd { okCmd with req := 17 },
    .sysFwStage { okCmd with req := 17 } {} {}, .pcsAlignmentAcquired 528, .shaperLeavesRed 4 0, .shaperLeavesRed 0 0,
    .shaperLeavesRed 1 1048576, .gateLeadOpening 512 0] : List Instr).all (fun i => !i.wf) = true := by decide +kernel

theorem test_wf_refuses_5 : ([
    .gateLeadOpening 0 8, .mcLimiterRefill 8, .quietWindowStart 8, .unmappedRead { bar := 1 }, .bar4Write { bar := 1 }] : List Instr).all (fun i => !i.wf) = true := by decide +kernel

theorem test_wf_accepts_1 : ([
    .dramReady [] [], .imageInTiles [], .tilesReady [], .islandReleaseTimeout 0, .tileRejoinDone 0, .clockLoss 0,
    .pcsAlignmentHeld 0, .portDownDetect 0 false, .portHoldExpiry 0, .fecWindowEnd 0 0 0 0 0, .cagePoll 0 {},
    .cageReadyTimeout 0, .i2cSdaStuck 0 false, .scheduleRealign 0, .todRxByte [], .frameArrival 0 0 { bytes := [] },
    .expressArrival ⟨0, false⟩ 0, .cellArrival 0 0 false, .spillWriteDone ⟨0, .clean⟩, .noticeReceive 0 0 false,
    .pullReceive 0 0 false, .returnSend 0 0, .returnArrival 0 0 false, .reseqTimeout 0 0 0 0 0, .reassemblyComplete 0 0 0 0 0,
    .frameTxStart 0, .frameTxEnd 0, .evictReqReceive 0 0 false, .evictReceive 0 0 false, .evictNackReceive 0 0 false,
    .evictionFilterExpiry 0, .portIdleSend 0, .portIdleReceive 0 0 false, .linkDeclaredFailed 0 0, .fenceReceive 0 0,
    .gateEntryChange 0, .gateSwitch 0, .streamGateEntryChange 0, .streamGateSwitch 0, .frerReset 0, .depthSample 0,
    .raceWindowClose 0 0 0 0, .filterHoldExpiry 0 0 0 0, .tableWordRepaired 0 0 0, .junctionSample 0 [0, 0, 0, 0],
    .throttleFall 0, .slabGroupAwake 0 0, .slabSelfTestEnd 0 [], .junctionThermTrip 0, .paceMonitorSample 0 [], .avsLoop 0,
    .paceLow 0 0, .paceMargin 0, .refreshDue 0 0 false, .refreshDebtPayment 0, .dramReadDone 0 0 .clean, .retirementRecordWritten 0,
    .migrationLastRow ⟨0, []⟩, .remapCommit 0, .migrationAbandon 0] : List Instr).all (fun i => i.wf) = true := by decide +kernel

theorem test_wf_accepts_2 : ([
    .helloTimer 0, .helloReceive 0 {}, .holdTimeExpiry 0, .managementFrameReceive 0 {}, .repairStable 0, .faultReport 0 0 0 0,
    .engineFenceTimeout 0, .governorEvaluate .module 0, .governorWake .module, .islandWakeDone .module [], .dumpPeriod 0,
    .engineSample 0 0, .timerExpiry 0 0, .ringDoorbell 0 0 0, .descriptorFetchDone 0 0 [] 0,
    .phaseRecheck 0 0 (List.replicate 16 0), .ringEnable 0 0, .ringDisable 0 0, .msixHoldoffEnd 0 0,
    .hostReadTimeout 0 0 false, .packetTxTake okCmd, .sliceResetDone 0, .urgentRequest 1, .secAlarm 0, .secCauseClear 0 0,
    .swResetTile 0 0, .swResetSlice 0 0, .swResetPort 0 0, .swResetEngine 0 0, .tcmBankSelWrite 0 0, .registerWrite {},
    .tblSrch okCmd, .tblIns okCmd, .tblDel okCmd, .tblNext okCmd, .tblFlushp okCmd, .tblAge okCmd [],
    .tblCkpt okCmd, .lpmIns okCmd, .lpmDel okCmd, .lpmSrch okCmd, .lpmLkup okCmd, .lpmNext okCmd, .tcmWr okCmd,
    .tcmVal okCmd, .tcmAct okCmd, .tcmRd okCmd, .tcmBase okCmd, .actNhWr okCmd, .actNhRd okCmd, .actGrpSet okCmd,
    .actBkt okCmd, .actBktRd okCmd, .actMemAdd okCmd, .actMemDel okCmd, .actMirSet okCmd, .schNode okCmd, .schShape okCmd,
    .schLeaf okCmd, .schRd okCmd] : List Instr).all (fun i => i.wf) = true := by decide +kernel

theorem test_wf_accepts_3 : ([
    .schFrer okCmd, .schFrerRd okCmd, .polSet okCmd, .polRd okCmd, .gateWr okCmd, .gateSgWr okCmd, .gateCommit okCmd,
    .gateSgCommit okCmd, .gateRd okCmd, .calTimer okCmd, .calRd okCmd, .cntFrz okCmd, .cntRd okCmd, .cntDump okCmd,
    .cntPer okCmd, .memRd okCmd, .memWr okCmd, .memAlloc okCmd, .memFree okCmd, .memMig okCmd,
    .memMapClr okCmd, .memSaveRd okCmd, .portMode okCmd, .portSaAdd okCmd, .portSaDel okCmd, .portSaTxAn okCmd,
    .portCmisRd okCmd none, .portCmisWr okCmd false, .ringCrt okCmd, .ringDst okCmd, .ringBind okCmd, .ringUnbind okCmd,
    .slcRst okCmd, .slcInfo okCmd, .imgStage okCmd none, .imgCommit okCmd false, .imgCancel okCmd, .imgDiscard okCmd,
    .imgInfo okCmd, .imgKey okCmd none, .secKeyLd okCmd, .secKeyClr okCmd, .secCmac okCmd, .secCrypt okCmd, .fabAdmit okCmd,
    .fabEvict okCmd, .fabRd okCmd, .sysNop okCmd, .sysFence okCmd, .sysReset okCmd, .sysOptWr okCmd, .sysOptRd okCmd,
    .sysFwStage okCmd {} {}, .pcsAlignmentAcquired 0, .shaperLeavesRed 1 0, .gateLeadOpening 0 0, .mcLimiterRefill 0,
    .quietWindowStart 0, .unmappedRead {}, .bar4Write {}] : List Instr).all (fun i => i.wf) = true := by decide +kernel

/-! ### States and commands -/

/-- An image with a table, roots, a rule table, a QUEUES tree and a fabric port. -/
def testImage : Image := {
  parse := { graph := [(0, 0x200000001c0000000e01)], trans := [(0, 0x1000000000000000000)] }
  exm := { tables := [(0, { en := true, shared := true, keyBytes := 16, ageTick := 1, learn := true }), (1, { en := true, keyBytes := 16 })],
           roots := [(0, { en := true }), (1, { en := true, ip6 := true, shared := true })] }
  slabs := { tables := [(0, { en := true, slabs := [0] })] }
  queues := { ports := [0] }
  corridor := { adj := [(1, some { partnerId := 7, partnerSerial := 5, partnerPort := 1, role := 1, linkFailId := 3 })] }
  ports := { owner := [(0, 1)] } }

/-- A module that runs: every tile ready, link up, time valid, engines 0 and 1 up, ports 0 and 1 up, rings 0 of the manager and slice 0. -/
def live : State :=
  pset .hifStat 0 true <| rset .pltBootStat 0 0 23 16 255 <| setStage 9 <| rset .timStat 0 0 0 0 1 <| {
    img := { run := some testImage }
    groups := [(0, { mode := 3 })]
    ports := [(0, { up := true, signal := true, aligned := true }), (1, { up := true, signal := true, aligned := true })]
    engines := [(0, { running := true, inReset := false }), (1, { running := true, inReset := false })]
    hif := { rings := [(0, { ex := true, en := true }), (4096, { ex := true, en := true })] } }

/-- A command of the manager in ring 0, of an opcode, with words by number. -/
def cm (op : Nat) (ws : List (Nat × Nat)) : Cmd :=
  { req := 16, ring := 0, desc := withWords [word (op * 1048576)] (ws.map fun x => (x.1, word x.2)) }

/-- A command of slice 0 in its ring 0. -/
def cs (op : Nat) (ws : List (Nat × Nat)) : Cmd := { cm op ws with req := 0 }

/-- The next state of an outcome. -/
def nextOf : Res → State
  | .next t => t
  | _ => {}

/-! ### Worked examples of the spec, one step each -/

/-- Number formats (00_scope.md, worked example). -/
theorem test_number_examples : portTile 200 = 3 ∧ leafTile 0x61234 = 3 ∧ handleOf 2 3 0x10 = 0x98000010 := by decide

/-- The 7-tile pattern of source T3 without T5 (R215). -/
theorem test_pattern_without_t5 : patTiles 5 3 = [3, 4, 6, 7, 0, 1, 2] := by decide

/-- IPv4 root 5 after its three inserts (07_trie_slabs.md, worked example). -/
def trieExample : State :=
  let put (len nh : Nat) (addr : BitVec 128) := lpmPut { root := 5, len := len, addr := addr, nh := nh }
  put 32 300 0x0A42084D (put 21 200 0x0A420800 (put 10 100 0x0A400000 live))

/-- Its direct slots and nodes: the /10 in slots 0x0A40 to 0x0A7F, INT_BMP bit 31 and EXT_BMP bit 8, then INT_BMP bit 331. -/
theorem test_trie_words :
    ([0x0A3F, 0x0A40, 0x0A7F, 0x0A80].map fun i => slotRes (slotWord trieExample 5 i)) = [none, some (100, 10), some (100, 10), none] ∧
    (slotKid (slotWord trieExample 5 2626)).map (fun a => (intBmp (nodeWord trieExample 1 a), extBmp (nodeWord trieExample 1 a))) =
      some (2 ^ 31, 2 ^ 8) ∧
    ((slotKid (slotWord trieExample 5 2626)).bind fun a => nodeKid (nodeWord trieExample 1 a) 8).map
      (fun a => intBmp (nodeWord trieExample 2 a)) = some (2 ^ 331) := by decide +kernel

/-- Its lookups; a result word that cannot be corrected leaves the result of the stages before (R174). -/
theorem test_trie_example : (walkTrie trieExample (fun _ _ => false) 5 0x0A42084D).1 = some (300, 32) ∧
    (walkTrie trieExample (fun _ _ => false) 5 0x0A420905).1 = some (200, 21) ∧
    (walkTrie trieExample (fun m a => m = 15 && resultNh trieExample a = 300) 5 0x0A42084D).1 = some (200, 21) ∧
    lpmUse trieExample 0 = 3 := by decide +kernel

/-- A header and the control messages, with their fields at the places of R217 and R219: source 3, leaf 5, SSN 7, position 2,
pattern 8. -/
theorem test_link_bits :
    cellHead typReturn false { src := 3, leaf := 5, ssn := 7, pos := 2, last := true, cls := 4, enq := 9, data := List.replicate 256 0 } =
      0x947fd08001c000159 ∧
    msgBits (.notice { src := 3, leaf := 5, ssn := 7, pos := 2, cells := 6, pattern := 8, enq := 9 }) = 0x9819000380002b1 ∧
    msgBits (.pull 3 5 7 0 6 8) = 0x118000380002b2 ∧ msgBits (.evictReq 5 2) = 0x10000284 ∧ msgBits (.evictNack 5) = 0x285 ∧
    msgBits (.portIdle 0x55) = 0x556 := by decide +kernel

/-- TBL.FLUSHP's descriptor and its PARTIAL completion (15_commands.md, worked example). -/
theorem test_flush_words : opcodeOf [0x84540000] = 0x045 ∧ bit 0x84540000 18 = true ∧
    setFld (setBit 0x84540000 31 false) 15 8 stPARTIAL = 0x04540100 := by decide +kernel

/-- The command ring of 17_host.md's worked example: 64 entries, consumer index 0x1_0028, 38 and 39 done. -/
def ringExample : State := setRing 16 0 (fun g => { g with prod := 0x10028, cons := 0x10028 }) live

theorem test_ring_fills : let t := nextOf (exec (.ringDoorbell 16 0 0x00028) ringExample)
    (ringSt t 16 0).prod = 0x00028 ∧ (ringSt t 16 0).dbErr = false := by decide +kernel

theorem test_ring_overfill : let t := nextOf (exec (.ringDoorbell 16 0 0x00029) ringExample)
    (ringSt t 16 0).prod = 0x10028 ∧ (ringSt t 16 0).dbErr = true := by decide +kernel

/-- Offsets of 21_registers.md's worked example. -/
theorem test_offset_examples : decodeBar0 0x01310120 = some (.parPortProf, 3, 8) ∧ decodeBar0 0x01370220 = some (.bufPortHold, 3, 8) ∧
    decodeBar0 0x00070010 = some (.cfbStat, 0, 0) ∧ decodeBar0 0x015C0010 = some (.cfbStat, 0, 0) ∧ decodeBar0 0x015D0000 = none := by
  decide +kernel

theorem test_hold_write : rget (nextOf (exec (.registerWrite { off := 0x01370220, val := 0x14 }) live)) .bufPortHold 3 8 = 0x14 := by
  decide +kernel

theorem test_partial_write : let t := nextOf (exec (.registerWrite { off := 0x01370220, be := 3, val := 0x14 }) live)
    rget t .hifDecode 0 0 = 0x81370220 ∧ rget t .bufPortHold 3 8 = 0x32 ∧
    rget (nextOf (exec (.unmappedRead { off := 0x015D0000 }) t)) .hifDecode 0 0 = 0xC15D0000 := by decide +kernel

/-- Time 1,000 s and 200,000 ns, with TIM_SET_NS (04_ports_time.md, worked example). -/
def timeExample (w : Word) : State := rput .timSetNs 0 0 w { live with tim := { now := { sec := 1000, ns := 200000 } } }

theorem test_offset_steps : let t := nextOf (exec .timOffset (timeExample 3100000))
    t.tim.now = { sec := 1000, ns := 3300000 } ∧ pbit t .timStat 2 = true ∧ pbit t .timStat 4 = false := by decide +kernel

theorem test_offset_slews : let t := nextOf (exec .timOffset (timeExample 0xFFFFFDA8))
    t.tim.now = { sec := 1000, ns := 200000 } ∧ t.tim.slewLeft = -6000000 ∧ pbit t .timStat 4 = true ∧ pbit t .timStat 2 = false := by
  decide +kernel

/-- The plate at +58 °C after +66 °C: 56 lane groups may run (R42's example in 02_module_power.md). -/
theorem test_plate_example : (coolerBand { live with pwr := { appliedBand := plateBand 528 } } 464).map bandAllows = some 56 ∧
    bandAllows (plateBand 528) = 48 := by decide +kernel

/-- Channel 43 of 11_dram.md's worked example, its last row copied. -/
def remapExample : State :=
  { live with
    opt := { bytes := [1, 4, 0x14, 0, 0, 0, 255, 2, 0, 0] }
    dram := [(43, { migState := 1, migLrank := 6, draining := true, out := [6] })] }

theorem test_remap_example : (channel (nextOf (exec (.remapCommit 43) remapExample)) 43).remap = [0, 1, 2, 3, 4, 5, 8, 7] := by
  decide +kernel

theorem test_slice_limit_example :
    sliceLimit { remapExample with dram := [(43, { remap := [0, 1, 15, 3, 4, 5, 8, 7], out := [6, 2] })] } = 4128768 := by decide +kernel

/-- A CIR of 2,000 Mbit/s refills 250 B in 1 µs (12_scheduling.md, worked example). -/
theorem test_refill_example : refillBy 2000 1000 = 250 * 65536 := by decide

/-- The check values that CRC-32C and the FCS have for the digits 1 to 9 in their published definitions (log 10). -/
theorem test_crc_digits : crc32c [0x31, 0x32, 0x33, 0x34, 0x35, 0x36, 0x37, 0x38, 0x39] = 0xE3069283 ∧
    fcsOf [0x31, 0x32, 0x33, 0x34, 0x35, 0x36, 0x37, 0x38, 0x39] = [0x26, 0x39, 0xF4, 0xCB] := by decide +kernel

/-- An option copy with a sequence number, a SAG_THRESH and a CRC. -/
def optExample (seq sag : Byte) (crc : List Byte) : List Byte :=
  [1, 0, 0x14, 0, 0, 0, 255, sag, 0, 0] ++ List.replicate 54 0 ++ [seq, 0, 0, 0] ++ crc

def optA41 : List Byte := optExample 41 2 [0xCA, 0x7F, 0x29, 0x01]

def optB42 : List Byte := optExample 42 0 [0x9A, 0x14, 0x54, 0xF7]

/-- The loads of 03_startup.md's worked example: B written but for byte 0, then written whole; thresholds in units of 0.5 V. -/
theorem test_options_cut_off : let t := nextOf (exec .optionsCommitted { State.reset with nvm := { optA := optA41, optB := 0xFF :: optB42.drop 1 } })
    rget t .pltOptStat 0 0 = 4 ∧ rget t .pltOptSeq 0 0 = 41 ∧ sagThreshold t = 720 := by decide +kernel

theorem test_options_newer : let t := nextOf (exec .optionsCommitted { State.reset with nvm := { optA := optA41, optB := optB42 } })
    rget t .pltOptStat 0 0 = 0xE ∧ rget t .pltOptSeq 0 0 = 42 ∧ sagThreshold t = 680 ∧ returnThreshold t = 720 := by decide +kernel

/-- SYS.NOP completes in place with PHASE inverted and STATUS OK (R330, R331). -/
theorem test_nop_completes : let t := nextOf (exec (.sysNop { req := 16, ring := 0, desc := 0xC4100000 :: List.replicate 15 0 }) live)
    t.out = [.completion 16 0 0 (0x44100000 :: List.replicate 15 0)] ∧ (ringSt t 16 0).cons = 1 := by decide +kernel

/-- A slice's PORT.MODE completes NO_PERMISSION (R336, R347). -/
theorem test_slice_port_mode : (nextOf (exec (.portMode (cs 0x2C1 [])) live)).out =
    [.completion 0 0 0 (0x2C100700 :: List.replicate 15 0)] := by decide +kernel

/-- Reset leaves POR set, STAGE 0 and an empty queue (R66, R86). -/
theorem test_reset : rget State.reset .pltRstCause 0 0 = 1 ∧ stage State.reset = 0 ∧ State.reset.pending = [] := by decide +kernel

/-- The command at the front of the queue is taken first. -/
theorem test_queue_order : (nextOf (step ((live.push .oscWarm).push (.freqInOkChange true)))).pending = [.oscWarm] ∧
    pbit (nextOf (step (live.push (.freqInOkChange true)))) .timStat 5 = true := by decide +kernel

/-! ### Full stores -/

/-- The exact-match store with the slice's share in use. -/
def fullTable : State :=
  { live with exm := { entries := List.replicate 2097152 (0, { valid := true, key := 7 }) } }

/-- The state in which TBL.INS searches it. -/
def fullInsert : State := tblReads (cm 0x42 []) (noteCmd (cm 0x42 []) fullTable)

theorem fullTable_find : tblFind (cm 0x42 []) fullInsert = none := by
  refine List.find?_eq_none.mpr fun x hx => ?_
  obtain ⟨_, rfl⟩ := List.mem_replicate.mp (show x ∈ List.replicate 2097152 _ from hx)
  have h : exmMatches (exmProf fullInsert (tblN (cm 0x42 []))) (tblN (cm 0x42 [])) (tblSl (cm 0x42 [])) (opKey (cm 0x42 []) 8)
      { valid := true, key := 7 } = false := by decide +kernel
  simp only [h, Bool.and_false, Bool.false_eq_true, not_false_eq_true]

theorem fullTable_full (b : Nat) : exmPlace fullInsert b (tblSl (cm 0x42 [])) = none := by
  refine if_pos ?_
  show 2097152 / nSlices live ≤ ((List.replicate 2097152 ((0 : Nat), ({ valid := true, key := 7 } : ExmEntry))).filter
    fun x => x.2.slice = tblSl (cm 0x42 [])).length
  rw [List.filter_replicate, if_pos (by decide +kernel), List.length_replicate]
  decide +kernel

/-- A module that stores an entry under the key of a command. -/
def stored (c : Cmd) : State :=
  { live with exm := { entries := [(bucketOf (exmProf live (tblN c)) (tblSl c) (opKey c 8) * 4,
      { valid := true, key := opKey c 8, table := tblN c, slice := tblSl c })] } }

/-- The key and entry that a command finds there. -/
def storedAt (c : Cmd) : Nat := bucketOf (exmProf live (tblN c)) (tblSl c) (opKey c 8) * 4
def storedEntry (c : Cmd) : ExmEntry := { valid := true, key := opKey c 8, table := tblN c, slice := tblSl c }

theorem stored_found (c : Cmd) (u : State) (hu : u.exm.entries = [(storedAt c, storedEntry c)]) (hp : exmProf u (tblN c) = exmProf live (tblN c))
    (hb : u.tblBad = []) : tblFind c u = some (storedAt c, storedEntry c) := by
  unfold tblFind exmFind
  rw [hu, hp]
  refine List.find?_cons_of_pos ?_
  simp [inBucket, exmBad, hb, exmMatches, storedAt, storedEntry]

/-- The trie memories with the slice's share in use. -/
def fullTrie : State := { live with lpm := List.replicate 393216 { root := 1, len := 128 } }

/-- INSERT of a host route of root 1. -/
def trieInsert : Cmd := cm 0x81 [(4, 0x800001), (8, 1)]

theorem fullTrie_none : lpmExact (noteCmd trieInsert fullTrie) (lpmR trieInsert) (lpmLen trieInsert) (opKey trieInsert 8) = none := by
  refine List.find?_eq_none.mpr fun x hx => ?_
  obtain ⟨_, rfl⟩ := List.mem_replicate.mp (show x ∈ List.replicate 393216 _ from hx)
  decide +kernel

theorem foldl_cost (f : Pfx → Nat) (p : Pfx) : ∀ n a, (List.replicate n p).foldl (fun n p => n + f p) a = a + n * f p
  | 0, a => by simp
  | n + 1, a => by rw [List.replicate_succ, List.foldl_cons, foldl_cost f p n]; rw [Nat.succ_mul]; omega

theorem fullTrie_full : lpmShare (noteCmd trieInsert fullTrie) <
    lpmUse (noteCmd trieInsert fullTrie) (lpmCharge trieInsert (noteCmd trieInsert fullTrie)) +
      unitCost (noteCmd trieInsert fullTrie) (lpmR trieInsert) (lpmLen trieInsert) := by
  have h : lpmUse (noteCmd trieInsert fullTrie) (lpmCharge trieInsert (noteCmd trieInsert fullTrie)) = 0 + 393216 * 4 := by
    show ((List.replicate 393216 ({ root := 1, len := 128 } : Pfx)).filter fun p =>
      pfxSlice (noteCmd trieInsert fullTrie) p = lpmCharge trieInsert (noteCmd trieInsert fullTrie)).foldl
        (fun n p => n + unitCost (noteCmd trieInsert fullTrie) p.root p.len) 0 = _
    rw [List.filter_replicate, if_pos (by decide +kernel),
      foldl_cost (fun p => unitCost (noteCmd trieInsert fullTrie) p.root p.len)]
    have h4 : unitCost (noteCmd trieInsert fullTrie) 1 128 = 4 := by decide +kernel
    rw [h4]
  rw [h]
  decide +kernel

/-- A wire message arrives. -/
theorem received {src dst : Nat} {k : Msg → Bool} {w : Wire} {s : State}
    (h : (tileRunning s dst && (!isControl w.msg || ctlFree s src dst) && crcGood true w &&
      decide ((takeWire src dst k s).map (·.1) = some w)) = true) :
    Received src dst k w s (iff_ (isControl w.msg) (ctlTaken src dst) ((takeWire src dst k s).getD default).2) := by
  simp only [Bool.and_eq_true, Bool.or_eq_true, Bool.not_eq_true', decide_eq_true_eq, Option.map_eq_some_iff] at h
  obtain ⟨⟨⟨hr, hc⟩, hg⟩, x, hx, rfl⟩ := h
  exact ⟨hr, fun hk => hc.resolve_left (by simp [hk]), hg, x.2, hx, by rw [hx]; rfl⟩

/-- The module whose calendar gives a tile's slot 0 a kind on its link to a tile. -/
def linked (t kind : Nat) : State :=
  { live with img := { run := some { testImage with cal := { slots := [((t * 9 + 8) * 15625, word (kind * 0x1111111))] } } } }
/-! ### A valid image -/

/-- The calendar slots of the valid image, block by block of 15,625 slots: every pair of calendars moves 6,250 slots of kinds 1 and 2 and
3,125 of kind 3. -/
def goodSlots : Tab Word := (List.range 72).flatMap fun b =>
  List.replicate 6250 (b * 15625, 0x1111111#32) ++ (List.replicate 6250 (b * 15625, 0x2222222#32) ++ List.replicate 3125 (b * 15625, 0x3333333#32))

/-- A valid image but for its digest. -/
def plainImage : Image := {
  magic := 0x41565A44, version := 1, sections := (List.range 11).map fun k => { type := k + 1, scrcOk := true }
  crcOk := true, sigOk := true, shedOrder := List.range 64, cal := { slots := goodSlots } }

def goodImage : Image := { plainImage with bootDigest := Config.bootDigest (digestInput plainImage) }

/-- A module that waits for an image, with a valid one in slot A. -/
def goodSlot : State :=
  setStage 0x81 { live with
    nvm := { slotA := some goodImage, imgKey := some none }, opt := { bytes := [1, 0, 20, 1, 0, 0, 255, 2, 0, 0] } }

theorem filter_three {α : Type} (P : α → Bool) (n m k : Nat) (x y z : α) :
    ((List.replicate n x ++ (List.replicate m y ++ List.replicate k z)).filter P).length =
      (if P x then n else 0) + ((if P y then m else 0) + if P z then k else 0) := by
  simp only [List.filter_append, List.filter_replicate, List.length_append]
  congr 1
  · split <;> simp
  · congr 1 <;> split <;> simp

theorem filter_flat {β : Type} (P : β → Bool) (f : Nat → List β) : ∀ l : List Nat,
    ((l.flatMap f).filter P).length = (l.map fun b => ((f b).filter P).length).sum
  | [] => rfl
  | a :: l => by rw [List.flatMap_cons, List.filter_append, List.length_append, filter_flat P f l]; simp

theorem sum_at (k v : Nat) : ∀ n, ((List.range n).map fun b => if b = k then v else 0).sum = if k < n then v else 0
  | 0 => by simp
  | n + 1 => by
    rw [List.range_succ, List.map_append, List.sum_append, sum_at k v n]
    simp only [List.map_cons, List.map_nil, List.sum_cons, List.sum_nil]
    split <;> split <;> split <;> omega

/-- The slots of a kind for a partner in one calendar of the valid image. -/
def goodCount (j kind : Nat) : Nat :=
  (if fld 0x1111111#32 (4 * j - 3) (4 * j - 4) = kind then 6250 else 0) +
    ((if fld 0x2222222#32 (4 * j - 3) (4 * j - 4) = kind then 6250 else 0) +
      if fld 0x3333333#32 (4 * j - 3) (4 * j - 4) = kind then 3125 else 0)

theorem kindCount_good (t cal j kind : Nat) :
    kindCount goodImage t cal j kind = if t * 9 + cal < 72 then goodCount j kind else 0 := by
  show ((goodSlots.filter _)).length = _
  unfold goodSlots
  rw [filter_flat, ← sum_at]
  congr 1
  refine List.map_congr_left fun b _ => ?_
  rw [filter_three]
  by_cases h : b = t * 9 + cal
  · subst h
    simp [goodCount]
  · have h1 : ¬((t * 9 + cal) * 15625 ≤ b * 15625 ∧ b * 15625 < (t * 9 + cal) * 15625 + 15625) := by omega
    have h2 : (decide ((t * 9 + cal) * 15625 ≤ b * 15625) && decide (b * 15625 < (t * 9 + cal) * 15625 + 15625)) = false := by
      rw [← Bool.decide_and]; exact decide_eq_false h1
    simp only [h2, Bool.false_and, if_neg h, Bool.false_eq_true, if_false]

theorem calOk_good : ((List.range 8).all fun t => (List.range 9).all (calOk goodImage t)) = true := by
  unfold calOk
  simp only [kindCount_good]
  decide +kernel

theorem contentsOk_good : contentsOk goodImage = true := by
  have h : decide (Config.bootDigest (digestInput goodImage) = goodImage.bootDigest) = true := decide_eq_true rfl
  unfold contentsOk
  rw [h, calOk_good]
  decide +kernel

theorem slotReason_good (s : State) (hk : keyOk s = true) (ho : optByte s 1 = 0) : slotReason s (some goodImage) = 0 := by
  show (firstFail _).getD 0 = 0
  rw [contentsOk_good, hk, ho]
  rfl

theorem goodSlot_chosen : chosenSlot (examineSlots goodSlot) = some false := by
  have h : slotReason (checkKey goodSlot) (some goodImage) = 0 :=
    slotReason_good _ (by decide +kernel) (by decide +kernel)
  have hk : checkKey goodSlot = pset .pltImgStat 4 true goodSlot := rfl
  have he : examineSlots goodSlot = pset .pltImgStat 0 true (checkKey goodSlot) := by
    show foundSlot false (slotReason (checkKey goodSlot) (some goodImage)) (checkKey goodSlot) = _
    rw [h]
    rfl
  have hr : slotReason (pset .pltImgStat 0 true (checkKey goodSlot)) (some goodImage) = 0 :=
    slotReason_good _ (by decide +kernel) (by decide +kernel)
  rw [he]
  show (if decide (slotReason (pset .pltImgStat 0 true (checkKey goodSlot)) (some goodImage) = 0) then some false else none) = _
  rw [hr]
  rfl

/-! ### Witnesses: each statement's hypotheses, clause by clause

A statement's theorem lists, for each of its clauses that has hypotheses, a state and operands that meet them together. Variables
that no hypothesis restricts are left out. -/

theorem witness_PowerEventsComplete :
  (∃ (s : State), s.pwr.powered = true) ∧
  (∃ (s : State), s.pwr.powered = false) ∧
  (∃ (s : State), s.pwr.powered = true) ∧
  (∃ (s : State), s.pwr.powered = false) ∧
  (∃ (s : State), pbit s .pwrStat 1 = true ∧ s.pwr.convRunning = true ∧ s.pwr.powered = true) ∧
  (∃ (s : State), pbit s .pwrStat 1 = true ∧ s.pwr.convRunning = true ∧ s.pwr.powered = false) ∧
  (∃ (s : State), (pbit s .pwrStat 1 = false ∨ s.pwr.convRunning = false)) ∧
  (∃ (s : State), s.pwr.convRunning = false) ∧
  (∃ (s : State), s.pwr.convRunning = true) :=
  ⟨⟨live, by decide +kernel⟩,
   ⟨{ live with pwr := { powered := false } }, by decide +kernel⟩,
   ⟨live, by decide +kernel⟩,
   ⟨{ live with pwr := { powered := false } }, by decide +kernel⟩,
   ⟨pset .pwrStat 1 true live, by decide +kernel⟩,
   ⟨pset .pwrStat 1 true { live with pwr := { powered := false } }, by decide +kernel⟩,
   ⟨pset .pwrStat 1 false live, .inl (by decide +kernel)⟩,
   ⟨{ live with pwr := { convRunning := false } }, by decide +kernel⟩,
   ⟨live, by decide +kernel⟩⟩

theorem witness_SagSequenceCompletes :
  (∃ (s : State), s.pwr.powered = true ∧ s.pwr.sagStep = 0 ∧ stewardRuns s = true ∧ (stewardRuns (measureBus (fun v => v %
    sagThreshold s) (pset .pwrStat 0 false s)) = true)) ∧
  (∃ (s : State), s.pwr.powered = true ∧ s.pwr.sagStep = 0 ∧ stewardRuns s = false ∧ (stewardRuns (measureBus (fun v => v %
    sagThreshold s) (pset .pwrStat 0 false s)) = false)) ∧
  (∃ (s : State), (s.pwr.sagStep = 1 ∨ s.pwr.sagStep = 2)) ∧
  (∃ (s : State), s.pwr.powered = false) ∧
  (∃ (s : State), (s.pwr.sagStep = 1 ∨ s.pwr.sagStep = 2) ∧ sagLeft s = [] ∧ ((∀ x ∈ s.engines, x.2.cmd = none))) ∧
  (∃ (s : State), s.pwr.sagStep = 4) ∧
  (∃ (s : State), s.pwr.powered = true ∧ (s.pwr.earlyHold = true ∨ s.pwr.sagStep = 5)) ∧
  (∃ (s : State), s.pwr.powered = false ∧ s.pwr.earlyHold = true ∧ pbit s .pwrStat 1 = true ∧ s.pwr.convRunning = true) :=
  ⟨⟨live, by decide +kernel⟩,
   ⟨setStage 2 live, by decide +kernel⟩,
   ⟨{ live with pwr := { sagStep := 1 } }, by decide +kernel⟩,
   ⟨{ live with pwr := { powered := false } }, by decide +kernel⟩,
   ⟨{ live with pwr := { sagStep := 2, sagShed := [] } }, by decide +kernel⟩,
   ⟨{ live with pwr := { sagStep := 4 } }, by decide +kernel⟩,
   ⟨{ live with pwr := { sagStep := 5 } }, by decide +kernel⟩,
   ⟨pset .pwrStat 1 true { live with pwr := { powered := false, earlyHold := true } }, by decide +kernel⟩⟩

theorem witness_ResetSourcesComplete :
  (∃ (s : State), s.pwr.powered = true) ∧
  (∃ (s : State), s.pwr.powered = true ∧ optByte s 9 ≠ 1) ∧
  (∃ (s : State), s.pwr.powered = true ∧ optByte s 9 = 1 ∧ Tab.wf s.regs = true ∧ hifReleased s = true ∧ sagRunning s = false) ∧
  (∃ (s : State), hifUp s = true ∧ sagRunning s = false) ∧
  (∃ (s : State), stewardRuns s = true) ∧
  (∃ (s : State), hifUp s = true) ∧
  (∃ (s : State), hifUp s = true) ∧
  (∃ (t : Nat) (s : State), hifUp s = true ∧ t < 8 ∧ 7 ≤ stage s ∧ stage s ≤ 9) ∧
  (∃ (key : Nat), key ≠ 0xC1EA) ∧
  (∃ (i : Nat) (s : State), hifUp s = true ∧ i < 16 ∧ sliceOn s i = true) ∧
  (∃ (p : Nat) (s : State), hifUp s = true ∧ p < 512 ∧ portExists s p = true ∧ unitReleased s (p / 64) = true) ∧
  (∃ (e : Nat) (s : State), hifUp s = true ∧ e < 16 ∧ unitReleased s (e / 2) = true ∧ (engine s e).cmd = none) ∧
  (∃ (e : Nat) (s : State), hifUp s = true ∧ e < 16 ∧ unitReleased s (e / 2) = true ∧ (engine s e).cmd.isSome = true) :=
  ⟨⟨live, by decide +kernel⟩,
   ⟨live, by decide +kernel⟩,
   ⟨{ live with opt := { bytes := [1, 0, 20, 0, 0, 0, 255, 2, 0, 1] } }, by decide +kernel⟩,
   ⟨live, by decide +kernel⟩,
   ⟨live, by decide +kernel⟩,
   ⟨live, by decide +kernel⟩,
   ⟨live, by decide +kernel⟩,
   ⟨7, live, by decide +kernel⟩,
   ⟨0, by decide +kernel⟩,
   ⟨0, live, by decide +kernel⟩,
   ⟨0, live, by decide +kernel⟩,
   ⟨1, live, by decide +kernel⟩,
   ⟨0, setEngine 0 (fun g => { g with cmd := some (16, 0) }) live, by decide +kernel⟩⟩

theorem witness_EarlyStartUpCompletes :
  (∃ (s : State), stage s = 0 ∧ startHeld s = false) ∧
  (∃ (s : State), stage s = 2 ∧ fwPick s.nvm = none) ∧
  (∃ (b : Bool) (s : State), stage s = 2 ∧ fwPick s.nvm = some b ∧ critClockBad s = true) ∧
  (∃ (b : Bool) (s : State), stage s = 2 ∧ fwPick s.nvm = some b ∧ critClockBad s = false) ∧
  (∃ (b : Bool) (p : PatchBlock) (s : State), stage s = 3 ∧ patchPick (setStage 4 s) = some (b, p)) ∧
  (∃ (s : State), stage s = 3 ∧ patchPick (setStage 4 s) = none) ∧
  (∃ (s : State), stage s = 4 ∧ s.flt.clkBad = []) ∧
  (∃ (s : State), hifUp s = true ∧ stage s = 0x81) :=
  ⟨⟨State.reset, by decide +kernel⟩,
   ⟨setStage 2 live, by decide +kernel⟩,
   ⟨false, { setStage 2 live with nvm := { fwA := some { sigOk := true } }, flt := { clkBad := [0x82] } }, by decide +kernel⟩,
   ⟨true, { setStage 2 live with nvm := { fwB := some { sigOk := true } } }, by decide +kernel⟩,
   ⟨true, { authOk := true, level := 1 }, { setStage 3 live with nvm := { patB := some { authOk := true, level := 1 } } },
     by decide +kernel⟩,
   ⟨setStage 3 live, by decide +kernel⟩,
   ⟨setStage 4 live, by decide +kernel⟩,
   ⟨goodSlot, by decide +kernel⟩⟩

theorem witness_LateStartUpCompletes :
  (∃ (i : Image) (s : State), stage s = 5 ∧ imgIn s (imgSlot s) = some i) ∧
  (∃ (s : State), stage s = 6) ∧
  (∃ (s : State), hifUp s = true) ∧
  (∃ (s : State), stage s = 7 ∧ inSafe s = false) ∧
  (∃ (unit : Nat) (s : State), 6 ≤ stage s ∧ stage s ≤ 9 ∧ (unit / 4096 = 2 ∧ unit % 4096 < 64 ∨ unit / 4096 = 4 ∧ unit % 4096 <
    16 ∨ unit / 4096 = 6 ∧ unit % 4096 < 8)) ∧
  (∃ (t : Nat) (s : State), t < 8 ∧ 7 ≤ stage s ∧ stage s ≤ 9 ∧ tileReady s t = false ∧ tileFenced s t = false) :=
  ⟨⟨testImage, { setStage 5 live with nvm := { slotA := some testImage } }, by decide +kernel⟩,
   ⟨setStage 6 live, by decide +kernel⟩,
   ⟨live, by decide +kernel⟩,
   ⟨setStage 7 live, by decide +kernel⟩,
   ⟨2 * 4096 + 63, setStage 6 live, by decide +kernel⟩,
   ⟨7, rset .pltBootStat 0 0 23 16 127 live, by decide +kernel⟩⟩

theorem witness_ClockEventsComplete :
  (∃ (code : Nat) (s : State), s.pwr.powered = true ∧ domainUp s code = true ∧ code ∉ s.flt.clkBad ∧ code ≠ 0x81 ∧ code ≤ 0x82) ∧
  (∃ (code : Nat) (s : State), s.pwr.powered = true ∧ domainUp s code = false ∧ code ∉ s.flt.clkBad ∧ code ≤ 0x82) ∧
  (∃ (s : State), s.pwr.powered = true ∧ domainUp s 0x81 = true ∧ 0x81 ∉ s.flt.clkBad) ∧
  (∃ (s : State), 0x80 ∈ s.flt.clkBad) ∧
  (∃ (s : State), s.pwr.powered = true) ∧
  (∃ (s : State), s.pwr.powered = true) :=
  ⟨⟨0, live, by decide +kernel⟩,
   ⟨0x80, setStage 2 live, by decide +kernel⟩,
   ⟨live, by decide +kernel⟩,
   ⟨{ live with flt := { clkBad := [0x80] } }, by decide +kernel⟩,
   ⟨live, by decide +kernel⟩,
   ⟨live, by decide +kernel⟩⟩

theorem witness_ThermalEventsComplete :
  (∃ (s : State), plateT s < -320) ∧
  (∃ (plate : Int) (s : State), screened s = true ∧ calRuns s = true ∧ bandAllows (plateBand plate) < enabledCount s) ∧
  (∃ (plate : Int) (b : Nat) (s : State), screened s = true ∧ calRuns s = true ∧ s.pwr.thermShed ≠ [] ∧ coolerBand s plate = some
    b) ∧
  (∃ (t : Nat) (s : State), s.pwr.powered = true ∧ stage s ≠ 0 ∧ t < 8 ∧ tripPoint s ≤ (tget s.sens t).junction) ∧
  (∃ (s : State), s.pwr.powered = true ∧ stage s ≠ 0) ∧
  (∃ (s : State), s.pwr.thermHold = true) ∧
  (∃ (t : Nat) (x : Int) (temps : List Int) (s : State), s.pwr.powered = true ∧ t < 8 ∧ hottest temps = some x) ∧
  (∃ (t : Nat) (lvl : Nat) (s : State), t < 8 ∧ rfld s .tcmThrottle t 0 25 24 = lvl ∧ 0 < lvl ∧ (tget s.sens t).junction < (rfld s
    .tcmThrottle t 0 (lvl * 8 - 1) (lvl * 8 - 8) : Nat) * 8 - 32) :=
  ⟨⟨rset .pwrTherm 0 0 11 0 3000 live, by decide +kernel⟩,
   ⟨600, { live with ident := 1, groups := tgen 64 fun _ => { mode := 0 } }, by decide +kernel⟩,
   ⟨300, 0, { live with ident := 1, pwr := { appliedBand := 1, thermShed := [5] } }, by decide +kernel⟩,
   ⟨7, { live with sens := [(7, { junction := 1000 })] }, by decide +kernel⟩,
   ⟨live, by decide +kernel⟩,
   ⟨{ live with pwr := { thermHold := true } }, by decide +kernel⟩,
   ⟨7, 250, [200, 250, 100], live, by decide +kernel⟩,
   ⟨7, 3, rset .tcmThrottle 7 0 25 24 3 live, by decide +kernel⟩⟩

theorem witness_FaultRowsComplete :
  (∃ (u : Nat) (code : Nat) (s : State), s.pwr.powered = true ∧ faultOk u code = true ∧ code ≠ 0x0304) ∧
  (∃ (u : Nat) (s : State), s.pwr.powered = true ∧ faultOk u 0x0304 = true) ∧
  (∃ (s : State), inSafe s = true ∧ optByte s 5 = 1) ∧
  (∃ (s : State), s.flt.collectorReset = true ∧ sagRunning s = false) ∧
  (∃ (s : State), s.flt.collectorReset = true ∧ sagRunning s = true) ∧
  (∃ (s : State), hifUp s = true) ∧
  (∃ (s : State), hifUp s = true) ∧
  (∃ (s : State), hifUp s = true ∧ causeActive s (rfld s .fltUnitSel 0 0 15 0) = false) ∧
  (∃ (e : Nat) (s : State), (engine s e).fenceReq = true) ∧
  (∃ (e : Nat) (s : State), (engine s e).fenceReq = false ∧ (engine s e).resetReq = true) :=
  ⟨⟨1023 + 4096, 0x0106, live, by decide +kernel⟩,
   ⟨6 * 4096 + 7, live, by decide +kernel⟩,
   ⟨{ pset .fltStat 31 true live with opt := { bytes := [1, 0, 20, 0, 0, 1, 255, 2, 0, 0] } }, by decide +kernel⟩,
   ⟨{ live with flt := { collectorReset := true } }, by decide +kernel⟩,
   ⟨{ live with flt := { collectorReset := true }, pwr := { sagStep := 1 } }, by decide +kernel⟩,
   ⟨live, by decide +kernel⟩,
   ⟨live, by decide +kernel⟩,
   ⟨live, by decide +kernel⟩,
   ⟨0, setEngine 0 (fun g => { g with fenceReq := true }) live, by decide +kernel⟩,
   ⟨0, setEngine 0 (fun g => { g with resetReq := true }) live, by decide +kernel⟩⟩

theorem witness_PaceAndGovernorRowsComplete :
  (∃ (t : Nat) (s : State), tileRunning s t = true) ∧
  (∃ (t : Nat) (i : Nat) (m : Int) (s : State), tileRunning s t = true ∧ worstOf (tget s.sens t) = some (i, m)) ∧
  (∃ (t : Nat) (i : Nat) (s : State), tileRunning s t = true ∧ i ≤ 10 ∧ paceIsLow s t i = true) ∧
  (∃ (t : Nat) (i : Nat) (m : Int) (s : State), tileRunning s t = true ∧ belowTarget s t = true ∧ worstOf (tget s.sens t) = some
    (i, m) ∧ 0 ≤ m) ∧
  (∃ (g : Nat) (next : Nat) (s : State), govOn s = true ∧ calRuns s = true ∧ s.ps.module = 0 ∧ g < 64 ∧ tileRunning s (g / 8) =
    true ∧ pipeIdle s g = true ∧ g ∉ s.ps.proof ∧ 1900 + guardNs s ≤ (knownEvents s (.pipe g)).foldl min next) ∧
  (∃ (t : Nat) (next : Nat) (s : State), govOn s = true ∧ calRuns s = true ∧ s.ps.module = 0 ∧ tileRunning s t = true ∧
    chillAllowed s t = true ∧ t ∉ s.ps.chill ∧ 70000 + guardNs s ≤ (knownEvents s (.tile t)).foldl min next) ∧
  (∃ (g : Nat) (s : State), govOn s = true ∧ g ∈ s.ps.proof ∧ g ∉ s.ps.waking) ∧
  (∃ (g : Nat) (s : State), g ∈ s.ps.waking) ∧
  (∃ (val : Word) (s : State), hifUp s = true ∧ fld val 31 16 = 0xD0A5 ∧ bit val 0 = true ∧ bit val 1 = false ∧ s.ps.module = 0 ∧
    calRuns s = true ∧ s.pwr.lead = none ∧ s.pwr.sagStep = 0) ∧
  (∃ (val : Word) (s : State), hifUp s = true ∧ fld val 31 16 = 0xD0A5 ∧ bit val 0 = false ∧ bit val 1 = true ∧ s.ps.module = 2) ∧
  (∃ (w : Time80 × Time80) (s : State), govOn s = true ∧ s.pwr.powered = true ∧ s.ps.module = 0 ∧ calRuns s = true ∧ s.pwr.lead =
    none ∧ s.pwr.sagStep = 0 ∧ w ∈ (img s).cal.dormant ∧ w.1.toNs ≤ nowNs s ∧ nowNs s < w.2.toNs) ∧
  (∃ (s : State), s.ps.dormantWin = true ∧ s.ps.module = 2) ∧
  (∃ (s : State), hifUp s = true) ∧
  (∃ (t : Nat) (w : Time80 × Time80) (s : State), tileRunning s t = true ∧ t ∉ s.ps.quiet ∧ (t, w) ∈ (img s).cal.quiet ∧ w.1.toNs
    ≤ nowNs s ∧ nowNs s < w.2.toNs) ∧
  (∃ (cold : Bool) (s : State), s.pwr.lead = some (.reset cold)) ∧
  (∃ (s : State), s.pwr.lead = some .dormant) :=
  ⟨⟨0, live, by decide +kernel⟩,
   ⟨0, 10, 40, { live with sens := [(0, { margins := [(10, some (40))] })] }, by decide +kernel⟩,
   ⟨0, 10, { live with sens := [(0, { margins := [(10, some (-1))] })] }, by decide +kernel⟩,
   ⟨0, 10, 0, { live with sens := [(0, { margins := [(10, some (0))] })] }, by decide +kernel⟩,
   ⟨63, 2400, live, by decide +kernel⟩,
   ⟨0, 70500, { live with ports := [], groups := [] }, by decide +kernel⟩,
   ⟨63, { live with ps := { proof := [63] } }, by decide +kernel⟩,
   ⟨71, { live with ps := { waking := [71] } }, by decide +kernel⟩,
   ⟨0xD0A50001, live, by decide +kernel⟩,
   ⟨0xD0A50002, { live with ps := { module := 2 } }, by decide +kernel⟩,
   ⟨({}, { sec := 1 }), { live with img := { run := some { testImage with cal := { dormant := [({}, { sec := 1 })] } } } },
     by decide +kernel⟩,
   ⟨{ live with ps := { dormantWin := true, module := 2 } }, by decide +kernel⟩,
   ⟨live, by decide +kernel⟩,
   ⟨0, ({}, { sec := 1 }), { live with img := { run := some { testImage with cal := { quiet := [(0, {}, { sec := 1 })] } } } },
     by decide +kernel⟩,
   ⟨true, { live with pwr := { lead := some (.reset true) } }, by decide +kernel⟩,
   ⟨{ live with pwr := { lead := some .dormant } }, by decide +kernel⟩⟩

theorem witness_PortEventsComplete :
  (∃ (p : Nat) (s : State), portAllowed s p = true ∧ (port s p).aligned = true) ∧
  (∃ (p : Nat) (s : State), p < 512 ∧ portExists s p = true ∧ tileRunning s (p / 64) = true) ∧
  (∃ (p : Nat) (s : State), p < 512 ∧ (port s p).up = true) ∧
  (∃ (p : Nat) (s : State), p < 512 ∧ (port s p).up = false ∧ (port s p).aligned = true) ∧
  (∃ (p : Nat) (s : State), (port s p).hold = true ∧ (port s p).up = false) ∧
  (∃ (p : Nat) (s : State), p < 512 ∧ portExists s p = true ∧ (port s p).aligned = true) :=
  ⟨⟨0, pset .pltBootCtl 0 true { live with cages := [(0, { state := 2 })], ports := [(0, { aligned := true })] },
     by decide +kernel⟩,
   ⟨7, live, by decide +kernel⟩,
   ⟨0, live, by decide +kernel⟩,
   ⟨0, setPort 0 (fun q => { q with up := false }) live, by decide +kernel⟩,
   ⟨0, setPort 0 (fun q => { q with up := false, hold := true }) live, by decide +kernel⟩,
   ⟨0, live, by decide +kernel⟩⟩

theorem witness_CageEventsComplete :
  (∃ (c : Nat) (x : CageSample) (s : State), cagePolled s c = true ∧ x.present ≠ (cage s c).present ∧ (cage s c).lastSample =
    x.present) ∧
  (∃ (c : Nat) (x : CageSample) (s : State), cagePolled s c = true ∧ x.present = (cage s c).present) ∧
  (∃ (c : Nat) (s : State), (cage s c).state = 1) ∧
  (∃ (b : Nat) (s : State), b < 8 ∧ calRuns s = true ∧ (tget s.i2c b).stopped = false) ∧
  (∃ (b : Nat) (s : State), b < 8 ∧ calRuns s = true ∧ (tget s.i2c b).stopped = false) :=
  ⟨⟨63, { present := true },
     { live with opt := { bytes := [1, 0, 20, 0, 0, 0, 255, 2, 64, 0] }, cages := [(63, { lastSample := true })] },
     by decide +kernel⟩,
   ⟨63, {}, { live with opt := { bytes := [1, 0, 20, 0, 0, 0, 255, 2, 64, 0] } }, by decide +kernel⟩,
   ⟨0, { live with cages := [(0, { state := 1 })] }, by decide +kernel⟩,
   ⟨7, live, by decide +kernel⟩,
   ⟨7, live, by decide +kernel⟩⟩

theorem witness_SlabEventsComplete :
  (∃ (t : Nat) (s : State), hifUp s = true ∧ tileRunning s t = true ∧ tileGoBit s t = true) ∧
  (∃ (t : Nat) (v : Word) (s : State), hifUp s = true ∧ tileRunning s t = true ∧ tileGoBit s t = false ∧ fld v 1 0 ≠ 2) ∧
  (∃ (t : Nat) (v : Word) (s : State), hifUp s = true ∧ tileRunning s t = true ∧ tileGoBit s t = false ∧ fld v 1 0 = 2 ∧ rfld s
    .tcmStat t 0 30 30 = 0) ∧
  (∃ (t : Nat) (w : Word) (s : State), t < 8 ∧ rfld s .tcmStat t 0 30 30 = 1 ∧ fld (rget s .tcmBankSel t 0) 1 0 = 2 ∧ tget
    s.tcm.saved t = some w) :=
  ⟨⟨7, pset .pltBootCtl 7 true live, by decide +kernel⟩,
   ⟨0, 1, live, by decide +kernel⟩,
   ⟨0, 2, live, by decide +kernel⟩,
   ⟨7, 0x11, rset .tcmBankSel 7 0 1 0 2 (rset .tcmStat 7 0 30 30 1 { live with tcm := { saved := [(7, some 0x11)] } }),
     by decide +kernel⟩⟩

theorem witness_IngressFramesComplete :
  (∃ (p : Nat) (f : RxFrame) (s : State), p < 512 ∧ cfbTakes s p f.bytes = false ∧ quarantined s p = true ∧ (port s p).aligned =
    true) ∧
  (∃ (fid : Nat) (p : Nat) (f : RxFrame) (s : State), p < 512 ∧ cfbTakes s p f.bytes = false ∧ quarantined s p = false ∧ portUp s
    p = true ∧ frame? s fid = none ∧ fid < 4294967296 ∧ macsecMode (wakePipe (p / 8) s) p = 0 ∧ beAt f.bytes 12 2 ≠ 0x8808 ∧
    landingUsed (wakePipe (p / 8) s) (p / 8) < 2048) ∧
  (∃ (fid : Nat) (p : Nat) (f : RxFrame) (s : State), p < 512 ∧ cfbTakes s p f.bytes = false ∧ quarantined s p = false ∧ portUp s
    p = true ∧ frame? s fid = none ∧ fid < 4294967296 ∧ f.secTag = none ∧ beAt f.bytes 12 2 = 0x8808) ∧
  (∃ (fid : Nat) (present : Nat) (n : Nat) (x : Findings) (f : Frame) (s : State), frame? s fid = some f ∧ n = (if f.tailSeen then
    f.bytes.length else present) ∧ canParse s f n = true ∧ overflows s f (cellsOf n) = false ∧ x.graphErr = true) ∧
  (∃ (fid : Nat) (present : Nat) (n : Nat) (x : Findings) (f : Frame) (s : State), frame? s fid = some f ∧ n = (if f.tailSeen then
    f.bytes.length else present) ∧ canParse s f n = true ∧ overflows s f (cellsOf n) = false ∧ x.graphErr = false ∧ (parseFrame s
    f.tile (profileOf s f.port) n f.bytes).exc = 0) ∧
  (∃ (fid : Nat) (i : Nat) (f : Frame) (s : State), frame? s fid = some f ∧ f.fid = fid ∧ f.tailSeen = false ∧ shortTail f = false
    ∧ tailFault f = some i) ∧
  (∃ (fid : Nat) (f : Frame) (s : State), frame? s fid = some f ∧ f.fid = fid ∧ f.tailSeen = false ∧ tailFault f = none ∧
    shortTail f = false ∧ f.secured = false ∧ overflows (rxCount f s) f (landingNeed f) = false) :=
  ⟨⟨1, { bytes := [] }, { live with cfb := { adj := [(1, { state := 4 })] } }, by decide +kernel⟩,
   ⟨4294967295, 1, { bytes := List.replicate 18 0 }, live, by decide +kernel⟩,
   ⟨0, 0, { bytes := List.replicate 12 0 ++ [0x88, 0x08] ++ List.replicate 50 0 }, live, by decide +kernel⟩,
   ⟨0, 64, (if ((frame? ({ live with frames := [{ fid := 0, bytes := List.replicate 64 0 }] }) (0)).getD default).tailSeen then
     ((frame? ({ live with frames := [{ fid := 0, bytes := List.replicate 64 0 }] }) (0)).getD default).bytes.length else (64)),
     { graphErr := true }, (frame? ({ live with frames := [{ fid := 0, bytes := List.replicate 64 0 }] }) (0)).getD default,
     { live with frames := [{ fid := 0, bytes := List.replicate 64 0 }] }, by decide +kernel, rfl, by decide +kernel⟩,
   ⟨0, 64, (if ((frame? (rset .parProf 0 0 18 8 1552 ({ live with frames := [{ fid := 0, bytes := List.replicate 64 0 }] }))
     (0)).getD default).tailSeen then ((frame? (rset .parProf 0 0 18 8 1552
     ({ live with frames := [{ fid := 0, bytes := List.replicate 64 0 }] })) (0)).getD default).bytes.length else (64)), {}, (frame?
     (rset .parProf 0 0 18 8 1552 ({ live with frames := [{ fid := 0, bytes := List.replicate 64 0 }] })) (0)).getD default, rset
     .parProf 0 0 18 8 1552 ({ live with frames := [{ fid := 0, bytes := List.replicate 64 0 }] }), by decide +kernel, rfl,
     by decide +kernel⟩,
   ⟨0, 6, (frame? ({ live with frames := [{ fid := 0, bytes := List.replicate 63 0 }] }) (0)).getD default,
     { live with frames := [{ fid := 0, bytes := List.replicate 63 0 }] }, by decide +kernel⟩,
   ⟨0, (frame? ({ live with frames := [{ fid := 0, bytes := List.replicate 64 0 }] }) (0)).getD default,
     { live with frames := [{ fid := 0, bytes := List.replicate 64 0 }] }, by decide +kernel⟩⟩

theorem witness_ExpressFramesComplete :
  (∃ (fid : Nat) (f : Frame) (s : State), frame? s fid = some f ∧ s.pwr.sagStep = 0 ∧ f.phase = .express ∧ tileRunning s f.tile =
    true ∧ tileRunning s f.dst = true ∧ 2048 ≤ (s.tim.frc - f.carry.frcEnq) * 1000 ∧ canSend s f.tile f.dst kindExpress (min 16
    (expWords f)) = true) ∧
  (∃ (src : Nat) (dst : Nat) (p : Nat) (n : Nat) (sl : Slot) (w : Wire) (s : State) (u : State), Received src dst isExpress w s u
    ∧ w.msg = .express sl p n ∧ noticeComes s dst sl = false ∧ (portUp (setPort p (fun q => { q with reserved := false })
    (endLaunched sl.fid u)) p = true) ∧ ((port (setPort p (fun q => { q with reserved := false }) (endLaunched sl.fid u)) p).tx =
    none) ∧ (leafEarlier (setPort p (fun q => { q with reserved := false }) (endLaunched sl.fid u)) sl p = false)) :=
  ⟨⟨0, (frame?
     ({ linked 0 3 with frames := [{ fid := 0, phase := .express, dst := 1, edited := List.replicate 60 0 }], tim := { live.tim with frc := 10 } })
     (0)).getD default,
     { linked 0 3 with frames := [{ fid := 0, phase := .express, dst := 1, edited := List.replicate 60 0 }], tim := { live.tim with frc := 10 } },
     by decide +kernel⟩,
   ⟨0, 0, 0, 1, {}, wireOf 0 0 (.express {} 0 1), { live with fab := { wires := [wireOf 0 0 (.express {} 0 1)] } }, iff_
     (isControl (wireOf 0 0 (.express {} 0 1)).msg) (ctlTaken 0 0) ((takeWire 0 0 isExpress
     ({ live with fab := { wires := [wireOf 0 0 (.express {} 0 1)] } })).getD default).2, received (by decide +kernel),
     by decide +kernel⟩⟩

theorem witness_StoreCellsComplete :
  (∃ (fid : Nat) (f : Frame) (d : Deal) (c : Cell) (r : List Cell) (s : State), frame? s fid = some f ∧ f.phase = .stored ∧
    tileRunning s f.tile = true ∧ (f.deals.find? (fun d => cellReady f d && linkTakes s f d) = some d) ∧ d.cells = c :: r) ∧
  (∃ (src : Nat) (dst : Nat) (c : Cell) (w : Wire) (s : State) (u : State), Received src dst isSpread w s u ∧ w.msg = .spread c ∧
    knowsFenced u dst (leafTile c.leaf) = false ∧ u.fab.filters = []) ∧
  (∃ (src : Nat) (dst : Nat) (c : Cell) (w : Wire) (s : State) (u : State), takeWire src dst isSpread s = some (w, u) ∧ w.msg =
    .spread c ∧ tileRunning s dst = true) ∧
  (∃ (t : Nat) (i : Nat) (h : Held) (s : State), oldestSpill s t = some (h, i)) ∧
  (∃ (src : Nat) (dst : Nat) (p : Nat) (n : Notice) (w : Wire) (s : State) (u : State), (Received src dst isNotice w s u) ∧ (w.msg
    = .notice n) ∧
    (let v := setLeaf n.leaf (fun l => { l with depth := min 134217727 (l.depth + n.cells) }) { u with fab := { u.fab with notices := u.fab.notices ++ [n] } };
    isReplLeaf v n.leaf = false ∧ leafPort v n.leaf = some p ∧ portUp v p = true)) ∧
  (∃ (src : Nat) (dst : Nat) (w : Wire) (s : State) (u : State), Received src dst isPull w s u) ∧
  (∃ (t : Nat) (d : Nat) (h : Held) (s : State), tileRunning s t = true ∧ tileRunning s d = true ∧ dueCell s t d = some h ∧
    h.cell.holder = false ∧ h.poison = false ∧ t ≠ d ∧ canSend s t d kindReturn (cellWords h.cell) = true ∧ 0 < cellWords h.cell) ∧
  (∃ (src : Nat) (dst : Nat) (w : Wire) (s : State) (u : State), Received src dst isReturn w s u) ∧
  (∃ (t : Nat) (src : Nat) (leaf : Nat) (ssn : Nat) (pos : Nat) (s : State), s.fab.asms.any (asmOwed t src leaf ssn pos) = true) :=
  ⟨⟨0, (frame? ({ live with frames := [{ fid := 0, phase := .stored, tailSeen := true, deals := [{ cells := [{}] }] }] })
     (0)).getD default, { cells := [{}] }, {}, [],
     { live with frames := [{ fid := 0, phase := .stored, tailSeen := true, deals := [{ cells := [{}] }] }] }, by decide +kernel⟩,
   ⟨0, 0, sealed {}, wireOf 0 0 (.spread (sealed {})), { live with fab := { wires := [wireOf 0 0 (.spread (sealed {}))] } }, iff_
     (isControl (wireOf 0 0 (.spread (sealed {}))).msg) (ctlTaken 0 0) ((takeWire 0 0 isSpread
     ({ live with fab := { wires := [wireOf 0 0 (.spread (sealed {}))] } })).getD default).2, received (by decide +kernel),
     by decide +kernel⟩,
   ⟨0, 0, {}, { msg := .spread {} }, { live with fab := { wires := [{ msg := .spread {} }] } }, ((takeWire 0 0 isSpread
     ({ live with fab := { wires := [{ msg := .spread {} }] } })).getD default).2, by decide +kernel⟩,
   ⟨0, 9, { place := .spilling 9 }, { live with fab := { held := [{ place := .spilling 9 }] } }, by decide +kernel⟩,
   ⟨0, 0, 0, {}, wireOf 0 0 (.notice {}),
     { live with fab := { wires := [wireOf 0 0 (.notice {})] }, sch := { nodes := [(1048576, { cfg := { parent := 1 } }), (2097152, { cfg := { parent := 1 } }), (3145728, { cfg := { parent := 1 } })] } },
     iff_ (isControl (wireOf 0 0 (.notice {})).msg) (ctlTaken 0 0) ((takeWire 0 0 isNotice
     ({ live with fab := { wires := [wireOf 0 0 (.notice {})] }, sch := { nodes := [(1048576, { cfg := { parent := 1 } }), (2097152, { cfg := { parent := 1 } }), (3145728, { cfg := { parent := 1 } })] } })).getD
     default).2, received (by decide +kernel), by decide +kernel, by decide +kernel⟩,
   ⟨0, 0, wireOf 0 0 (.pull 0 0 0 0 0 8), { live with fab := { wires := [wireOf 0 0 (.pull 0 0 0 0 0 8)] } }, iff_ (isControl
     (wireOf 0 0 (.pull 0 0 0 0 0 8)).msg) (ctlTaken 0 0) ((takeWire 0 0 isPull
     ({ live with fab := { wires := [wireOf 0 0 (.pull 0 0 0 0 0 8)] } })).getD default).2, received (by decide +kernel)⟩,
   ⟨1, 0, { tile := 1, pulled := true, cell := { data := [0] } },
     { linked 1 2 with fab := { held := [{ tile := 1, pulled := true, cell := { data := [0] } }] } }, by decide +kernel⟩,
   ⟨0, 0, wireOf 0 0 (.ret (sealed {})), { live with fab := { wires := [wireOf 0 0 (.ret (sealed {}))] } }, iff_ (isControl
     (wireOf 0 0 (.ret (sealed {}))).msg) (ctlTaken 0 0) ((takeWire 0 0 isReturn
     ({ live with fab := { wires := [wireOf 0 0 (.ret (sealed {}))] } })).getD default).2, received (by decide +kernel)⟩,
   ⟨0, 0, 0, 0, 0, { live with fab := { asms := [{ owed := [(0, 0)] }] } }, by decide +kernel⟩⟩

theorem witness_EgressFramesComplete :
  (∃ (t : Nat) (src : Nat) (leaf : Nat) (ssn : Nat) (pos : Nat) (a : Asm) (s : State), (s.fab.asms.find? (fun a => a.tile = t &&
    a.note.src = src && a.note.leaf = leaf && a.note.ssn = ssn && a.note.pos = pos) = some a) ∧ asmDone s a = true ∧ tileRunning s t
    = true ∧ recovered a = [] ∧ asmLost a = false ∧ a.drop = false) ∧
  (∃ (p : Nat) (c : Nat) (sl : Slot) (s : State), txFree s p = true ∧ (List.range 8).reverse.find? (canFinish (countWaits p s) p)
    = some c ∧ slotOf (countWaits p s) p c = some sl) ∧
  (∃ (p : Nat) (sl : Slot) (s : State), p < 512 ∧ (port s p).tx = some sl ∧ sl.ready = true ∧ macsecMode s p = 0) ∧
  (∃ (p : Nat) (sl : Slot) (s : State), 512 ≤ p ∧ (port s p).tx = some sl ∧ sl.ready = true) :=
  ⟨⟨0, 0, 0, 0, 0, {}, { live with fab := { asms := [{}] } }, by decide +kernel⟩,
   ⟨0, ((List.range 8).reverse.find? (canFinish (countWaits (0) (setPort 0 (fun q =>
     { q with slots := [(7, some { ready := true, len := 64 })] }) live)) (0))).getD default, (slotOf (countWaits (0) (setPort 0
     (fun q => { q with slots := [(7, some { ready := true, len := 64 })] }) live)) (0) (((List.range 8).reverse.find? (canFinish
     (countWaits (0) (setPort 0 (fun q => { q with slots := [(7, some { ready := true, len := 64 })] }) live)) (0))).getD
     default)).getD default, setPort 0 (fun q => { q with slots := [(7, some { ready := true, len := 64 })] }) live,
     by decide +kernel⟩,
   ⟨511, ((port (setPort 511 (fun q => { q with tx := some { ready := true } }) live) (511)).tx).getD default, setPort 511 (fun q
     => { q with tx := some { ready := true } }) live, by decide +kernel⟩,
   ⟨512, ((port (setPort 512 (fun q => { q with tx := some { ready := true } }) live) (512)).tx).getD default, setPort 512 (fun q
     => { q with tx := some { ready := true } }) live, by decide +kernel⟩⟩

theorem witness_EvictionRowsComplete :
  (∃ (src : Nat) (dst : Nat) (l : Nat) (cls : Nat) (n : Notice) (w : Wire) (s : State) (u : State), Received src dst isEvictReq w
    s u ∧ w.msg = .evictReq l cls ∧ leafClass l < cls ∧ newestNotice u l = some n) ∧
  (∃ (src : Nat) (dst : Nat) (l : Nat) (cls : Nat) (w : Wire) (s : State) (u : State), Received src dst isEvictReq w s u ∧ w.msg =
    .evictReq l cls ∧ cls ≤ leafClass l) ∧
  (∃ (src : Nat) (dst : Nat) (n : Notice) (w : Wire) (s : State) (u : State), Received src dst isEvict w s u ∧ w.msg = .evict n ∧
    ((u.fab.filters.filter fun x => x.tile = dst).length < 64)) ∧
  (∃ (src : Nat) (dst : Nat) (l : Nat) (k : Nat) (v : Nat) (c : Nat) (f : Frame) (w : Wire) (s : State) (u : State), Received src
    dst isNack w s u ∧ w.msg = .evictNack l ∧ u.frames.find? (triedLeaf dst l) = some f ∧ f.phase = .pushout k v c) ∧
  (∃ (fid : Nat) (k : Nat) (v : Nat) (c : Nat) (f : Frame) (s : State), frame? s fid = some f ∧ f.phase = .pushout k v c) ∧
  (∃ (t : Nat) (s : State), tileRunning s t = true) ∧
  (∃ (src : Nat) (dst : Nat) (b : Nat) (w : Wire) (s : State) (u : State), Received src dst isPortIdle w s u ∧ w.msg = .portIdle
    b) :=
  ⟨⟨0, 0, 0, 1, (newestNotice (iff_ (isControl (wireOf 0 0 (.evictReq 0 1)).msg) (ctlTaken 0 0) ((takeWire 0 0 isEvictReq
     ({ live with fab := { wires := [wireOf 0 0 (.evictReq 0 1)], notices := [{}] } })).getD default).2) (0)).getD default, wireOf 0
     0 (.evictReq 0 1), { live with fab := { wires := [wireOf 0 0 (.evictReq 0 1)], notices := [{}] } }, iff_ (isControl (wireOf 0 0
     (.evictReq 0 1)).msg) (ctlTaken 0 0) ((takeWire 0 0 isEvictReq
     ({ live with fab := { wires := [wireOf 0 0 (.evictReq 0 1)], notices := [{}] } })).getD default).2, received
     (by decide +kernel), by decide +kernel⟩,
   ⟨0, 0, 7, 7, wireOf 0 0 (.evictReq 7 7), { live with fab := { wires := [wireOf 0 0 (.evictReq 7 7)] } }, iff_ (isControl
     (wireOf 0 0 (.evictReq 7 7)).msg) (ctlTaken 0 0) ((takeWire 0 0 isEvictReq
     ({ live with fab := { wires := [wireOf 0 0 (.evictReq 7 7)] } })).getD default).2, received (by decide +kernel),
     by decide +kernel⟩,
   ⟨0, 0, {}, wireOf 0 0 (.evict {}), { live with fab := { wires := [wireOf 0 0 (.evict {})] } }, iff_ (isControl (wireOf 0 0
     (.evict {})).msg) (ctlTaken 0 0) ((takeWire 0 0 isEvict ({ live with fab := { wires := [wireOf 0 0 (.evict {})] } })).getD
     default).2, received (by decide +kernel), by decide +kernel⟩,
   ⟨0, 0, 5, 1, 5, 2, { phase := .pushout 1 5 2 }, wireOf 0 0 (.evictNack 5),
     { live with fab := { wires := [wireOf 0 0 (.evictNack 5)] }, frames := [{ phase := .pushout 1 5 2 }] }, iff_ (isControl (wireOf
     0 0 (.evictNack 5)).msg) (ctlTaken 0 0) ((takeWire 0 0 isNack
     ({ live with fab := { wires := [wireOf 0 0 (.evictNack 5)] }, frames := [{ phase := .pushout 1 5 2 }] })).getD default).2,
     received (by decide +kernel), by decide +kernel⟩,
   ⟨0, 1, 5, 2, (frame? ({ live with frames := [{ fid := 0, phase := .pushout 1 5 2 }] }) (0)).getD default,
     { live with frames := [{ fid := 0, phase := .pushout 1 5 2 }] }, by decide +kernel⟩,
   ⟨0, live, by decide +kernel⟩,
   ⟨0, 0, 3, wireOf 0 0 (.portIdle 3), { live with fab := { wires := [wireOf 0 0 (.portIdle 3)] } }, iff_ (isControl (wireOf 0 0
     (.portIdle 3)).msg) (ctlTaken 0 0) ((takeWire 0 0 isPortIdle
     ({ live with fab := { wires := [wireOf 0 0 (.portIdle 3)] } })).getD default).2, received (by decide +kernel),
     by decide +kernel⟩⟩

theorem witness_PlaitControlCompletes :
  (∃ (rx : Nat) (tx : Nat) (s : State), rx ≠ tx ∧ tileRunning s rx = true ∧ (16 ≤ ((tget s.fab.crcFails (rx * 8 + tx)).filter fun
    x => s.tim.frc < x + 1000000).length)) ∧
  (∃ (t : Nat) (f : Nat) (s : State), tileRunning s t = true ∧ t ≠ f ∧ f < 8 ∧ tileRunning s f = false ∧ rfld s .latCalStat t 0
    (16 + f) (16 + f) = 0) ∧
  (∃ (s : State), s.img.shadow.isSome = true ∧ (runningTiles s).any (swapPending s) = true) ∧
  (∃ (i : Image) (s : State), s.img.shadow = some i) :=
  ⟨⟨0, 7, { live with fab := { crcFails := [(7, List.replicate 16 0)] } }, by decide +kernel⟩,
   ⟨0, 7, rset .pltBootStat 0 0 23 16 127 live, by decide +kernel⟩,
   ⟨rset .latCalStat 0 0 1 1 1 { live with img := { shadow := some testImage } }, by decide +kernel⟩,
   ⟨(({ live with img := { shadow := some testImage } }).img.shadow).getD default,
     { live with img := { shadow := some testImage } }, by decide +kernel⟩⟩

theorem witness_TimeRowsComplete :
  (∃ (s : State), hifUp s = true ∧ timeRuns s = true ∧ 999999999 < (rget s .timSetNs 0 0).toNat) ∧
  (∃ (sec : Nat) (s : State), hifUp s = true ∧ timeRuns s = true ∧ (rget s .timSetNs 0 0).toNat ≤ 999999999 ∧ sec = (rget s
    .timSetSecLo 0 0).toNat + rfld s .timSetSecHi 0 0 15 0 * 4294967296) ∧
  (∃ (n : Nat) (s : State), (n : Int) = (nowNs s : Int) + sext 32 (rget s .timSetNs 0 0).toNat ∧ n ≤ maxNs ∧ hifUp s = true ∧
    timeRuns s = true) ∧
  (∃ (n : Nat) (d : Int) (s : State), d = (n : Int) - (nowNs s : Int) ∧ d ≠ 0 ∧ d.natAbs ≤ stepLimit s) ∧
  (∃ (v : Word) (s : State), hifUp s = true ∧ -109951163 ≤ sext 32 v.toNat ∧ sext 32 v.toNat ≤ 109951163) ∧
  (∃ (v : Word) (s : State), hifUp s = true ∧ 109951163 < sext 32 v.toNat) ∧
  (∃ (v : Word) (s : State), hifUp s = true ∧ sext 32 v.toNat < -109951163) ∧
  (∃ (s : State), hifUp s = true) ∧
  (∃ (s : State), pbit s .timStat 4 = true) ∧
  (∃ (k : Nat) (s : State), k ∈ s.tim.realign) ∧
  (∃ (s : State), timeRuns s = true ∧ edgeSkipped s = false) ∧
  (∃ (s : State), s.tim.ppsHigh = true) ∧
  (∃ (s : State), timeRuns s = true ∧ s.tim.lastPps.isSome = true) ∧
  (∃ (s : State), timeRuns s = true) ∧
  (∃ (s : State), timeRuns s = true ∧ pbit s .timStat 5 = true) ∧
  (∃ (s : State), timeRuns s = true) :=
  ⟨⟨rput .timSetNs 0 0 1000000000 live, by decide +kernel⟩,
   ⟨(rget (rput .timSetNs 0 0 999999999 live) .timSetSecLo 0 0).toNat + rfld (rput .timSetNs 0 0 999999999 live) .timSetSecHi 0 0
     15 0 * 4294967296, rput .timSetNs 0 0 999999999 live, by decide +kernel⟩,
   ⟨0, live, by decide +kernel⟩,
   ⟨1, ((1) : Int) - (nowNs (live) : Int), live, rfl, by decide +kernel⟩,
   ⟨109951163, live, by decide +kernel⟩,
   ⟨109951164, live, by decide +kernel⟩,
   ⟨-109951164, live, by decide +kernel⟩,
   ⟨live, by decide +kernel⟩,
   ⟨pset .timStat 4 true live, by decide +kernel⟩,
   ⟨0, { live with tim := { realign := [0] } }, by decide +kernel⟩,
   ⟨live, by decide +kernel⟩,
   ⟨{ live with tim := { ppsHigh := true } }, by decide +kernel⟩,
   ⟨{ live with tim := { lastPps := some 0 } }, by decide +kernel⟩,
   ⟨live, by decide +kernel⟩,
   ⟨pset .timStat 5 true live, by decide +kernel⟩,
   ⟨live, by decide +kernel⟩⟩

theorem witness_GateAndShaperEventsComplete :
  (∃ (p : Nat) (s : State), (gateOf s p).active.count ≠ 0 ∧ (1 + p) ∉ s.tim.realign) ∧
  (∃ (p : Nat) (s : State), (gateOf s p).pending.isSome = true ∧ s.tim.realign = []) ∧
  (∃ (g : Nat) (s : State), (sgateOf s g).active.count ≠ 0 ∧ (513 + g) ∉ s.tim.realign) ∧
  (∃ (g : Nat) (s : State), (sgateOf s g).pending.isSome = true ∧ (sgateOf s g).bind = none ∧ s.tim.realign = []) ∧
  (∃ (p : Nat) (c : Nat) (s : State), portExists s p = true ∧ classOpen s p c = false) ∧
  (∃ (level : Nat) (n : Nat) (p : Nat) (s : State), nodePort s level n = some p ∧ nodeShade s level n = .red) ∧
  (∃ (t : Nat) (s : State), tileRunning s t = true) ∧
  (∃ (i : Nat) (s : State), (tget s.sch.streams i).cfg.kind = 2 ∧ (tget s.sch.streams i).takeAny = false) ∧
  (∃ (t : Nat) (l : Nat) (s : State), tileRunning s t = true ∧ rfld s .schSample t 0 31 31 = 1 ∧ nextSample s t = some l) :=
  ⟨⟨511, { live with sch := { gates := [(511, { active := { count := 1 } })] } }, by decide +kernel⟩,
   ⟨0, { live with sch := { gates := [(0, { pending := some {} })] } }, by decide +kernel⟩,
   ⟨1023, { live with sch := { sgates := [(1023, { active := { count := 1 } })] } }, by decide +kernel⟩,
   ⟨0, { live with sch := { sgates := [(0, { pending := some {} })] } }, by decide +kernel⟩,
   ⟨0, 0, { live with sch := { gates := [(0, { active := { count := 1 } })] } }, by decide +kernel⟩,
   ⟨1, 0, 0, { live with sch := { nodes := [(1048576, { cfg := { parent := 1, pir := 1 }, p := -100 })] } }, by decide +kernel⟩,
   ⟨0, live, by decide +kernel⟩,
   ⟨0, { live with sch := { streams := [(0, { cfg := { kind := 2 }, takeAny := false })] } }, by decide +kernel⟩,
   ⟨0, (nextSample (rset .schSample 0 0 31 30 2 { live with sch := { nodes := [(3145728, { cfg := { parent := 1 } })] } })
     (0)).getD default, rset .schSample 0 0 31 30 2 { live with sch := { nodes := [(3145728, { cfg := { parent := 1 } })] } },
     by decide +kernel⟩⟩

theorem witness_LearnAndTelemetryRowsComplete :
  (∃ (t : Nat) (n : Nat) (sl : Nat) (key : BitVec 128) (l : Learn) (s : State), (s.exm.learn.find? (fun l => sameLearn t n sl key
    l && !l.posted) = some l)) ∧
  (∃ (t : Nat) (u : Nat) (mem : Nat) (addr : Nat) (s : State), tileRunning s t = true ∧ (runningTiles s).find? (· ≠ t) = some u ∧
    (t, mem, addr) ∈ s.tblBad ∧ mem < 16) ∧
  (∃ (t : Nat) (u : Nat) (mem : Nat) (addr : Nat) (s : State), tileRunning s t = true ∧ (runningTiles s).find? (· ≠ t) = some u ∧
    (t, mem, addr) ∈ s.tblBad ∧ 16 ≤ mem) ∧
  (∃ (n : Nat) (s : State), dumpsRun s n = true) ∧
  (∃ (e : Nat) (skid : Nat) (req : Nat) (r : Nat) (op : Nat) (tag : Word) (s : State), (engine s e).last = some (req, r, op, tag)
    ∧ e < 16 ∧ bit (sampler s e) 31 = true ∧ engineUp s e = true ∧ skid < 3) ∧
  (∃ (e : Nat) (skid : Nat) (req : Nat) (r : Nat) (op : Nat) (tag : Word) (s : State), (engine s e).last = some (req, r, op, tag)
    ∧ e < 16 ∧ bit (sampler s e) 31 = true ∧ engineUp s e = true ∧ 3 ≤ skid) ∧
  (∃ (q : Nat) (k : Nat) (s : State), (timer s q k).on = true) :=
  ⟨⟨0, 0, 0, 0, {}, { live with exm := { learn := [{}] } }, by decide +kernel⟩,
   ⟨7, 0, 3, 9, { live with tblBad := [(7, 3, 9)] }, by decide +kernel⟩,
   ⟨7, 0, 16, 9, { live with tblBad := [(7, 16, 9)] }, by decide +kernel⟩,
   ⟨20, rset .telDumpPer 0 20 9 0 1 live, by decide +kernel⟩,
   ⟨1, 2, 16, 0, 0x41, 7, rset .telEngSample 0 1 31 31 1 (setEngine 1 (fun g => { g with last := some (16, 0, 0x41, 7) }) live),
     by decide +kernel⟩,
   ⟨1, 3, 16, 0, 0x41, 7, rset .telEngSample 0 1 31 31 1 (setEngine 1 (fun g => { g with last := some (16, 0, 0x41, 7) }) live),
     by decide +kernel⟩,
   ⟨0, 0, { live with hif := { timers := [(0, { on := true })] } }, by decide +kernel⟩⟩

theorem witness_DramRowsComplete :
  (∃ (ch : Nat) (r : Nat) (busy : Bool) (s : State), channelUp s ch = true ∧ r < 9 ∧ ((busy = false ∧ rankQueued s ch r = []) ∨
    postponeMax s (ch / 8) = 0)) ∧
  (∃ (ch : Nat) (r : Nat) (busy : Bool) (s : State), channelUp s ch = true ∧ r < 9 ∧ (busy = true ∨ rankQueued s ch r ≠ []) ∧ 0 <
    postponeMax s (ch / 8)) ∧
  (∃ (ch : Nat) (s : State), channelUp s ch = true ∧ channelLoad s ch = 0) ∧
  (∃ (t : Nat) (i : Nat) (s : State), tileRunning s t = true ∧ oldestRead s t = some i) ∧
  (∃ (ch : Nat) (s : State), ch < 64 ∧ 3 ≤ stage s ∧ stage s ≤ 9 ∧ (channel s ch).trainFail = false) ∧
  (∃ (ch : Nat) (s : State), channelUp s ch = true ∧ (channel s ch).migState = 1 ∧ (channel s ch).draining = false) ∧
  (∃ (ch : Nat) (s : State), channelUp s ch = true ∧ (channel s ch).draining = true) ∧
  (∃ (s : State), 5 ≤ stage s ∧ stage s ≤ 9) ∧
  (∃ (ch : Nat) (s : State), (channel s ch).migState = 3) :=
  ⟨⟨63, 8, false, live, by decide +kernel⟩,
   ⟨63, 0, false, { live with fab := { held := [{ tile := 7, place := .spilling 55 }] } }, by decide +kernel⟩,
   ⟨0, live, by decide +kernel⟩,
   ⟨1, 5, { live with fab := { held := [{ tile := 1, place := .reading 5 }], reads := [(1, 5)] } }, by decide +kernel⟩,
   ⟨0, live, by decide +kernel⟩,
   ⟨0, { live with dram := [(0, { migState := 1 })] }, by decide +kernel⟩,
   ⟨0, { live with dram := [(0, { draining := true })] }, by decide +kernel⟩,
   ⟨live, by decide +kernel⟩,
   ⟨0, { live with dram := [(0, { migState := 3 })] }, by decide +kernel⟩⟩

theorem witness_CorridorRowsComplete :
  (∃ (p : Nat) (s : State), helloAllowed s p = true) ∧
  (∃ (p : Nat) (h : Hello) (s : State), isFabric s p = true ∧ portExists s p = true ∧ (port s p).aligned = true ∧ h.version = 1 ∧
    46 ≤ h.payloadLen) ∧
  (∃ (p : Nat) (h : Hello) (s : State), isFabric s p = true ∧ portExists s p = true ∧ (port s p).aligned = true ∧ h.version ≠ 1) ∧
  (∃ (p : Nat) (s : State), isFabric s p = true ∧ (adjOf s p).state ≠ 1) ∧
  (∃ (p : Nat) (m : Mgmt) (s : State), isFabric s p = true ∧ portExists s p = true ∧ (port s p).aligned = true ∧ m.type ≠ 1 ∧
    takesMgmt s m = true ∧ quarantined s p = false) ∧
  (∃ (p : Nat) (m : Mgmt) (s : State), isFabric s p = true ∧ portExists s p = true ∧ (port s p).aligned = true ∧ m.type ∉ [1, 4,
    5] ∧ quarantined s p = true) ∧
  (∃ (s : State), activeFail s ≠ 0 ∧ activeFail s ∈ s.cfb.originated) ∧
  (∃ (p : Nat) (s : State), isFabric s p = true ∧ announces s p = true) ∧
  (∃ (s : State), s.cfb.revertAt.isSome = true ∧ activeFail s = s.cfb.revertId) ∧
  (∃ (r : Nat) (s : State), 3 ≤ stage s ∧ (findRing s mgr (fun g => g.kind = 2 && g.mgmt) = some r)) :=
  ⟨⟨1, pset .pltBootCtl 0 true ( { live with cages := [(0, { state := 2 })] }), by decide +kernel⟩,
   ⟨1, {}, live, by decide +kernel⟩,
   ⟨1, { version := 2 }, live, by decide +kernel⟩,
   ⟨1, { live with cfb := { adj := [(1, { state := 3 })] } }, by decide +kernel⟩,
   ⟨1, { type := 2, target := 255 }, live, by decide +kernel⟩,
   ⟨1, { type := 2 }, { live with cfb := { adj := [(1, { state := 4 })] } }, by decide +kernel⟩,
   ⟨rset .cfbStat 0 0 11 0 3 { live with cfb := { originated := [3] } }, by decide +kernel⟩,
   ⟨1,
     { rset .cfbStat 0 0 11 0 3 { live with cfb := { adj := [(1, { state := 3 })] } } with opt := { bytes := [1, 0, 20, 0, 0, 0, 2, 2, 0, 0] } },
     by decide +kernel⟩,
   ⟨{ live with cfb := { revertAt := some {} } }, by decide +kernel⟩,
   ⟨5, setRing 16 5 (fun g => { g with ex := true, kind := 2, mgmt := true }) live, by decide +kernel⟩⟩

theorem witness_RingRowsComplete :
  (∃ (s : State), hifUp s = true) ∧
  (∃ (q : Nat) (r : Nat) (s : State), fetches s q r = true ∧ (ringSt s q r).recheck = false) ∧
  (∃ (q : Nat) (r : Nat) (e : List Word) (s : State), fetches s q r = true ∧ (ringSt s q r).recheck = true ∧ phase1 e = true) ∧
  (∃ (q : Nat) (r : Nat) (e : List Word) (s : State), fetches s q r = true ∧ (ringSt s q r).recheck = true ∧ phase1 e = false) ∧
  (∃ (q : Nat) (r : Nat) (s : State), hifUp s = true ∧ mayEnable s q r = true ∧ (ringSt s q r).en = false ∧ r ≠ 0) ∧
  (∃ (q : Nat) (r : Nat) (s : State), hifUp s = true ∧ ringExists s q r = true ∧ (ringSt s q r).en = true) ∧
  (∃ (q : Nat) (r : Nat) (s : State), (ringSt s q r).irqDue = true ∧ (ringSt s q r).irqEn = true ∧ (ringSt s q r).vector ≠ 0x7FF) ∧
  (∃ (q : Nat) (r : Nat) (s : State), hifUp s = true ∧ ringExists s q r = true) ∧
  (∃ (c : Cmd) (s : State), ringExists s c.req c.ring = true ∧ (ringSt s c.req c.ring).kind = 1 ∧ (ringSt s c.req
    c.ring).resetting = false ∧ hifUp s = true ∧ calRuns s = true ∧ s.pwr.sagStep < 3 ∧ s.ps.module ≤ 1 ∧ txFails c s = none ∧
    txClaim c s = none) ∧
  (∃ (st : Nat) (c : Cmd) (s : State), ringExists s c.req c.ring = true ∧ (ringSt s c.req c.ring).kind = 1 ∧ (ringSt s c.req
    c.ring).resetting = false ∧ hifUp s = true ∧ calRuns s = true ∧ s.pwr.sagStep < 3 ∧ s.ps.module ≤ 1 ∧ txFails c s = some st) ∧
  (∃ (sl : Nat) (s : State), sl ∈ s.hif.sliceResetting) :=
  ⟨⟨live, by decide +kernel⟩,
   ⟨16, 0, live, by decide +kernel⟩,
   ⟨16, 0, [0x80000000], setRing 16 0 (fun g => { g with recheck := true }) live, by decide +kernel⟩,
   ⟨16, 0, [0], setRing 16 0 (fun g => { g with recheck := true }) live, by decide +kernel⟩,
   ⟨16, 255, setRing 16 255 (fun g => { g with ex := true }) live, by decide +kernel⟩,
   ⟨16, 0, live, by decide +kernel⟩,
   ⟨0, 0, setRing 0 0 (fun g => { g with irqDue := true, irqEn := true, vector := 3 }) live, by decide +kernel⟩,
   ⟨16, 0, live, by decide +kernel⟩,
   ⟨{ req := 16, ring := 2, desc := [0x10000000, 0, 0, 0, 60, 0] }, setRing 16 2 (fun g =>
     { g with ex := true, en := true, kind := 1 }) live, by decide +kernel⟩,
   ⟨(txFails ({ req := 16, ring := 2, desc := [0x10000000, 0, 0, 0, 59, 0] }) (setRing 16 2 (fun g =>
     { g with ex := true, en := true, kind := 1 }) live)).getD default,
     { req := 16, ring := 2, desc := [0x10000000, 0, 0, 0, 59, 0] }, setRing 16 2 (fun g =>
     { g with ex := true, en := true, kind := 1 }) live, by decide +kernel⟩,
   ⟨0, { live with hif := { sliceResetting := [0] } }, by decide +kernel⟩⟩

theorem witness_SecurityEventsComplete :
  (∃ (id : Nat) (s : State), 3 ≤ stage s ∧ (id = 1 ∨ id = 2) ∧ s.sec.holder = 0 ∧ s.sec.running = none ∧ id ∉ s.sec.queue) ∧
  (∃ (id : Nat) (s : State), 3 ≤ stage s ∧ (id = 1 ∨ id = 2) ∧ s.sec.holder ≠ 0 ∧ s.sec.holder ≠ id ∧ id ∉ s.sec.queue) ∧
  (∃ (s : State), s.sec.halted = false ∧ s.sec.running.isSome = true) ∧
  (∃ (s : State), 3 ≤ stage s ∧ s.sec.halted = false ∧ s.sec.running = none) ∧
  (∃ (m : SecMsg) (s : State), 3 ≤ stage s ∧ s.sec.halted = false ∧ s.sec.running = some m ∧ m.level < 2) ∧
  (∃ (k : Nat) (s : State), 3 ≤ stage s ∧ k ≤ 3 ∧ s.sec.halted = false) ∧
  (∃ (s : State), hifUp s = true) :=
  ⟨⟨1, live, by decide +kernel⟩,
   ⟨2, { live with sec := { holder := 1 } }, by decide +kernel⟩,
   ⟨{ live with sec := { running := some {} } }, by decide +kernel⟩,
   ⟨live, by decide +kernel⟩,
   ⟨(({ live with sec := { running := some { level := 1 } } }).sec.running).getD default,
     { live with sec := { running := some { level := 1 } } }, by decide +kernel⟩,
   ⟨3, live, by decide +kernel⟩,
   ⟨live, by decide +kernel⟩⟩

theorem witness_HostAccessRowsComplete :
  (∃ (n : Nat) (s : State), stage s = 0x80 ∧ 0 < n ∧ n ≤ 8388608) ∧
  (∃ (x : Bool × Nat × Nat) (s : State), s.pwr.uart = some x) ∧
  (∃ (b : Bool) (n : Nat) (k : Nat) (s : State), s.pwr.uart = some (b, n, k) ∧ k + 1024 < n) ∧
  (∃ (b : Bool) (n : Nat) (k : Nat) (s : State), s.pwr.uart = some (b, n, k) ∧ n ≤ k + 1024) ∧
  (∃ (s : State), 3 ≤ stage s) ∧
  (∃ (s : State), 3 ≤ stage s ∧ debugOpen s = true) ∧
  (∃ (off : Nat) (t : Nat) (i : Nat) (r : Reg) (s : State), hifUp s = true ∧ off < 0x4000000 ∧ decodeBar0 off = some (r, t, i) ∧
    blockSilent s r t = false) ∧
  (∃ (a : Access) (s : State), hifUp s = true ∧ a.bar = 0 ∧ a.off < 0x4000000 ∧ a.pasid = none ∧ decodeBar0 a.off = none) ∧
  (∃ (a : Access) (t : Nat) (i : Nat) (r : Reg) (s : State), hifUp s = true ∧ a.bar = 0 ∧ a.off < 0x4000000 ∧ a.pasid = none ∧
    a.be = 15 ∧ decodeBar0 a.off = some (r, t, i) ∧ blockShut s r t = false) ∧
  (∃ (a : Access) (t : Nat) (i : Nat) (r : Reg) (s : State), hifUp s = true ∧ a.bar = 0 ∧ a.off < 0x4000000 ∧ a.pasid = none ∧
    a.be < 15 ∧ decodeBar0 a.off = some (r, t, i)) ∧
  (∃ (a : Access) (s : State), hifUp s = true ∧ a.bar = 4 ∧ a.off < 0x8000 ∧ a.pasid = none ∧ a.be = 15) ∧
  (∃ (speed : Nat) (width : Nat) (s : State), hifUp s = true ∧ 1 ≤ speed ∧ speed ≤ pcieGen s ∧ width ∈ [1, 2, 4, 8] ∧ width ≤
    pcieLanes s) ∧
  (∃ (s : State), hifUp s = true) :=
  ⟨⟨8388608, setStage 128 live, by decide +kernel⟩,
   ⟨(({ live with pwr := { uart := some (true, 8, 0) } }).pwr.uart).getD default,
     { live with pwr := { uart := some (true, 8, 0) } }, by decide +kernel⟩,
   ⟨true, 1025, 0, { live with pwr := { uart := some (true, 1025, 0) } }, by decide +kernel⟩,
   ⟨true, 1024, 0, { live with pwr := { uart := some (true, 1024, 0) } }, by decide +kernel⟩,
   ⟨live, by decide +kernel⟩,
   ⟨{ live with opt := { bytes := [1, 0, 20, 0, 0xA5, 0, 255, 2, 0, 0] } }, by decide +kernel⟩,
   ⟨0x10, 0, 0, .pltRstCause, live, by decide +kernel⟩,
   ⟨{ off := 0x3FFFFFF }, live, by decide +kernel⟩,
   ⟨{ off := 0x10 }, 0, 0, .pltRstCause, live, by decide +kernel⟩,
   ⟨{ off := 0x10, be := 14 }, 0, 0, .pltRstCause, live, by decide +kernel⟩,
   ⟨{ bar := 4, off := 0x7FFC }, live, by decide +kernel⟩,
   ⟨5, 8, { live with opt := { bytes := [1, 0, 20, 0, 0, 0, 255, 3, 0, 0] } }, by decide +kernel⟩,
   ⟨live, by decide +kernel⟩⟩

theorem witness_TableCommandsComplete :
  (∃ (c : Cmd) (k : Nat) (e : ExmEntry) (s : State) (u : State), Runs c 0x41 .any (tblChecks c s false) s ∧ u = tblReads c
    (noteCmd c s) ∧ tblFind c u = some (k, e)) ∧
  (∃ (c : Cmd) (s : State) (u : State), Runs c 0x41 .any (tblChecks c s false) s ∧ u = tblReads c (noteCmd c s) ∧ tblFind c u =
    none) ∧
  (∃ (c : Cmd) (k : Nat) (s : State) (u : State), Runs c 0x42 .any (tblChecks c s (!opb c 5 31 && 528 ≤ opf c 5 17 0)) s ∧ u =
    tblReads c (noteCmd c s) ∧ tblFind c u = none ∧ exmPlace u (bucketOf (exmProf u (tblN c)) (tblSl c) (opKey c 8)) (tblSl c) =
    some k) ∧
  (∃ (c : Cmd) (s : State) (u : State), Runs c 0x42 .any (tblChecks c s (!opb c 5 31 && 528 ≤ opf c 5 17 0)) s ∧ u = tblReads c
    (noteCmd c s) ∧ tblFind c u = none ∧ exmPlace u (bucketOf (exmProf u (tblN c)) (tblSl c) (opKey c 8)) (tblSl c) = none) ∧
  (∃ (c : Cmd) (k : Nat) (e : ExmEntry) (s : State) (u : State), Runs c 0x42 .any (tblChecks c s (!opb c 5 31 && 528 ≤ opf c 5 17
    0)) s ∧ u = tblReads c (noteCmd c s) ∧ tblFind c u = some (k, e) ∧ opb c 4 10 = false) ∧
  (∃ (c : Cmd) (k : Nat) (e : ExmEntry) (s : State) (u : State), Runs c 0x42 .any (tblChecks c s (!opb c 5 31 && 528 ≤ opf c 5 17
    0)) s ∧ u = tblReads c (noteCmd c s) ∧ tblFind c u = some (k, e) ∧ opb c 4 10 = true) ∧
  (∃ (c : Cmd) (k : Nat) (e : ExmEntry) (s : State) (u : State), Runs c 0x43 .any (tblChecks c s false) s ∧ u = tblReads c
    (noteCmd c s) ∧ tblFind c u = some (k, e)) ∧
  (∃ (c : Cmd) (s : State) (u : State), Runs c 0x43 .any (tblChecks c s false) s ∧ u = tblReads c (noteCmd c s) ∧ tblFind c u =
    none) ∧
  (∃ (c : Cmd) (s : State) (u : State), Runs c 0x44 .any (walkChecks c s true false) s ∧ u = tblReads c (noteCmd c s)) ∧
  (∃ (c : Cmd) (s : State) (u : State), Runs c 0x45 .any (walkChecks c s false (528 ≤ opf c 5 9 0)) s ∧ u = tblReads c (noteCmd c
    s)) ∧
  (∃ (c : Cmd) (s : State) (u : State), Runs c 0x46 .any (walkChecks c s false (opf c 5 14 0 = 0)) s ∧ u = exmErrors (homeTile
    (noteCmd c s) c) (exmUe c) (noteCmd c s)) ∧
  (∃ (c : Cmd) (s : State) (u : State), Runs c 0x47 .manager [] s ∧ u = noteCmd c s) :=
  ⟨⟨cm 0x41 [], storedAt (cm 0x41 []), storedEntry (cm 0x41 []), stored (cm 0x41 []), tblReads (cm 0x41 []) (noteCmd (cm 0x41 [])
     (stored (cm 0x41 []))), by decide +kernel, rfl, stored_found _ _ rfl rfl rfl⟩,
   ⟨cm 0x41 [], live, tblReads (cm 0x41 []) (noteCmd (cm 0x41 []) (live)), by decide +kernel, rfl, by decide +kernel⟩,
   ⟨cm 0x42 [], bucketOf (exmProf (tblReads (cm 0x42 []) (noteCmd (cm 0x42 []) (live))) (tblN (cm 0x42 []))) (tblSl (cm 0x42 []))
     (opKey (cm 0x42 []) 8) * 4 + 0, live, tblReads (cm 0x42 []) (noteCmd (cm 0x42 []) (live)), by decide +kernel, rfl,
     by decide +kernel, rfl⟩,
   ⟨cm 0x42 [], fullTable, fullInsert, by decide +kernel, rfl, fullTable_find, fullTable_full _⟩,
   ⟨cm 0x42 [], storedAt (cm 0x42 []), storedEntry (cm 0x42 []), stored (cm 0x42 []), tblReads (cm 0x42 []) (noteCmd (cm 0x42 [])
     (stored (cm 0x42 []))), by decide +kernel, rfl, stored_found _ _ rfl rfl rfl, by decide +kernel⟩,
   ⟨cm 0x42 [(4, 1024)], storedAt (cm 0x42 [(4, 1024)]), storedEntry (cm 0x42 [(4, 1024)]), stored (cm 0x42 [(4, 1024)]), tblReads
     (cm 0x42 [(4, 1024)]) (noteCmd (cm 0x42 [(4, 1024)]) (stored (cm 0x42 [(4, 1024)]))), by decide +kernel, rfl, stored_found _ _
     rfl rfl rfl, by decide +kernel⟩,
   ⟨cm 0x43 [], storedAt (cm 0x43 []), storedEntry (cm 0x43 []), stored (cm 0x43 []), tblReads (cm 0x43 []) (noteCmd (cm 0x43 [])
     (stored (cm 0x43 []))), by decide +kernel, rfl, stored_found _ _ rfl rfl rfl⟩,
   ⟨cm 0x43 [], live, tblReads (cm 0x43 []) (noteCmd (cm 0x43 []) (live)), by decide +kernel, rfl, by decide +kernel⟩,
   ⟨cm 0x44 [(2, 0xFFFFFFFF), (3, 0xFFFFFFFF)], live, tblReads (cm 0x44 [(2, 0xFFFFFFFF), (3, 0xFFFFFFFF)]) (noteCmd (cm 0x44 [(2,
     0xFFFFFFFF), (3, 0xFFFFFFFF)]) (live)), by decide +kernel, rfl⟩,
   ⟨cm 0x45 [(2, 0xFFFFFFFF), (3, 0xFFFFFFFF)], live, tblReads (cm 0x45 [(2, 0xFFFFFFFF), (3, 0xFFFFFFFF)]) (noteCmd (cm 0x45 [(2,
     0xFFFFFFFF), (3, 0xFFFFFFFF)]) (live)), by decide +kernel, rfl⟩,
   ⟨cm 0x46 [(2, 0xFFFFFFFF), (3, 0xFFFFFFFF), (5, 0x7FFF)], live, exmErrors (homeTile (noteCmd (cm 0x46 [(2, 0xFFFFFFFF), (3,
     0xFFFFFFFF), (5, 0x7FFF)]) (live)) (cm 0x46 [(2, 0xFFFFFFFF), (3, 0xFFFFFFFF), (5, 0x7FFF)])) (exmUe (cm 0x46 [(2, 0xFFFFFFFF),
     (3, 0xFFFFFFFF), (5, 0x7FFF)])) (noteCmd (cm 0x46 [(2, 0xFFFFFFFF), (3, 0xFFFFFFFF), (5, 0x7FFF)]) (live)), by decide +kernel,
     rfl⟩,
   ⟨cm 0x47 [], live, noteCmd (cm 0x47 []) (live), by decide +kernel, rfl⟩⟩

theorem witness_PrefixAndRuleCommandsComplete :
  (∃ (c : Cmd) (s : State) (u : State), Runs c 0x81 .any (lpmChecks c s true (some (lpmLen c))) s ∧ u = noteCmd c s ∧ lpmExact u
    (lpmR c) (lpmLen c) (opKey c 8) = none ∧ lpmUse u (lpmCharge c u) + unitCost u (lpmR c) (lpmLen c) ≤ lpmShare u) ∧
  (∃ (c : Cmd) (s : State) (u : State), Runs c 0x81 .any (lpmChecks c s true (some (lpmLen c))) s ∧ u = noteCmd c s ∧ lpmExact u
    (lpmR c) (lpmLen c) (opKey c 8) = none ∧ lpmShare u < lpmUse u (lpmCharge c u) + unitCost u (lpmR c) (lpmLen c)) ∧
  (∃ (c : Cmd) (q : Pfx) (s : State) (u : State), Runs c 0x81 .any (lpmChecks c s true (some (lpmLen c))) s ∧ u = noteCmd c s ∧
    lpmExact u (lpmR c) (lpmLen c) (opKey c 8) = some q ∧ opb c 4 12 = false) ∧
  (∃ (c : Cmd) (q : Pfx) (s : State) (u : State), Runs c 0x81 .any (lpmChecks c s true (some (lpmLen c))) s ∧ u = noteCmd c s ∧
    lpmExact u (lpmR c) (lpmLen c) (opKey c 8) = some q ∧ opb c 4 12 = true) ∧
  (∃ (c : Cmd) (q : Pfx) (s : State) (u : State), Runs c 0x82 .any (lpmChecks c s true (some (lpmLen c))) s ∧ u = noteCmd c s ∧
    lpmExact u (lpmR c) (lpmLen c) (opKey c 8) = some q) ∧
  (∃ (c : Cmd) (q : Pfx) (s : State) (u : State), Runs c 0x83 .any (lpmChecks c s false (some (lpmLen c))) s ∧ u = noteCmd c s ∧
    lpmExact u (lpmR c) (lpmLen c) (opKey c 8) = some q) ∧
  (∃ (c : Cmd) (nh : Nat) (len : Nat) (s : State) (u : State) (v : State), Runs c 0x84 .any (lpmChecks c s false none) s ∧ u =
    noteCmd c s ∧ lookTrie (homeTile u c) (lpmR c) (opKey c 8).toNat c.ue u = (some (nh, len), v)) ∧
  (∃ (c : Cmd) (q : Pfx) (s : State) (u : State), Runs c 0x85 .any (lpmChecks c s false (some (lpmLen c))) s ∧ u = noteCmd c s ∧
    lpmAfter u (lpmR c) (lpmLen c) (opKey c 8) = some q) ∧
  (∃ (c : Cmd) (s : State) (u : State), Runs c 0xC1 .any (tcmChecks c s false) s ∧ u = noteCmd c s ∧ (((tcmPipes c).filter
    (pipeRunning u)).any (fun gp => (tcmRow u gp (namedHead u c gp) (tcmRowN c)).valid) = false)) ∧
  (∃ (c : Cmd) (s : State) (u : State), Runs c 0xC1 .any (tcmChecks c s false) s ∧ u = noteCmd c s ∧ (((tcmPipes c).filter
    (pipeRunning u)).any (fun gp => (tcmRow u gp (namedHead u c gp) (tcmRowN c)).valid) = true)) ∧
  (∃ (c : Cmd) (s : State) (u : State), Runs c 0xC2 .any (tcmChecks c s true) s ∧ u = noteCmd c s) ∧
  (∃ (c : Cmd) (s : State) (u : State), Runs c 0xC3 .any (tcmChecks c s true) s ∧ u = noteCmd c s) ∧
  (∃ (c : Cmd) (gp : Nat) (s : State) (u : State), gp = opf c 4 2 0 * 8 + opf c 4 10 8 ∧ Runs c 0xC4 .any [((slabTable s gp
    (tcmSlab c)).isNone, stBAD_OPERAND), (!ownsRow s c gp, stNO_PERMISSION), (!pipeRunning s gp, stFENCED_UNIT)] s ∧ u = noteCmd c
    s) ∧
  (∃ (c : Cmd) (run : List Nat) (s : State) (u : State), run = (tcmPipes c).filter (pipeRunning s) ∧ Runs c 0xC5 .manager
    [((tcmPipes c).isEmpty, stBAD_OPERAND), (run.isEmpty, stFENCED_UNIT)] s ∧ u = noteCmd c s) ∧
  (∃ (c : Cmd) (s : State) (u : State), Runs c 0x82 .any (lpmChecks c s true (some (lpmLen c))) s ∧ u = noteCmd c s ∧ lpmExact u
    (lpmR c) (lpmLen c) (opKey c 8) = none) ∧
  (∃ (c : Cmd) (s : State) (u : State), Runs c 0x83 .any (lpmChecks c s false (some (lpmLen c))) s ∧ u = noteCmd c s ∧ lpmExact u
    (lpmR c) (lpmLen c) (opKey c 8) = none) ∧
  (∃ (c : Cmd) (s : State) (u : State) (v : State), Runs c 0x84 .any (lpmChecks c s false none) s ∧ u = noteCmd c s ∧ lookTrie
    (homeTile u c) (lpmR c) (opKey c 8).toNat c.ue u = (none, v)) ∧
  (∃ (c : Cmd) (s : State) (u : State), Runs c 0x85 .any (lpmChecks c s false (some (lpmLen c))) s ∧ u = noteCmd c s ∧ lpmAfter u
    (lpmR c) (lpmLen c) (opKey c 8) = none) :=
  ⟨⟨cm 0x81 [], live, noteCmd (cm 0x81 []) (live), by decide +kernel, rfl, by decide +kernel⟩,
   ⟨trieInsert, fullTrie, noteCmd (trieInsert) (fullTrie), by decide +kernel, rfl, fullTrie_none, fullTrie_full⟩,
   ⟨cm 0x81 [], {}, { live with lpm := [{}] }, noteCmd (cm 0x81 []) ({ live with lpm := [{}] }), by decide +kernel, rfl,
     by decide +kernel⟩,
   ⟨cm 0x81 [(4, 0x1000)], {}, { live with lpm := [{}] }, noteCmd (cm 0x81 [(4, 0x1000)]) ({ live with lpm := [{}] }),
     by decide +kernel, rfl, by decide +kernel⟩,
   ⟨cm 0x82 [], {}, { live with lpm := [{}] }, noteCmd (cm 0x82 []) ({ live with lpm := [{}] }), by decide +kernel, rfl,
     by decide +kernel⟩,
   ⟨cm 0x83 [], {}, { live with lpm := [{}] }, noteCmd (cm 0x83 []) ({ live with lpm := [{}] }), by decide +kernel, rfl,
     by decide +kernel⟩,
   ⟨cm 0x84 [], 9, 0, { live with trie := { dflt := [(0, some 9)] } }, noteCmd (cm 0x84 [])
     ({ live with trie := { dflt := [(0, some 9)] } }), (lookTrie (homeTile (noteCmd (cm 0x84 [])
     ({ live with trie := { dflt := [(0, some 9)] } })) (cm 0x84 [])) (lpmR (cm 0x84 [])) (opKey (cm 0x84 []) 8).toNat [] (noteCmd
     (cm 0x84 []) ({ live with trie := { dflt := [(0, some 9)] } }))).2, by decide +kernel, rfl, by decide +kernel⟩,
   ⟨cm 0x85 [], { addr := 1, len := 32 }, { live with lpm := [{ addr := 1, len := 32 }] }, noteCmd (cm 0x85 [])
     ({ live with lpm := [{ addr := 1, len := 32 }] }), by decide +kernel, rfl, by decide +kernel⟩,
   ⟨cm 0xC1 [(4, 0x101)], live, noteCmd (cm 0xC1 [(4, 0x101)]) (live), by decide +kernel, rfl, by decide +kernel⟩,
   ⟨cm 0xC1 [(4, 0x101)], { live with tcm := { rows := [(0, { valid := true })] } }, noteCmd (cm 0xC1 [(4, 0x101)])
     ({ live with tcm := { rows := [(0, { valid := true })] } }), by decide +kernel, rfl, by decide +kernel⟩,
   ⟨cm 0xC2 [(4, 0x101)], live, noteCmd (cm 0xC2 [(4, 0x101)]) (live), by decide +kernel, rfl⟩,
   ⟨cm 0xC3 [(4, 0x101)], live, noteCmd (cm 0xC3 [(4, 0x101)]) (live), by decide +kernel, rfl⟩,
   ⟨cm 0xC4 [], opf (cm 0xC4 []) 4 2 0 * 8 + opf (cm 0xC4 []) 4 10 8, live, noteCmd (cm 0xC4 []) (live), rfl, by decide +kernel,
     rfl⟩,
   ⟨cm 0xC5 [(4, 0x101)], (tcmPipes (cm 0xC5 [(4, 0x101)])).filter (pipeRunning (live)), live, noteCmd (cm 0xC5 [(4, 0x101)])
     (live), rfl, by decide +kernel, rfl⟩,
   ⟨cm 0x82 [], live, noteCmd (cm 0x82 []) (live), by decide +kernel, rfl, by decide +kernel⟩,
   ⟨cm 0x83 [], live, noteCmd (cm 0x83 []) (live), by decide +kernel, rfl, by decide +kernel⟩,
   ⟨cm 0x84 [], live, noteCmd (cm 0x84 []) (live), (lookTrie (homeTile (noteCmd (cm 0x84 []) (live)) (cm 0x84 [])) (lpmR (cm 0x84
     [])) (opKey (cm 0x84 []) 8).toNat [] (noteCmd (cm 0x84 []) (live))).2, by decide +kernel, rfl, by decide +kernel⟩,
   ⟨cm 0x85 [], live, noteCmd (cm 0x85 []) (live), by decide +kernel, rfl, by decide +kernel⟩⟩

theorem witness_ActionCommandsComplete :
  (∃ (c : Cmd) (s : State) (u : State), Runs c 0x101 .any (partChecks c s false 262144 (opf c 4 17 0)) s ∧ u = noteCmd c s) ∧
  (∃ (c : Cmd) (s : State) (u : State), Runs c 0x102 .any (partChecks c s false 262144 (opf c 4 17 0)) s ∧ u = noteCmd c s) ∧
  (∃ (c : Cmd) (s : State) (u : State), Runs c 0x103 .any (partChecks c s false 16384 (opf c 4 13 0)) s ∧ u = noteCmd c s) ∧
  (∃ (c : Cmd) (s : State) (u : State), Runs c 0x104 .any (partChecks c s (opf c 5 15 8 < opf c 5 7 0) 16384 (opf c 4 13 0)) s ∧ u
    = noteCmd c s) ∧
  (∃ (c : Cmd) (s : State) (u : State), Runs c 0x105 .any (partChecks c s false 16384 (opf c 4 13 0)) s ∧ u = noteCmd c s) ∧
  (∃ (c : Cmd) (g : Nat) (s : State) (u : State), g = opf c 4 15 0 ∧ Runs c 0x106 .any (partChecks c s (!opb c 5 19) 65536 g) s ∧
    u = noteCmd c s ∧ ((tget u.act.mcast g).members.any (fun m => m.nh = opf c 5 17 0) = false) ∧ membersFull u g = false) ∧
  (∃ (c : Cmd) (g : Nat) (s : State) (u : State), g = opf c 4 15 0 ∧ Runs c 0x106 .any (partChecks c s (!opb c 5 19) 65536 g) s ∧
    u = noteCmd c s ∧ ((tget u.act.mcast g).members.any (fun m => m.nh = opf c 5 17 0) = true)) ∧
  (∃ (c : Cmd) (g : Nat) (s : State) (u : State), g = opf c 4 15 0 ∧ Runs c 0x107 .any (partChecks c s false 65536 g) s ∧ u =
    noteCmd c s ∧ ((tget u.act.mcast g).members.any (fun m => m.nh = opf c 5 17 0) = true)) ∧
  (∃ (c : Cmd) (s : State) (u : State), Runs c 0x108 .manager [(opf c 6 13 0 < 64 || 10240 < opf c 6 13 0, stBAD_OPERAND), (noTile
    s, stFENCED_UNIT)] s ∧ u = noteCmd c s) ∧
  (∃ (c : Cmd) (g : Nat) (s : State) (u : State), g = opf c 4 15 0 ∧ Runs c 0x106 .any (partChecks c s (!opb c 5 19) 65536 g) s ∧
    u = noteCmd c s ∧ ((tget u.act.mcast g).members.any (fun m => m.nh = opf c 5 17 0) = false) ∧ membersFull u g = true) ∧
  (∃ (c : Cmd) (g : Nat) (s : State) (u : State), g = opf c 4 15 0 ∧ Runs c 0x107 .any (partChecks c s false 65536 g) s ∧ u =
    noteCmd c s ∧ ((tget u.act.mcast g).members.any (fun m => m.nh = opf c 5 17 0) = false)) :=
  ⟨⟨cm 0x101 [], live, noteCmd (cm 0x101 []) (live), by decide +kernel, rfl⟩,
   ⟨cm 0x102 [], live, noteCmd (cm 0x102 []) (live), by decide +kernel, rfl⟩,
   ⟨cm 0x103 [], live, noteCmd (cm 0x103 []) (live), by decide +kernel, rfl⟩,
   ⟨cm 0x104 [], live, noteCmd (cm 0x104 []) (live), by decide +kernel, rfl⟩,
   ⟨cm 0x105 [], live, noteCmd (cm 0x105 []) (live), by decide +kernel, rfl⟩,
   ⟨cm 0x106 [(4, 0xFFFF), (5, 0x80000)], opf (cm 0x106 [(4, 0xFFFF), (5, 0x80000)]) 4 15 0, live, noteCmd (cm 0x106 [(4, 0xFFFF),
     (5, 0x80000)]) (live), rfl, by decide +kernel, rfl, by decide +kernel⟩,
   ⟨cm 0x106 [(5, 0x80000)], opf (cm 0x106 [(5, 0x80000)]) 4 15 0, { live with act := { mcast := [(0, { members := [{}] })] } },
     noteCmd (cm 0x106 [(5, 0x80000)]) ({ live with act := { mcast := [(0, { members := [{}] })] } }), rfl, by decide +kernel, rfl,
     by decide +kernel⟩,
   ⟨cm 0x107 [], opf (cm 0x107 []) 4 15 0, { live with act := { mcast := [(0, { members := [{}] })] } }, noteCmd (cm 0x107 [])
     ({ live with act := { mcast := [(0, { members := [{}] })] } }), rfl, by decide +kernel, rfl, by decide +kernel⟩,
   ⟨cm 0x108 [(6, 10240)], live, noteCmd (cm 0x108 [(6, 10240)]) (live), by decide +kernel, rfl⟩,
   ⟨cm 0x106 [(5, 0x80001)], opf (cm 0x106 [(5, 0x80001)]) 4 15 0,
     { live with act := { mcast := [(0, { members := List.replicate 528 {} })] } }, noteCmd (cm 0x106 [(5, 0x80001)])
     ({ live with act := { mcast := [(0, { members := List.replicate 528 {} })] } }), rfl, by decide +kernel, rfl,
     by decide +kernel⟩,
   ⟨cm 0x107 [], opf (cm 0x107 []) 4 15 0, live, noteCmd (cm 0x107 []) (live), rfl, by decide +kernel, rfl, by decide +kernel⟩⟩

theorem witness_SchedulerCommandsComplete :
  (∃ (c : Cmd) (l : Nat) (n : Nat) (s : State) (u : State), l = schLevel c ∧ n = schNum c ∧ Runs c 0x141 .any (nodeChecks c s l n
    (l = 0 || opf c 6 15 8 = 0)) s ∧ u = noteCmd c s) ∧
  (∃ (c : Cmd) (l : Nat) (n : Nat) (s : State) (u : State), l = schLevel c ∧ n = schNum c ∧ Runs c 0x142 .any (nodeChecks c s l n
    (l = 0 || 800000 < opf c 6 19 0 || 800000 < opf c 8 19 0)) s ∧ u = noteCmd c s) ∧
  (∃ (c : Cmd) (n : Nat) (s : State) (u : State), n = schNum c ∧ Runs c 0x143 .any (nodeChecks c s 3 n false) s ∧ u = noteCmd c s) ∧
  (∃ (c : Cmd) (l : Nat) (n : Nat) (s : State) (u : State), l = schLevel c ∧ n = schNum c ∧ Runs c 0x144 .any (nodeChecks c s l n
    false) s ∧ u = noteCmd c s) ∧
  (∃ (c : Cmd) (i : Nat) (s : State) (u : State), i = opf c 4 15 0 ∧ Runs c 0x145 .any [(frerBad i (opFrer c), stBAD_OPERAND),
    (!ownsPart s c.req 65536 i || !ownsBinding s c.req (opFrer c), stNO_PERMISSION), (tileDown s (i / 8192), stFENCED_UNIT)] s ∧ u =
    noteCmd c s) ∧
  (∃ (c : Cmd) (i : Nat) (s : State) (u : State), i = opf c 4 15 0 ∧ Runs c 0x146 .any [(!ownsPart s c.req 65536 i,
    stNO_PERMISSION), (tileDown s (i / 8192), stFENCED_UNIT)] s ∧ u = noteCmd c s) ∧
  (∃ (c : Cmd) (i : Nat) (s : State) (u : State), i = opf c 4 17 0 ∧ Runs c 0x181 .any (partChecks c s (polBad (opPol c)) 262144
    i) s ∧ u = noteCmd c s) ∧
  (∃ (c : Cmd) (i : Nat) (t : Nat) (s : State) (u : State), i = opf c 4 17 0 ∧ t = opf c 4 22 20 ∧ Runs c 0x182 .any [(!ownsPart s
    c.req 262144 i, stNO_PERMISSION), (tileDown s t, stFENCED_UNIT)] s ∧ u = noteCmd c s) :=
  ⟨⟨cm 0x141 [(4, 3), (5, 0xFFFFF), (6, 0x100)], schLevel (cm 0x141 [(4, 3), (5, 0xFFFFF), (6, 0x100)]), schNum (cm 0x141 [(4, 3),
     (5, 0xFFFFF), (6, 0x100)]), live, noteCmd (cm 0x141 [(4, 3), (5, 0xFFFFF), (6, 0x100)]) (live), rfl, rfl, by decide +kernel,
     rfl⟩,
   ⟨cm 0x142 [(4, 1), (6, 800000)], schLevel (cm 0x142 [(4, 1), (6, 800000)]), schNum (cm 0x142 [(4, 1), (6, 800000)]), live,
     noteCmd (cm 0x142 [(4, 1), (6, 800000)]) (live), rfl, rfl, by decide +kernel, rfl⟩,
   ⟨cm 0x143 [], schNum (cm 0x143 []), live, noteCmd (cm 0x143 []) (live), rfl, by decide +kernel, rfl⟩,
   ⟨cm 0x144 [], schLevel (cm 0x144 []), schNum (cm 0x144 []), live, noteCmd (cm 0x144 []) (live), rfl, rfl, by decide +kernel,
     rfl⟩,
   ⟨cm 0x145 [(4, 0xFFFF)], opf (cm 0x145 [(4, 0xFFFF)]) 4 15 0, live, noteCmd (cm 0x145 [(4, 0xFFFF)]) (live), rfl,
     by decide +kernel, rfl⟩,
   ⟨cm 0x146 [], opf (cm 0x146 []) 4 15 0, live, noteCmd (cm 0x146 []) (live), rfl, by decide +kernel, rfl⟩,
   ⟨cm 0x181 [], opf (cm 0x181 []) 4 17 0, live, noteCmd (cm 0x181 []) (live), rfl, by decide +kernel, rfl⟩,
   ⟨cm 0x182 [], opf (cm 0x182 []) 4 17 0, opf (cm 0x182 []) 4 22 20, live, noteCmd (cm 0x182 []) (live), rfl, rfl,
     by decide +kernel, rfl⟩⟩

theorem witness_GateAndTimerCommandsComplete :
  (∃ (c : Cmd) (p : Nat) (s : State) (u : State), p = opf c 4 9 0 ∧ Runs c 0x1C1 .any (gateChecks c s (gwBad c 256 portEntry) ++
    [gateBusy s (gateOf s p)]) s ∧ u = noteCmd c s) ∧
  (∃ (c : Cmd) (g : Nat) (s : State) (u : State), g = opf c 4 9 0 ∧ Runs c 0x1C2 .any (partChecks c s (gwBad c 16 sgEntry) 1024 g
    ++ [gateBusy s (sgateOf s g)]) s ∧ u = noteCmd c s) ∧
  (∃ (c : Cmd) (p : Nat) (s : State) (u : State), p = opf c 4 9 0 ∧ Runs c 0x1C3 .any (gateChecks c s (gcBad c 256) ++ [gateBusy s
    (gateOf s p), (timePassed s (opTime c 10), stTIME_PASSED)]) s ∧ u = noteCmd c s) ∧
  (∃ (c : Cmd) (g : Nat) (s : State) (u : State), g = opf c 4 9 0 ∧ Runs c 0x1C4 .any (partChecks c s (gcBad c 16) 1024 g ++
    [gateBusy s (sgateOf s g), (timePassed s (opTime c 10), stTIME_PASSED)]) s ∧ u = noteCmd c s) ∧
  (∃ (c : Cmd) (p : Nat) (s : State) (u : State), p = opf c 4 9 0 ∧ opb c 4 31 = false ∧ Runs c 0x1C5 .any (gateChecks c s false)
    s ∧ u = noteCmd c s) ∧
  (∃ (c : Cmd) (g : Nat) (s : State) (u : State), g = opf c 4 9 0 ∧ opb c 4 31 = true ∧ Runs c 0x1C5 .any (partChecks c s (16 ≤
    opf c 5 15 8) 1024 g) s ∧ u = noteCmd c s) ∧
  (∃ (c : Cmd) (k : Nat) (s : State) (u : State), k = opf c 4 3 0 ∧ opb c 4 4 = false ∧ Runs c 0x201 .any [(!timeOk (opTime c 5),
    stBAD_OPERAND), (timePassed s (opTime c 5), stTIME_PASSED)] s ∧ u = noteCmd c s) ∧
  (∃ (c : Cmd) (k : Nat) (s : State) (u : State), k = opf c 4 3 0 ∧ opb c 4 4 = true ∧ Runs c 0x201 .any [] s ∧ u = noteCmd c s ∧
    (timer u c.req k).on = true) ∧
  (∃ (c : Cmd) (s : State) (u : State), Runs c 0x202 .manager [(8 < opf c 4 7 4 || 15625 ≤ opf c 5 13 0, stBAD_OPERAND), (tileDown
    s (opf c 4 2 0), stFENCED_UNIT)] s ∧ u = noteCmd c s) ∧
  (∃ (c : Cmd) (k : Nat) (s : State) (u : State), k = opf c 4 3 0 ∧ opb c 4 4 = true ∧ Runs c 0x201 .any [] s ∧ u = noteCmd c s ∧
    (timer u c.req k).on = false) :=
  ⟨⟨cm 0x1C1 [(5, 0x1FF), (6, 0x3E800)], opf (cm 0x1C1 [(5, 0x1FF), (6, 0x3E800)]) 4 9 0, live, noteCmd (cm 0x1C1 [(5, 0x1FF), (6,
     0x3E800)]) (live), rfl, by decide +kernel, rfl⟩,
   ⟨cm 0x1C2 [(4, 1023), (5, 0x10F), (6, 0x3E800)], opf (cm 0x1C2 [(4, 1023), (5, 0x10F), (6, 0x3E800)]) 4 9 0, live, noteCmd (cm
     0x1C2 [(4, 1023), (5, 0x10F), (6, 0x3E800)]) (live), rfl, by decide +kernel, rfl⟩,
   ⟨cm 0x1C3 [(5, 256), (9, 1000000000)], opf (cm 0x1C3 [(5, 256), (9, 1000000000)]) 4 9 0, live, noteCmd (cm 0x1C3 [(5, 256), (9,
     1000000000)]) (live), rfl, by decide +kernel, rfl⟩,
   ⟨cm 0x1C4 [(4, 1023), (5, 16), (9, 1000)], opf (cm 0x1C4 [(4, 1023), (5, 16), (9, 1000)]) 4 9 0, live, noteCmd (cm 0x1C4 [(4,
     1023), (5, 16), (9, 1000)]) (live), rfl, by decide +kernel, rfl⟩,
   ⟨cm 0x1C5 [], opf (cm 0x1C5 []) 4 9 0, live, noteCmd (cm 0x1C5 []) (live), rfl, by decide +kernel, by decide +kernel, rfl⟩,
   ⟨cm 0x1C5 [(4, 0x80000000)], opf (cm 0x1C5 [(4, 0x80000000)]) 4 9 0, live, noteCmd (cm 0x1C5 [(4, 0x80000000)]) (live), rfl,
     by decide +kernel, by decide +kernel, rfl⟩,
   ⟨cm 0x201 [], opf (cm 0x201 []) 4 3 0, live, noteCmd (cm 0x201 []) (live), rfl, by decide +kernel, by decide +kernel, rfl⟩,
   ⟨cm 0x201 [(4, 16)], opf (cm 0x201 [(4, 16)]) 4 3 0, { live with hif := { live.hif with timers := [(256, { on := true })] } },
     noteCmd (cm 0x201 [(4, 16)]) ({ live with hif := { live.hif with timers := [(256, { on := true })] } }), rfl,
     by decide +kernel, by decide +kernel, rfl, by decide +kernel⟩,
   ⟨cm 0x202 [], live, noteCmd (cm 0x202 []) (live), by decide +kernel, rfl⟩,
   ⟨cm 0x201 [(4, 31)], opf (cm 0x201 [(4, 31)]) 4 3 0, live, noteCmd (cm 0x201 [(4, 31)]) (live), rfl, by decide +kernel,
     by decide +kernel, rfl, by decide +kernel⟩⟩

theorem witness_CounterAndMemoryCommandsComplete :
  (∃ (c : Cmd) (s : State) (u : State), Runs c 0x241 .any [] s ∧ u = noteCmd c s) ∧
  (∃ (c : Cmd) (s : State) (u : State), Runs c 0x242 .any (cntRdChecks c s) s ∧ u = noteCmd c s) ∧
  (∃ (c : Cmd) (s : State) (u : State), Runs c 0x243 .any [((setShape (cntSet c)).isNone || !dumpCursorOk c || !dumpRingOk s c.req
    (dumpRing c), stBAD_OPERAND), (!readsSet c.req (cntSet c), stNO_PERMISSION)] s ∧ u = noteCmd c s ∧ iterating c s = false ∧
    iterating c u = false) ∧
  (∃ (c : Cmd) (s : State) (u : State), Runs c 0x244 .manager [((setShape (cntSet c)).isNone || 1000 < opf c 5 9 0,
    stBAD_OPERAND)] s ∧ u = noteCmd c s ∧ opf c 5 9 0 ≠ 0) ∧
  (∃ (c : Cmd) (t : Nat) (k : Nat) (s : State) (u : State), t = opf c 4 6 4 ∧ k = opf c 4 1 0 ∧ Runs c 0x283 .any [(tileDown s t,
    stFENCED_UNIT)] s ∧ u = noteCmd c s ∧ exhausted u t k (reqUser c.req) = false) ∧
  (∃ (c : Cmd) (t : Nat) (k : Nat) (s : State) (u : State), t = opf c 4 6 4 ∧ k = opf c 4 1 0 ∧ Runs c 0x283 .any [(tileDown s t,
    stFENCED_UNIT)] s ∧ u = noteCmd c s ∧ exhausted u t k (reqUser c.req) = true) ∧
  (∃ (c : Cmd) (h : Nat) (s : State) (u : State), h = (opw c 5).toNat ∧ Runs c 0x284 .any [(!handleOk s h, stBAD_OPERAND),
    (tileDown s (handleTile h), stFENCED_UNIT)] s ∧ u = noteCmd c s ∧ (buf u h).alloc = true ∧ (buf u h).tag = ringTag c.req c.ring) ∧
  (∃ (c : Cmd) (s : State) (u : State), memWaits c s = false ∧ Runs c 0x281 .any (memChecks c s) s ∧ u = noteCmd c s) ∧
  (∃ (c : Cmd), memDram c = false) ∧
  (∃ (c : Cmd) (s : State) (u : State), memWaits c s = false ∧ memDram c = false ∧ Runs c 0x282 .any (memChecks c s) s ∧ u =
    noteCmd c s) ∧
  (∃ (c : Cmd) (s : State) (u : State), memWaits c s = false ∧ memDram c = true ∧ Runs c 0x282 .any (memChecks c s) s ∧ u =
    noteCmd c s) ∧
  (∃ (c : Cmd) (s : State) (u : State), Runs c 0x285 .manager (migChecks c s) s ∧ u = noteCmd c s ∧ iterating c u = false ∧
    spareFree (channel u (migCh c)) = true) ∧
  (∃ (c : Cmd) (s : State) (u : State), Runs c 0x286 .manager [(tileDown s (migCh c / 8), stFENCED_UNIT)] s ∧ u = noteCmd c s) ∧
  (∃ (c : Cmd) (o : Nat) (s : State) (u : State), o = (opw c 5).toNat ∧ Runs c 0x287 .manager [(o % 32 ≠ 0 || 16777216 ≤ o,
    stBAD_OPERAND)] s ∧ u = noteCmd c s) ∧
  (∃ (c : Cmd) (s : State) (u : State), Runs c 0x244 .manager [((setShape (cntSet c)).isNone || 1000 < opf c 5 9 0,
    stBAD_OPERAND)] s ∧ u = noteCmd c s ∧ opf c 5 9 0 = 0) ∧
  (∃ (c : Cmd) (h : Nat) (s : State) (u : State), h = (opw c 5).toNat ∧ Runs c 0x284 .any [(!handleOk s h, stBAD_OPERAND),
    (tileDown s (handleTile h), stFENCED_UNIT)] s ∧ u = noteCmd c s ∧ (buf u h).alloc = false) ∧
  (∃ (c : Cmd) (h : Nat) (s : State) (u : State), h = (opw c 5).toNat ∧ Runs c 0x284 .any [(!handleOk s h, stBAD_OPERAND),
    (tileDown s (handleTile h), stFENCED_UNIT)] s ∧ u = noteCmd c s ∧ (buf u h).alloc = true ∧ (buf u h).tag ≠ ringTag c.req c.ring) :=
  ⟨⟨cm 0x241 [], live, noteCmd (cm 0x241 []) (live), by decide +kernel, rfl⟩,
   ⟨cm 0x242 [(4, 0x14), (5, 4194300), (6, 4)], live, noteCmd (cm 0x242 [(4, 0x14), (5, 4194300), (6, 4)]) (live),
     by decide +kernel, rfl⟩,
   ⟨cm 0x243 [(2, 0xFFFFFFFF), (3, 0xFFFFFFFF), (5, 9)], setRing 16 9 (fun g => { g with ex := true, kind := 6, log2 := 10 })
     live, noteCmd (cm 0x243 [(2, 0xFFFFFFFF), (3, 0xFFFFFFFF), (5, 9)]) (setRing 16 9 (fun g =>
     { g with ex := true, kind := 6, log2 := 10 }) live), by decide +kernel, rfl, by decide +kernel⟩,
   ⟨cm 0x244 [(5, 1000)], live, noteCmd (cm 0x244 [(5, 1000)]) (live), by decide +kernel, rfl, by decide +kernel⟩,
   ⟨cm 0x283 [], opf (cm 0x283 []) 4 6 4, opf (cm 0x283 []) 4 1 0, rset .bufPoolCfg 0 0 15 0 1 live, noteCmd (cm 0x283 []) (rset
     .bufPoolCfg 0 0 15 0 1 live), rfl, rfl, by decide +kernel, rfl, by decide +kernel⟩,
   ⟨cm 0x283 [], opf (cm 0x283 []) 4 6 4, opf (cm 0x283 []) 4 1 0, live, noteCmd (cm 0x283 []) (live), rfl, rfl,
     by decide +kernel, rfl, by decide +kernel⟩,
   ⟨cm 0x284 [], (opw (cm 0x284 []) 5).toNat, setBuf 0 (fun _ => { alloc := true, count := 1, tag := 16384 }) (rset .bufPoolCfg 0
     0 15 0 1 live), noteCmd (cm 0x284 []) (setBuf 0 (fun _ => { alloc := true, count := 1, tag := 16384 }) (rset .bufPoolCfg 0 0 15
     0 1 live)), rfl, by decide +kernel, rfl, by decide +kernel⟩,
   ⟨cm 0x281 [(4, 1), (5, 67108863), (6, 0x2000E0)], live, noteCmd (cm 0x281 [(4, 1), (5, 67108863), (6, 0x2000E0)]) (live),
     by decide +kernel, by decide +kernel, rfl⟩,
   ⟨cm 0x281 [(5, 0), (6, 0x2000E0)], by decide +kernel⟩,
   ⟨cm 0x282 [(5, 0), (6, 0x2000E0)], rset .bufPoolCfg 0 0 15 0 1 live, noteCmd (cm 0x282 [(5, 0), (6, 0x2000E0)]) (rset
     .bufPoolCfg 0 0 15 0 1 live), by decide +kernel, by decide +kernel, by decide +kernel, rfl⟩,
   ⟨cm 0x282 [(4, 1), (5, 67108863), (6, 0x2000E0)], live, noteCmd (cm 0x282 [(4, 1), (5, 67108863), (6, 0x2000E0)]) (live),
     by decide +kernel, by decide +kernel, by decide +kernel, rfl⟩,
   ⟨cm 0x285 [(2, 0xFFFFFFFF), (3, 0xFFFFFFFF)], live, noteCmd (cm 0x285 [(2, 0xFFFFFFFF), (3, 0xFFFFFFFF)]) (live),
     by decide +kernel, rfl, by decide +kernel⟩,
   ⟨cm 0x286 [], live, noteCmd (cm 0x286 []) (live), by decide +kernel, rfl⟩,
   ⟨cm 0x287 [(5, 0xFFFFE0)], (opw (cm 0x287 [(5, 0xFFFFE0)]) 5).toNat, live, noteCmd (cm 0x287 [(5, 0xFFFFE0)]) (live), rfl,
     by decide +kernel, rfl⟩,
   ⟨cm 0x244 [], live, noteCmd (cm 0x244 []) (live), by decide +kernel, rfl, by decide +kernel⟩,
   ⟨cm 0x284 [], (opw (cm 0x284 []) 5).toNat, rset .bufPoolCfg 0 0 15 0 1 live, noteCmd (cm 0x284 []) (rset .bufPoolCfg 0 0 15 0 1
     live), rfl, by decide +kernel, rfl, by decide +kernel⟩,
   ⟨cm 0x284 [], (opw (cm 0x284 []) 5).toNat, setBuf 0 (fun _ => { alloc := true, count := 1, tag := 7 }) (rset .bufPoolCfg 0 0 15
     0 1 live), noteCmd (cm 0x284 []) (setBuf 0 (fun _ => { alloc := true, count := 1, tag := 7 }) (rset .bufPoolCfg 0 0 15 0 1
     live)), rfl, by decide +kernel, rfl, by decide +kernel⟩⟩

theorem witness_PortAndFabricCommandsComplete :
  (∃ (c : Cmd) (s : State) (u : State), Runs c 0x2C1 .manager [(!modeOk (opf c 5 3 0) (opf c 5 5 4), stBAD_OPERAND), (groupOut s
    (opf c 4 5 0), stFENCED_UNIT)] s ∧ u = noteCmd c s) ∧
  (∃ (c : Cmd) (kek : Nat) (s : State) (u : State), kek = opf c 9 5 0 ∧ Runs c 0x2C2 .any [(saBadPort c s || (c.req = mgr &&
    !kekSlot s kek) || (!opb c 4 16 && (opw c 8).toNat ≠ 0), stBAD_OPERAND), (!ownsPort s c.req (saPort c) || !mayUnwrap s c.req
    kek, stNO_PERMISSION), (portOutOfService s (saPort c) || secAlarmed s, stFENCED_UNIT)] s ∧ u = secClaim (secId c.req) (noteCmd c
    s) ∧ u.sec.running = some { holder := secId c.req } ∧ (tget u.sas (saOf c)).isSome = false) ∧
  (∃ (c : Cmd) (s : State) (u : State), Runs c 0x2C3 .any (saChecks c s) s ∧ u = noteCmd c s ∧ (tget u.sas (saOf c)).isSome =
    true) ∧
  (∃ (c : Cmd) (s : State) (u : State), Runs c 0x2C4 .any (saChecks c s) s ∧ u = noteCmd c s ∧ (tget u.sas (saKey (saPort c) 0 0
    (saAn c))).isSome = true) ∧
  (∃ (c : Cmd) (s : State) (u : State), Runs c 0x2C5 .any (cmisChecks c s) s ∧ u = noteCmd c s ∧ (cage u (opf c 4 5 0)).present =
    true ∧ c.wrOk = true) ∧
  (∃ (c : Cmd) (s : State) (u : State), Runs c 0x2C5 .any (cmisChecks c s) s ∧ u = noteCmd c s ∧ (cage u (opf c 4 5 0)).present =
    false) ∧
  (∃ (c : Cmd) (bs : List Byte) (s : State) (u : State), Runs c 0x2C6 .any ((cmisChecks c s).take 2 ++ [(ownedControl c,
    stNO_PERMISSION)] ++ (cmisChecks c s).drop 2) s ∧ u = noteCmd c s ∧ c.data = some bs ∧ (cage u (opf c 4 5 0)).present = true) ∧
  (∃ (c : Cmd) (p : Nat) (h : Hello) (s : State) (u : State), p = opf c 4 9 0 ∧ Runs c 0x401 .manager [(!isFabric s p,
    stBAD_OPERAND), (portOut s p, stFENCED_UNIT)] s ∧ u = noteCmd c s ∧ (adjOf u p).state = 4 ∧ (adjOf u p).last = some h ∧ h.serial
    = opBits c 5 2) ∧
  (∃ (c : Cmd) (p : Nat) (s : State) (u : State), p = opf c 4 9 0 ∧ Runs c 0x402 .manager [(512 ≤ p, stBAD_OPERAND), (portOut s p,
    stFENCED_UNIT)] s ∧ u = noteCmd c s ∧ (adjOf u p).admitted.isSome = true) ∧
  (∃ (c : Cmd) (p : Nat) (s : State) (u : State), p = opf c 4 9 0 ∧ Runs c 0x403 .manager [(!isFabric s p, stBAD_OPERAND),
    (portOut s p, stFENCED_UNIT)] s ∧ u = noteCmd c s) ∧
  (∃ (c : Cmd) (kek : Nat) (s : State) (u : State), kek = opf c 9 5 0 ∧ Runs c 0x2C2 .any [(saBadPort c s || (c.req = mgr &&
    !kekSlot s kek) || (!opb c 4 16 && (opw c 8).toNat ≠ 0), stBAD_OPERAND), (!ownsPort s c.req (saPort c) || !mayUnwrap s c.req
    kek, stNO_PERMISSION), (portOutOfService s (saPort c) || secAlarmed s, stFENCED_UNIT)] s ∧ u = secClaim (secId c.req) (noteCmd c
    s) ∧ u.sec.running ≠ some { holder := secId c.req }) ∧
  (∃ (c : Cmd) (s : State) (u : State), Runs c 0x2C3 .any (saChecks c s) s ∧ u = noteCmd c s ∧ (tget u.sas (saOf c)).isSome =
    false) ∧
  (∃ (c : Cmd) (s : State) (u : State), Runs c 0x2C4 .any (saChecks c s) s ∧ u = noteCmd c s ∧ (tget u.sas (saKey (saPort c) 0 0
    (saAn c))).isSome = false) ∧
  (∃ (c : Cmd) (p : Nat) (s : State) (u : State), p = opf c 4 9 0 ∧ Runs c 0x401 .manager [(!isFabric s p, stBAD_OPERAND),
    (portOut s p, stFENCED_UNIT)] s ∧ u = noteCmd c s ∧ (adjOf u p).state ≠ 4) ∧
  (∃ (c : Cmd) (p : Nat) (s : State) (u : State), p = opf c 4 9 0 ∧ Runs c 0x402 .manager [(512 ≤ p, stBAD_OPERAND), (portOut s p,
    stFENCED_UNIT)] s ∧ u = noteCmd c s ∧ (adjOf u p).admitted = none) :=
  ⟨⟨cm 0x2C1 [], live, noteCmd (cm 0x2C1 []) (live), by decide +kernel, rfl⟩,
   ⟨cm 0x2C2 [], opf (cm 0x2C2 []) 9 5 0, live, secClaim (secId (cm 0x2C2 []).req) (noteCmd (cm 0x2C2 []) (live)), rfl,
     by decide +kernel, rfl, by decide +kernel⟩,
   ⟨cm 0x2C3 [], { live with sas := [(0, some {})] }, noteCmd (cm 0x2C3 []) ({ live with sas := [(0, some {})] }),
     by decide +kernel, rfl, by decide +kernel⟩,
   ⟨cm 0x2C4 [], { live with sas := [(0, some {})] }, noteCmd (cm 0x2C4 []) ({ live with sas := [(0, some {})] }),
     by decide +kernel, rfl, by decide +kernel⟩,
   ⟨cm 0x2C5 [(4, 63), (5, 0x800000), (6, 128)],
     { live with opt := { bytes := [1, 0, 20, 0, 0, 0, 255, 2, 64, 0] }, cages := [(63, { present := true })] }, noteCmd (cm 0x2C5
     [(4, 63), (5, 0x800000), (6, 128)])
     ({ live with opt := { bytes := [1, 0, 20, 0, 0, 0, 255, 2, 64, 0] }, cages := [(63, { present := true })] }),
     by decide +kernel, rfl, by decide +kernel⟩,
   ⟨cm 0x2C5 [(4, 63), (5, 0x800000), (6, 128)], { live with opt := { bytes := [1, 0, 20, 0, 0, 0, 255, 2, 64, 0] } }, noteCmd (cm
     0x2C5 [(4, 63), (5, 0x800000), (6, 128)]) ({ live with opt := { bytes := [1, 0, 20, 0, 0, 0, 255, 2, 64, 0] } }),
     by decide +kernel, rfl, by decide +kernel⟩,
   ⟨cm 0x2C6 [(4, 63), (5, 0x800000), (6, 128)], ((cm 0x2C6 [(4, 63), (5, 0x800000), (6, 128)]).data).getD default,
     { live with opt := { bytes := [1, 0, 20, 0, 0, 0, 255, 2, 64, 0] }, cages := [(63, { present := true })] }, noteCmd (cm 0x2C6
     [(4, 63), (5, 0x800000), (6, 128)])
     ({ live with opt := { bytes := [1, 0, 20, 0, 0, 0, 255, 2, 64, 0] }, cages := [(63, { present := true })] }),
     by decide +kernel, rfl, by decide +kernel⟩,
   ⟨cm 0x401 [(4, 1), (5, 9)], opf (cm 0x401 [(4, 1), (5, 9)]) 4 9 0, { serial := 9 },
     { live with cfb := { adj := [(1, { state := 4, last := some { serial := 9 } })] } }, noteCmd (cm 0x401 [(4, 1), (5, 9)])
     ({ live with cfb := { adj := [(1, { state := 4, last := some { serial := 9 } })] } }), rfl, by decide +kernel, rfl,
     by decide +kernel⟩,
   ⟨cm 0x402 [], opf (cm 0x402 []) 4 9 0, { live with cfb := { adj := [(0, { admitted := some 9 })] } }, noteCmd (cm 0x402 [])
     ({ live with cfb := { adj := [(0, { admitted := some 9 })] } }), rfl, by decide +kernel, rfl, by decide +kernel⟩,
   ⟨cm 0x403 [(4, 1)], opf (cm 0x403 [(4, 1)]) 4 9 0, live, noteCmd (cm 0x403 [(4, 1)]) (live), rfl, by decide +kernel, rfl⟩,
   ⟨cm 0x2C2 [], opf (cm 0x2C2 []) 9 5 0, { live with sec := { holder := 1 } }, secClaim (secId (cm 0x2C2 []).req) (noteCmd (cm
     0x2C2 []) ({ live with sec := { holder := 1 } })), rfl, by decide +kernel, rfl, by decide +kernel⟩,
   ⟨cm 0x2C3 [], live, noteCmd (cm 0x2C3 []) (live), by decide +kernel, rfl, by decide +kernel⟩,
   ⟨cm 0x2C4 [], live, noteCmd (cm 0x2C4 []) (live), by decide +kernel, rfl, by decide +kernel⟩,
   ⟨cm 0x401 [(4, 1)], opf (cm 0x401 [(4, 1)]) 4 9 0, live, noteCmd (cm 0x401 [(4, 1)]) (live), rfl, by decide +kernel, rfl,
     by decide +kernel⟩,
   ⟨cm 0x402 [(4, 511)], opf (cm 0x402 [(4, 511)]) 4 9 0, live, noteCmd (cm 0x402 [(4, 511)]) (live), rfl, by decide +kernel, rfl,
     by decide +kernel⟩⟩

theorem witness_RingAndSliceCommandsComplete :
  (∃ (c : Cmd) (e : Nat) (s : State) (u : State), Runs c 0x301 .adminRing [(crtBad c s, stBAD_OPERAND), (opb c 4 23 && c.req ≠
    mgr, stNO_PERMISSION), ((crtHome c s).isNone, stFENCED_UNIT)] s ∧ u = noteCmd c s ∧ ringExists u c.req (crtRing c) = false ∧
    crtHome c u = some e) ∧
  (∃ (c : Cmd) (s : State) (u : State), Runs c 0x301 .adminRing [(crtBad c s, stBAD_OPERAND), (opb c 4 23 && c.req ≠ mgr,
    stNO_PERMISSION), ((crtHome c s).isNone, stFENCED_UNIT)] s ∧ u = noteCmd c s ∧ ringExists u c.req (crtRing c) = true) ∧
  (∃ (c : Cmd) (r : Nat) (s : State) (u : State), r = crtRing c ∧ Runs c 0x302 .adminRing [(r = 0, stBAD_OPERAND)] s ∧ u = noteCmd
    c s ∧ ringExists u c.req r = true ∧ ringIdle (ringSt (disableRing c.req r u) c.req r) = true) ∧
  (∃ (c : Cmd) (sl : Nat) (p : Nat) (s : State) (u : State), sl = opf c 4 3 0 ∧ p = opf c 5 19 0 ∧ Runs c 0x303 .manager
    [(!sliceOn s sl || p = 0, stBAD_OPERAND)] s ∧ u = noteCmd c s ∧ boundPasid u sl = none ∧ ((List.range 16).any (fun x =>
    boundPasid u x = some p) = false)) ∧
  (∃ (c : Cmd) (sl : Nat) (s : State) (u : State), sl = opf c 4 3 0 ∧ Runs c 0x304 .manager [(!sliceOn s sl, stBAD_OPERAND)] s ∧ u
    = noteCmd c s ∧ u.hif.slcWait.contains (sl, c) = false) ∧
  (∃ (c : Cmd) (sl : Nat) (s : State) (u : State), sl = opf c 4 3 0 ∧ Runs c 0x341 .manager [(!sliceOn s sl, stBAD_OPERAND)] s ∧ u
    = noteCmd c s ∧ u.hif.slcWait.contains (sl, c) = false) ∧
  (∃ (c : Cmd) (sl : Nat) (n : Nat) (s : State) (u : State), sl = (if c.req = mgr then opf c 4 3 0 else c.req) ∧ n = nSlices u ∧
    Runs c 0x342 .any [(!sliceOn s sl, stBAD_OPERAND)] s ∧ u = noteCmd c s) ∧
  (∃ (c : Cmd) (r : Nat) (s : State) (u : State), r = crtRing c ∧ Runs c 0x302 .adminRing [(r = 0, stBAD_OPERAND)] s ∧ u = noteCmd
    c s ∧ ringExists u c.req r = false) ∧
  (∃ (c : Cmd) (r : Nat) (s : State) (u : State), r = crtRing c ∧ Runs c 0x302 .adminRing [(r = 0, stBAD_OPERAND)] s ∧ u = noteCmd
    c s ∧ ringExists u c.req r = true ∧ ringIdle (ringSt (disableRing c.req r u) c.req r) = false) ∧
  (∃ (c : Cmd) (sl : Nat) (p : Nat) (s : State) (u : State), sl = opf c 4 3 0 ∧ p = opf c 5 19 0 ∧ Runs c 0x303 .manager
    [(!sliceOn s sl || p = 0, stBAD_OPERAND)] s ∧ u = noteCmd c s ∧ (((boundPasid u sl).isSome || (List.range 16).any (fun x =>
    boundPasid u x = some p)) = true)) :=
  ⟨⟨cm 0x301 [(4, 0x6001), (5, 0x7FF0000)], (crtHome (cm 0x301 [(4, 0x6001), (5, 0x7FF0000)]) (noteCmd (cm 0x301 [(4, 0x6001), (5,
     0x7FF0000)]) (live))).getD default, live, noteCmd (cm 0x301 [(4, 0x6001), (5, 0x7FF0000)]) (live), by decide +kernel, rfl,
     by decide +kernel⟩,
   ⟨cm 0x301 [(4, 0x6001), (5, 0x7FF0000)], setRing 16 1 (fun g => { g with ex := true }) live, noteCmd (cm 0x301 [(4, 0x6001),
     (5, 0x7FF0000)]) (setRing 16 1 (fun g => { g with ex := true }) live), by decide +kernel, rfl, by decide +kernel⟩,
   ⟨cm 0x302 [(4, 255)], crtRing (cm 0x302 [(4, 255)]), setRing 16 255 (fun g => { g with ex := true }) live, noteCmd (cm 0x302
     [(4, 255)]) (setRing 16 255 (fun g => { g with ex := true }) live), rfl, by decide +kernel, rfl, by decide +kernel⟩,
   ⟨cm 0x303 [(5, 0xFFFFF)], opf (cm 0x303 [(5, 0xFFFFF)]) 4 3 0, opf (cm 0x303 [(5, 0xFFFFF)]) 5 19 0, live, noteCmd (cm 0x303
     [(5, 0xFFFFF)]) (live), rfl, rfl, by decide +kernel, rfl, by decide +kernel⟩,
   ⟨cm 0x304 [], opf (cm 0x304 []) 4 3 0, live, noteCmd (cm 0x304 []) (live), rfl, by decide +kernel, rfl, by decide +kernel⟩,
   ⟨cm 0x341 [], opf (cm 0x341 []) 4 3 0, live, noteCmd (cm 0x341 []) (live), rfl, by decide +kernel, rfl, by decide +kernel⟩,
   ⟨cm 0x342 [], (if (cm 0x342 []).req = mgr then opf (cm 0x342 []) 4 3 0 else (cm 0x342 []).req), nSlices (noteCmd (cm 0x342 [])
     (live)), live, noteCmd (cm 0x342 []) (live), rfl, rfl, by decide +kernel, rfl⟩,
   ⟨cm 0x302 [(4, 1)], crtRing (cm 0x302 [(4, 1)]), live, noteCmd (cm 0x302 [(4, 1)]) (live), rfl, by decide +kernel, rfl,
     by decide +kernel⟩,
   ⟨cm 0x302 [(4, 255)], crtRing (cm 0x302 [(4, 255)]), setRing 16 255 (fun g => { g with ex := true, iter := some {} }) live,
     noteCmd (cm 0x302 [(4, 255)]) (setRing 16 255 (fun g => { g with ex := true, iter := some {} }) live), rfl, by decide +kernel,
     rfl, by decide +kernel⟩,
   ⟨cm 0x303 [(5, 7)], opf (cm 0x303 [(5, 7)]) 4 3 0, opf (cm 0x303 [(5, 7)]) 5 19 0, rput .hifBind 0 0 0x80000007 live, noteCmd
     (cm 0x303 [(5, 7)]) (rput .hifBind 0 0 0x80000007 live), rfl, rfl, by decide +kernel, rfl, by decide +kernel⟩⟩

theorem witness_ImageAndSystemCommandsComplete :
  (∃ (c : Cmd) (bs : List Byte) (s : State) (u : State), Runs c 0x381 .manager [((opw c 6).toNat < minImage || slotSize < (opw c
    6).toNat, stBAD_OPERAND), (commitPending s, stLOCK_BUSY)] s ∧ u = noteCmd c s ∧ c.cut = none ∧ c.data = some bs) ∧
  (∃ (c : Cmd) (i : Image) (s : State) (u : State), Runs c 0x382 .manager [(!timeOk (opTime c 4) || (opTime c 4).toNs % 16000 ≠ 0,
    stBAD_OPERAND), (commitPending s || gatePending s, stLOCK_BUSY), (timePassed s (opTime c 4), stTIME_PASSED)] s ∧ u = noteCmd c s
    ∧ stagedImage u = some i ∧ i.bootDigest = (img u).bootDigest) ∧
  (∃ (c : Cmd) (s : State) (u : State), Runs c 0x383 .manager [] s ∧ u = noteCmd c s ∧ commitPending u = true ∧ inThisCycle u =
    false) ∧
  (∃ (c : Cmd) (s : State) (u : State), Runs c 0x384 .manager [(commitPending s, stLOCK_BUSY)] s ∧ u = noteCmd c s) ∧
  (∃ (c : Cmd) (r : Nat) (s : State) (u : State), Runs c 0x385 .manager [] s ∧ u = noteCmd c s ∧ c.wrOk = true ∧ r = slotReason u
    (imgIn u (opb c 4 0))) ∧
  (∃ (c : Cmd) (bs : List Byte) (cert : Option (Option Nat)) (s : State) (u : State), Runs c 0x386 .manager [] s ∧ u = noteCmd c s
    ∧ c.data = some bs ∧ cert.any (certOk u) = true) ∧
  (∃ (c : Cmd) (s : State) (u : State), Runs c 0x441 .any [] s ∧ u = noteCmd c s) ∧
  (∃ (c : Cmd) (s : State) (u : State), Runs c 0x442 .any [(opb c 4 0 && c.req ≠ mgr, stNO_PERMISSION)] s ∧ u = noteCmd c s ∧
    fenceClear c u = true) ∧
  (∃ (c : Cmd) (s : State) (u : State), Runs c 0x442 .any [(opb c 4 0 && c.req ≠ mgr, stNO_PERMISSION)] s ∧ u = noteCmd c s ∧
    fenceClear c u = false) ∧
  (∃ (c : Cmd) (s : State) (u : State), Runs c 0x443 .manager [(stage s = 0x80 && 2 ≤ opf c 4 2 0, stFENCED_UNIT), (!targetOk s
    (opf c 4 2 0) (opf c 5 9 0), stBAD_OPERAND)] s ∧ u = noteCmd c s ∧ opf c 4 2 0 ≤ 1) ∧
  (∃ (c : Cmd) (s : State) (u : State), Runs c 0x443 .manager [(stage s = 0x80 && 2 ≤ opf c 4 2 0, stFENCED_UNIT), (!targetOk s
    (opf c 4 2 0) (opf c 5 9 0), stBAD_OPERAND)] s ∧ u = noteCmd c s ∧ (opf c 4 2 0 = 2 ∨ opf c 4 2 0 = 4)) ∧
  (∃ (c : Cmd) (bs : List Byte) (s : State) (u : State), Runs c 0x444 .manager [] s ∧ u = noteCmd c s ∧ c.data = some bs ∧ optOk
    bs = true) ∧
  (∃ (c : Cmd) (s : State) (u : State), Runs c 0x445 .manager [] s ∧ u = noteCmd c s ∧ c.wrOk = true) ∧
  (∃ (c : Cmd) (s : State) (u : State), c.cut = none ∧ opb c 4 0 = false ∧ Runs c 0x446 .manager [(8388608 < (opw c 8).toNat,
    stBAD_OPERAND)] s ∧ u = noteCmd c s) ∧
  (∃ (c : Cmd) (s : State) (u : State), c.cut = none ∧ opb c 4 0 = true ∧ Runs c 0x446 .manager [(stage s = 0x80, stFENCED_UNIT),
    (65536 < (opw c 8).toNat, stBAD_OPERAND)] s ∧ u = noteCmd c s) ∧
  (∃ (c : Cmd) (s : State) (u : State), Runs c 0x443 .manager [(stage s = 0x80 && 2 ≤ opf c 4 2 0, stFENCED_UNIT), (!targetOk s
    (opf c 4 2 0) (opf c 5 9 0), stBAD_OPERAND)] s ∧ u = noteCmd c s ∧ opf c 4 2 0 = 3) ∧
  (∃ (c : Cmd) (s : State) (u : State), Runs c 0x443 .manager [(stage s = 0x80 && 2 ≤ opf c 4 2 0, stFENCED_UNIT), (!targetOk s
    (opf c 4 2 0) (opf c 5 9 0), stBAD_OPERAND)] s ∧ u = noteCmd c s ∧ opf c 4 2 0 = 5 ∧ (unitReleased u (opf c 5 9 0 / 2) &&
    (engine u (opf c 5 9 0)).cmd.isSome) = false) ∧
  (∃ (c : Cmd) (s : State) (u : State), Runs c 0x443 .manager [(stage s = 0x80 && 2 ≤ opf c 4 2 0, stFENCED_UNIT), (!targetOk s
    (opf c 4 2 0) (opf c 5 9 0), stBAD_OPERAND)] s ∧ u = noteCmd c s ∧ opf c 4 2 0 = 5 ∧ (unitReleased u (opf c 5 9 0 / 2) &&
    (engine u (opf c 5 9 0)).cmd.isSome) = true) ∧
  (∃ (c : Cmd) (s : State) (u : State), Runs c 0x382 .manager [(!timeOk (opTime c 4) || (opTime c 4).toNs % 16000 ≠ 0,
    stBAD_OPERAND), (commitPending s || gatePending s, stLOCK_BUSY), (timePassed s (opTime c 4), stTIME_PASSED)] s ∧ u = noteCmd c s
    ∧ stagedImage u = none) ∧
  (∃ (c : Cmd) (bs : List Byte) (cert : Option (Option Nat)) (s : State) (u : State), Runs c 0x386 .manager [] s ∧ u = noteCmd c s
    ∧ c.data = some bs ∧ cert.any (certOk u) = false) :=
  ⟨⟨cm 0x381 [(6, 736)], ((cm 0x381 [(6, 736)]).data).getD default, live, noteCmd (cm 0x381 [(6, 736)]) (live), by decide +kernel,
     rfl, by decide +kernel⟩,
   ⟨cm 0x382 [(5, 1)], testImage, pset .pltImgStat 2 true { live with nvm := { slotB := some testImage } }, noteCmd (cm 0x382 [(5,
     1)]) (pset .pltImgStat 2 true { live with nvm := { slotB := some testImage } }), by decide +kernel, rfl, by decide +kernel⟩,
   ⟨cm 0x383 [], { live with img := { run := some testImage, shadow := some testImage, commitAt := { sec := 1 } } }, noteCmd (cm
     0x383 []) ({ live with img := { run := some testImage, shadow := some testImage, commitAt := { sec := 1 } } }),
     by decide +kernel, rfl, by decide +kernel⟩,
   ⟨cm 0x384 [], live, noteCmd (cm 0x384 []) (live), by decide +kernel, rfl⟩,
   ⟨cm 0x385 [], slotReason (noteCmd (cm 0x385 []) (live)) (imgIn (noteCmd (cm 0x385 []) (live)) (opb (cm 0x385 []) 4 0)), live,
     noteCmd (cm 0x385 []) (live), by decide +kernel, rfl, by decide +kernel, rfl⟩,
   ⟨cm 0x386 [], ((cm 0x386 []).data).getD default, some none, live, noteCmd (cm 0x386 []) (live), by decide +kernel, rfl,
     by decide +kernel⟩,
   ⟨cm 0x441 [], live, noteCmd (cm 0x441 []) (live), by decide +kernel, rfl⟩,
   ⟨cm 0x442 [], live, noteCmd (cm 0x442 []) (live), by decide +kernel, rfl, by decide +kernel⟩,
   ⟨cm 0x442 [], setRing 16 9 (fun g => { g with ex := true, bells := [(1, 3)] })
     { live with hif := { live.hif with bellCount := 4 } }, noteCmd (cm 0x442 []) (setRing 16 9 (fun g =>
     { g with ex := true, bells := [(1, 3)] }) { live with hif := { live.hif with bellCount := 4 } }), by decide +kernel, rfl,
     by decide +kernel⟩,
   ⟨cm 0x443 [(4, 1)], live, noteCmd (cm 0x443 [(4, 1)]) (live), by decide +kernel, rfl, by decide +kernel⟩,
   ⟨cm 0x443 [(4, 2), (5, 7)], live, noteCmd (cm 0x443 [(4, 2), (5, 7)]) (live), by decide +kernel, rfl, by decide +kernel⟩,
   ⟨{ cm 0x444 [] with data := some [1, 4, 20, 0, 0, 0, 255, 3, 64, 1] },
     (({ cm 0x444 [] with data := some [1, 4, 20, 0, 0, 0, 255, 3, 64, 1] }).data).getD default, live, noteCmd
     ({ cm 0x444 [] with data := some [1, 4, 20, 0, 0, 0, 255, 3, 64, 1] }) (live), by decide +kernel, rfl, by decide +kernel⟩,
   ⟨cm 0x445 [], live, noteCmd (cm 0x445 []) (live), by decide +kernel, rfl, by decide +kernel⟩,
   ⟨cm 0x446 [(8, 8388608)], live, noteCmd (cm 0x446 [(8, 8388608)]) (live), by decide +kernel, by decide +kernel,
     by decide +kernel, rfl⟩,
   ⟨cm 0x446 [(4, 1), (8, 65536)], live, noteCmd (cm 0x446 [(4, 1), (8, 65536)]) (live), by decide +kernel, by decide +kernel,
     by decide +kernel, rfl⟩,
   ⟨cm 0x443 [(4, 3)], live, noteCmd (cm 0x443 [(4, 3)]) (live), by decide +kernel, rfl, by decide +kernel⟩,
   ⟨cm 0x443 [(4, 5), (5, 15)], live, noteCmd (cm 0x443 [(4, 5), (5, 15)]) (live), by decide +kernel, rfl, by decide +kernel⟩,
   ⟨cm 0x443 [(4, 5)], setEngine 0 (fun g => { g with cmd := some (16, 7) }) live, noteCmd (cm 0x443 [(4, 5)]) (setEngine 0 (fun g
     => { g with cmd := some (16, 7) }) live), by decide +kernel, rfl, by decide +kernel⟩,
   ⟨cm 0x382 [(5, 1)], live, noteCmd (cm 0x382 [(5, 1)]) (live), by decide +kernel, rfl, by decide +kernel⟩,
   ⟨cm 0x386 [], ((cm 0x386 []).data).getD default, some (some 1), live, noteCmd (cm 0x386 []) (live), by decide +kernel, rfl,
     by decide +kernel⟩⟩

theorem witness_SecurityCommandsComplete :
  (∃ (c : Cmd) (bs : List Byte) (s : State) (u : State), Runs c 0x3C1 .manager [(opf c 4 5 0 = 0 || ((opw c 5).toNat ≠ 24 && (opw
    c 5).toNat ≠ 40) || !kekSlot s (opf c 4 13 8), stBAD_OPERAND), (secAlarmed s, stFENCED_UNIT)] s ∧ u = secClaim (secId c.req)
    (noteCmd c s) ∧ u.sec.running = some { holder := secId c.req } ∧ (secSlot u (opf c 4 13 8)).valid = true ∧ c.data = some bs) ∧
  (∃ (c : Cmd) (s : State) (u : State), Runs c 0x3C2 .manager [(opf c 4 5 0 = 0, stBAD_OPERAND), (secAlarmed s, stFENCED_UNIT)] s
    ∧ u = secClaim (secId c.req) (noteCmd c s) ∧ u.sec.running = some { holder := secId c.req } ∧ (secSlot u (opf c 4 5 0)).valid =
    true) ∧
  (∃ (c : Cmd) (s : State) (u : State), Runs c 0x3C2 .manager [(opf c 4 5 0 = 0, stBAD_OPERAND), (secAlarmed s, stFENCED_UNIT)] s
    ∧ u = secClaim (secId c.req) (noteCmd c s) ∧ u.sec.running ≠ some { holder := secId c.req }) ∧
  (∃ (c : Cmd) (bs : List Byte) (s : State) (u : State), Runs c 0x3C3 .any [(65536 < (opw c 5).toNat, stBAD_OPERAND), (!mayUse s
    c.req (opf c 4 5 0), stNO_PERMISSION), (secAlarmed s, stFENCED_UNIT)] s ∧ u = secClaim (secId c.req) (noteCmd c s) ∧
    u.sec.running = some { holder := secId c.req } ∧ (secSlot u (opf c 4 5 0)).valid = true ∧ c.data = some bs) ∧
  (∃ (c : Cmd) (bs : List Byte) (s : State) (u : State), Runs c 0x3C4 .any [((opw c 5).toNat = 0 || 65536 < (opw c 5).toNat ||
    (opw c 5).toNat % 16 ≠ 0 || opf c 4 9 8 = 3, stBAD_OPERAND), (!mayUse s c.req (opf c 4 5 0), stNO_PERMISSION), (secAlarmed s,
    stFENCED_UNIT)] s ∧ u = secClaim (secId c.req) (noteCmd c s) ∧ u.sec.running = some { holder := secId c.req } ∧ (secSlot u (opf
    c 4 5 0)).valid = true ∧ c.data = some bs ∧ c.wrOk = true) :=
  ⟨⟨cm 0x3C1 [(4, 0x001), (5, 40)], ((cm 0x3C1 [(4, 0x001), (5, 40)]).data).getD default,
     { live with sec := { slots := [(0, { valid := true })] } }, secClaim (secId (cm 0x3C1 [(4, 0x001), (5, 40)]).req) (noteCmd (cm
     0x3C1 [(4, 0x001), (5, 40)]) ({ live with sec := { slots := [(0, { valid := true })] } })), by decide +kernel, rfl,
     by decide +kernel⟩,
   ⟨cm 0x3C2 [(4, 63)], { live with sec := { slots := [(63, { valid := true })] } }, secClaim (secId (cm 0x3C2 [(4, 63)]).req)
     (noteCmd (cm 0x3C2 [(4, 63)]) ({ live with sec := { slots := [(63, { valid := true })] } })), by decide +kernel, rfl,
     by decide +kernel⟩,
   ⟨cm 0x3C2 [(4, 1)], { live with sec := { holder := 1 } }, secClaim (secId (cm 0x3C2 [(4, 1)]).req) (noteCmd (cm 0x3C2 [(4, 1)])
     ({ live with sec := { holder := 1 } })), by decide +kernel, rfl, by decide +kernel⟩,
   ⟨cm 0x3C3 [(4, 31), (5, 65536)], ((cm 0x3C3 [(4, 31), (5, 65536)]).data).getD default,
     { live with sec := { slots := [(31, { valid := true })] } }, secClaim (secId (cm 0x3C3 [(4, 31), (5, 65536)]).req) (noteCmd (cm
     0x3C3 [(4, 31), (5, 65536)]) ({ live with sec := { slots := [(31, { valid := true })] } })), by decide +kernel, rfl,
     by decide +kernel⟩,
   ⟨cm 0x3C4 [(4, 16), (5, 65536)], ((cm 0x3C4 [(4, 16), (5, 65536)]).data).getD default,
     { live with sec := { slots := [(16, { valid := true })] } }, secClaim (secId (cm 0x3C4 [(4, 16), (5, 65536)]).req) (noteCmd (cm
     0x3C4 [(4, 16), (5, 65536)]) ({ live with sec := { slots := [(16, { valid := true })] } })), by decide +kernel, rfl,
     by decide +kernel⟩⟩

theorem witness_EmptyQueueRunsOscillator :
  (∃ (s : State), s.pending = [] ∧ timeRuns s = false) ∧
  (∃ (s : State), s.pending = [] ∧ timeRuns s = true) ∧
  (∃ (s : State), s.pending = [] ∧ timeRuns s = true ∧ s.tim.slewLeft = 0 ∧ freqAdj s = 0 ∧ 0 ≤ s.tim.acc ∧ s.tim.acc < nsUnits) :=
  ⟨⟨State.reset, by decide +kernel⟩,
   ⟨live, by decide +kernel⟩,
   ⟨live, by decide +kernel⟩⟩

theorem witness_EveryCommandKeepsQueueAndIdentity :
  (∃ (c : Instr) (s : State) (t : State), exec c s = .next t) :=
  ⟨.oscWarm, live, pset .timStat 6 true live, rfl⟩

theorem witness_EveryStepKeepsStoresCanonical :
  (∃ (s : State) (t : State), s.Canonical ∧ step s = .next t) :=
  ⟨live.push .oscWarm, pset .timStat 6 true live, by decide +kernel, rfl⟩

theorem witness_EveryStepKeepsTimeLegal :
  (∃ (s : State) (t : State), s.TimeLegal ∧ step s = .next t) :=
  ⟨live.push .oscWarm, pset .timStat 6 true live, by decide +kernel, rfl⟩

theorem witness_EveryStepKeepsFifoBounded :
  (∃ (s : State) (t : State), s.FifoBounded ∧ step s = .next t) :=
  ⟨live.push .oscWarm, pset .timStat 6 true live, by decide +kernel, rfl⟩

theorem witness_RegisterOffsetsDecode :
  (∃ (r : Reg) (t : Nat) (i : Nat), t < 8 ∧ i < regCount r) ∧
  (∃ (off : Nat) (t : Nat) (i : Nat) (r : Reg), decodeBar0 off = some (r, t, i) ∧ regMirror r = false) ∧
  (∃ (t : Nat) (off : Nat), t < 8 ∧ off ≤ 0x10) ∧
  (∃ (off : Nat), 0x1800000 ≤ off - off % 4) :=
  ⟨⟨.schRqWeightHi, 7, 65, by decide +kernel⟩,
   ⟨0x13, 0, 0, .pltRstCause, by decide +kernel⟩,
   ⟨7, 0x10, by decide +kernel⟩,
   ⟨0x1800003, by decide +kernel⟩⟩

theorem witness_FieldTypesOfAWrite :
  (∃ (b : Nat), b < 32) ∧
  (∃ (s : State), s.Canonical) :=
  ⟨⟨31, by decide +kernel⟩,
   ⟨live, by decide +kernel⟩⟩

theorem witness_SliceAccessRules :
  (∃ (a : Access) (s : State), hifUp s = true ∧ inBar a = true ∧ pasidRejected s a = true) ∧
  (∃ (a : Access) (p : Nat) (sl : Nat) (s : State), a.pasid = some p ∧ ((List.range 16).find? (fun x => boundPasid s x = some p) =
    some sl)) ∧
  (∃ (a : Access) (p : Nat) (s : State), a.pasid = some p ∧ ((∀ x < 16, boundPasid s x ≠ some p))) ∧
  (∃ (a : Access) (t : Nat) (i : Nat) (r : Reg) (s : State), hifUp s = true ∧ a.bar = 0 ∧ a.off < 0x4000000 ∧ pasidRejected s a =
    false ∧ a.pasid.isSome = true ∧ decodeBar0 a.off = some (r, t, i) ∧ (regRow r).sliceVisible = false) ∧
  (∃ (a : Access) (t : Nat) (i : Nat) (r : Reg) (s : State), hifUp s = true ∧ a.bar = 0 ∧ a.off < 0x4000000 ∧ pasidRejected s a =
    false ∧ a.pasid.isSome = true ∧ decodeBar0 a.off = some (r, t, i) ∧ a.be = 15) :=
  ⟨⟨{ pasid := some 7, off := 0x10 }, live, by decide +kernel⟩,
   ⟨{ pasid := some 7, off := 0x10 }, 7, 0, rput .hifBind 0 0 0x80000007 live, by decide +kernel⟩,
   ⟨{ pasid := some 7, off := 0x10 }, 7, live, by decide +kernel⟩,
   ⟨{ pasid := some 7, off := 0x10 }, 0, 0, .pltRstCause, rput .hifBind 0 0 0x80000007 live, by decide +kernel⟩,
   ⟨{ pasid := some 7, off := 0x10 }, 0, 0, .pltRstCause, rput .hifBind 0 0 0x80000007 live, by decide +kernel⟩⟩

theorem witness_RingIndexArithmetic :
  (∃ (k : Nat) (i : Nat), 6 ≤ k ∧ k ≤ 16 ∧ RingIndex k i) ∧
  (∃ (k : Nat) (p : Nat) (c : Nat), 6 ≤ k ∧ k ≤ 16 ∧ RingIndex k p ∧ RingIndex k c) ∧
  (∃ (c : Cmd) (s : State), crtBad c s = false) :=
  ⟨⟨16, 131071, by decide +kernel⟩,
   ⟨6, 63, 65599, by decide +kernel⟩,
   ⟨cm 0x301 [(4, 0x6001), (5, 0x7FF0000)], live, by decide +kernel⟩⟩

theorem witness_DoorbellRule :
  (∃ (q : Nat) (r : Nat) (idx : Nat) (s : State), s.Canonical ∧ hifUp s = true ∧ ringExists s q r = true ∧ (ringSt s q
    r).resetting = false ∧ (ringSt s q r).kind ≤ 2 ∧ idx < 131072) ∧
  (∃ (q : Nat) (r : Nat) (idx : Nat) (s : State), hifUp s = true ∧ ringExists s q r = true ∧ (ringSt s q r).resetting = false ∧ 3
    ≤ (ringSt s q r).kind ∧ idx < 131072 ∧ idx % 65536 < 2 ^ (ringSt s q r).log2 ∧ idx ≠ (ringSt s q r).cons ∧ occupancy (ringSt s q
    r).log2 (ringSt s q r).prod idx ≤ occupancy (ringSt s q r).log2 (ringSt s q r).prod (ringSt s q r).cons) ∧
  (∃ (q : Nat) (r : Nat) (idx : Nat) (s : State), s.Canonical ∧ hifUp s = true ∧ ringExists s q r = true ∧ (ringSt s q
    r).resetting = false ∧ 3 ≤ (ringSt s q r).kind ∧ idx < 131072 ∧ (2 ^ (ringSt s q r).log2 ≤ idx % 65536 ∨ occupancy (ringSt s q
    r).log2 (ringSt s q r).prod (ringSt s q r).cons < occupancy (ringSt s q r).log2 (ringSt s q r).prod idx)) :=
  ⟨⟨16, 0, 131071, live, by decide +kernel⟩,
   ⟨16, 3, 1, setRing 16 3 (fun g => { g with ex := true, en := true, kind := 7, prod := 2 }) live, by decide +kernel⟩,
   ⟨16, 3, 64, setRing 16 3 (fun g => { g with ex := true, en := true, kind := 7, prod := 2 }) live, by decide +kernel⟩⟩

theorem witness_CompletionInPlace :
  (∃ (q : Nat) (r : Nat) (st : Nat) (desc : List Word) (ret : List (Nat × Word)) (s : State) (t : State), s.Canonical ∧ (ringSt s
    q r).kind = 0 ∧ t = completeWith q r desc st ret s) :=
  ⟨16, 0, 0, [], [], live, completeWith (16) (0) ([]) (0) ([]) (live), by decide +kernel, by decide +kernel, rfl⟩

theorem witness_FailedChecksChangeNothing :
  (∃ (c : Cmd) (s : State), serving c 0x441 s = none) ∧
  (∃ (c : Cmd) (st : Nat) (s : State), serving c 0x283 s = some (some st)) ∧
  (∃ (c : Cmd) (s : State), serving c 0x2C1 s = some none ∧ c.req ≠ mgr) ∧
  (∃ (c : Cmd) (s : State), serving c 0x301 s = some none ∧ c.ring ≠ 0) ∧
  (∃ (c : Cmd) (s : State), serving c 0x382 s = some none ∧ c.req ≠ mgr) ∧
  (∃ (c : Cmd) (s : State), serving c 0x401 s = some none ∧ c.req ≠ mgr) ∧
  (∃ (c : Cmd) (s : State), serving c 0x202 s = some none ∧ c.req ≠ mgr) ∧
  (∃ (c : Cmd) (st : Nat) (s : State), serving c 0x42 s = some none ∧ firstFail (tblChecks c s (!opb c 5 31 && 528 ≤ opf c 5 17
    0)) = some st) ∧
  (∃ (c : Cmd) (st : Nat) (s : State), serving c 0x81 s = some none ∧ firstFail (lpmChecks c s true (some (lpmLen c))) = some st) ∧
  (∃ (c : Cmd) (st : Nat) (s : State), serving c 0xC1 s = some none ∧ firstFail (tcmChecks c s false) = some st) ∧
  (∃ (c : Cmd) (st : Nat) (s : State), serving c 0x101 s = some none ∧ firstFail (partChecks c s false 262144 (opf c 4 17 0)) =
    some st) ∧
  (∃ (c : Cmd) (st : Nat) (s : State), serving c 0x141 s = some none ∧ firstFail (nodeChecks c s (schLevel c) (schNum c) (schLevel
    c = 0 || opf c 6 15 8 = 0)) = some st) ∧
  (∃ (c : Cmd) (st : Nat) (s : State), serving c 0x181 s = some none ∧ firstFail (partChecks c s (polBad (opPol c)) 262144 (opf c
    4 17 0)) = some st) ∧
  (∃ (c : Cmd) (st : Nat) (s : State), serving c 0x1C3 s = some none ∧ firstFail (gateChecks c s (gcBad c 256) ++ [gateBusy s
    (gateOf s (opf c 4 9 0)), (timePassed s (opTime c 10), stTIME_PASSED)]) = some st) ∧
  (∃ (c : Cmd) (st : Nat) (s : State), serving c 0x242 s = some none ∧ firstFail (cntRdChecks c s) = some st) ∧
  (∃ (c : Cmd) (s : State), serving c 0x283 s = some none ∧ tileDown s (opf c 4 6 4) = true) ∧
  (∃ (c : Cmd) (s : State), serving c 0x3C3 s = some none ∧ (opw c 5).toNat ≤ 65536 ∧ mayUse s c.req (opf c 4 5 0) = false) :=
  ⟨⟨cm 0x441 [], State.reset, by decide +kernel⟩,
   ⟨cm 0x283 [], 0x09, setStage 0x80 live, by decide +kernel⟩,
   ⟨cs 0x2C1 [], live, by decide +kernel⟩,
   ⟨{ cm 0x301 [] with ring := 1 }, setRing 16 1 (fun g => { g with ex := true }) live, by decide +kernel⟩,
   ⟨cs 0x382 [], live, by decide +kernel⟩,
   ⟨cs 0x401 [], live, by decide +kernel⟩,
   ⟨cs 0x202 [], live, by decide +kernel⟩,
   ⟨cm 0x42 [(4, 2)], (firstFail (tblChecks (cm 0x42 [(4, 2)]) (live) (!opb (cm 0x42 [(4, 2)]) 5 31 && 528 ≤ opf (cm 0x42 [(4,
     2)]) 5 17 0))).getD default, live, by decide +kernel⟩,
   ⟨cm 0x81 [(4, 31)], (firstFail (lpmChecks (cm 0x81 [(4, 31)]) (live) true (some (lpmLen (cm 0x81 [(4, 31)]))))).getD default,
     live, by decide +kernel⟩,
   ⟨cm 0xC1 [], (firstFail (tcmChecks (cm 0xC1 []) (live) false)).getD default, live, by decide +kernel⟩,
   ⟨cm 0x101 [], (firstFail (partChecks (cm 0x101 []) (rset .pltBootStat 0 0 23 16 0 live) false 262144 (opf (cm 0x101 []) 4 17
     0))).getD default, rset .pltBootStat 0 0 23 16 0 live, by decide +kernel⟩,
   ⟨cm 0x141 [], (firstFail (nodeChecks (cm 0x141 []) (live) (schLevel (cm 0x141 [])) (schNum (cm 0x141 [])) (schLevel (cm 0x141
     []) = 0 || opf (cm 0x141 []) 6 15 8 = 0))).getD default, live, by decide +kernel⟩,
   ⟨cm 0x181 [], (firstFail (partChecks (cm 0x181 []) (rset .pltBootStat 0 0 23 16 0 live) (polBad (opPol (cm 0x181 []))) 262144
     (opf (cm 0x181 []) 4 17 0))).getD default, rset .pltBootStat 0 0 23 16 0 live, by decide +kernel⟩,
   ⟨cm 0x1C3 [], (firstFail (gateChecks (cm 0x1C3 []) (live) (gcBad (cm 0x1C3 []) 256) ++ [gateBusy (live) (gateOf (live) (opf (cm
     0x1C3 []) 4 9 0)), (timePassed (live) (opTime (cm 0x1C3 []) 10), stTIME_PASSED)])).getD default, live, by decide +kernel⟩,
   ⟨cm 0x242 [(4, 0xFF)], (firstFail (cntRdChecks (cm 0x242 [(4, 0xFF)]) (live))).getD default, live, by decide +kernel⟩,
   ⟨cm 0x283 [(4, 0x70)], rset .pltBootStat 0 0 23 16 127 live, by decide +kernel⟩,
   ⟨cm 0x3C3 [], live, by decide +kernel⟩⟩

theorem witness_SliceTableRule :
  (∃ (c : Cmd) (s : State), serving c 0x41 s = some none ∧ c.req ≠ mgr ∧ (!(exmProf s (tblN c)).en || !keyFits (exmProf s (tblN
    c)) (opKey c 8) || !sliceOn s (tblSl c)) = false ∧ ((exmProf s (tblN c)).shared = true ∨ tblSl c ≠ c.req)) ∧
  (∃ (c : Cmd) (s : State), serving c 0x42 s = some none ∧ c.req ≠ mgr ∧ (!(exmProf s (tblN c)).en || !keyFits (exmProf s (tblN
    c)) (opKey c 8) || !sliceOn s (tblSl c)) = false ∧ (opb c 5 31 = true ∨ opf c 5 17 0 < 528) ∧ ((exmProf s (tblN c)).shared =
    true ∨ tblSl c ≠ c.req)) ∧
  (∃ (c : Cmd) (s : State), serving c 0x43 s = some none ∧ c.req ≠ mgr ∧ (!(exmProf s (tblN c)).en || !keyFits (exmProf s (tblN
    c)) (opKey c 8) || !sliceOn s (tblSl c)) = false ∧ ((exmProf s (tblN c)).shared = true ∨ tblSl c ≠ c.req)) ∧
  (∃ (c : Cmd) (s : State), serving c 0x47 s = some none ∧ c.req ≠ mgr) ∧
  (∃ (c : Cmd) (s : State), serving c 0x44 s = some none ∧ c.req ≠ mgr ∧ iterating c s = false ∧ (exmProf s (tblN c)).en = true ∧
    tblCursorOk c true = true ∧ (exmProf s (tblN c)).shared = true) ∧
  (∃ (c : Cmd) (s : State), serving c 0x45 s = some none ∧ c.req ≠ mgr ∧ iterating c s = false ∧ (exmProf s (tblN c)).en = true ∧
    tblCursorOk c false = true ∧ opf c 5 9 0 < 528 ∧ (exmProf s (tblN c)).shared = true) ∧
  (∃ (c : Cmd) (s : State), serving c 0x46 s = some none ∧ c.req ≠ mgr ∧ iterating c s = false ∧ (exmProf s (tblN c)).en = true ∧
    tblCursorOk c false = true ∧ opf c 5 14 0 ≠ 0 ∧ (exmProf s (tblN c)).shared = true) ∧
  (∃ (c : Cmd), c.req = mgr) ∧
  (∃ (c : Cmd) (lo : Nat) (hi : Nat) (x : Nat × ExmEntry) (s : State), c.req ≠ mgr ∧ x ∈ walkEntries c s lo hi) :=
  ⟨⟨cs 0x41 [], live, by decide +kernel⟩,
   ⟨cs 0x42 [], live, by decide +kernel⟩,
   ⟨cs 0x43 [], live, by decide +kernel⟩,
   ⟨cs 0x47 [], live, by decide +kernel⟩,
   ⟨cs 0x44 [(2, 0xFFFFFFFF), (3, 0xFFFFFFFF), (5, 1)], live, by decide +kernel⟩,
   ⟨cs 0x45 [(2, 0xFFFFFFFF), (3, 0xFFFFFFFF), (5, 1)], live, by decide +kernel⟩,
   ⟨cs 0x46 [(2, 0xFFFFFFFF), (3, 0xFFFFFFFF), (5, 1)], live, by decide +kernel⟩,
   ⟨cm 0 [], by decide +kernel⟩,
   ⟨cs 0x44 [], 0, 2, (5, { valid := true }), { live with exm := { entries := [(5, { valid := true })] } }, by decide +kernel⟩⟩

theorem witness_TickCountIgnoresTimeChanges :
  (∃ (s : State) (t : State), exec .timSet s = .next t) ∧
  (∃ (s : State) (t : State), exec .timOffset s = .next t) ∧
  (∃ (v : Word) (s : State) (t : State), exec (.timAdjWrite v) s = .next t) ∧
  (∃ (s : State) (t : State), exec .slewEnd s = .next t) ∧
  (∃ (k : Nat) (s : State) (t : State), exec (.scheduleRealign k) s = .next t) :=
  ⟨⟨live, nextOf (exec .timSet live), rfl⟩,
   ⟨live, nextOf (exec .timOffset live), rfl⟩,
   ⟨109951164, live, nextOf (exec (.timAdjWrite 109951164) live), rfl⟩,
   ⟨live, nextOf (exec .slewEnd live), rfl⟩,
   ⟨0, live, nextOf (exec (.scheduleRealign 0) live), rfl⟩⟩

theorem witness_HandleLayout :
  (∃ (k : Nat) (t : Nat) (i : Nat), k < 4 ∧ t < 8 ∧ i < 2 ^ 27) ∧
  (∃ (h : Nat), h < 2 ^ 32) :=
  ⟨⟨3, 7, 134217727, by decide +kernel⟩,
   ⟨4294967295, by decide +kernel⟩⟩

theorem witness_PatternPositions :
  (∃ (t : Nat), t < 8) ∧
  (∃ (f : Nat) (t : Nat), f < 8 ∧ t < 8 ∧ f ≠ t) ∧
  (∃ (n : Notice) (k : Nat), n.pattern = 8 ∧ k < 8) ∧
  (∃ (n : Notice) (k : Nat), n.pattern < 8 ∧ k < 7) :=
  ⟨⟨7, by decide +kernel⟩,
   ⟨7, 0, by decide +kernel⟩,
   ⟨{}, 7, by decide +kernel⟩,
   ⟨{ pattern := 7 }, 6, by decide +kernel⟩⟩

theorem witness_LowestPriorityWins :
  (∃ (l : List Cand) (b : Cand), bestCand l = some b) :=
  ⟨[{ prio := 1, slab := 0, row := 0, act := 0, fallback := none }],
     { prio := 1, slab := 0, row := 0, act := 0, fallback := none }, by decide +kernel⟩

theorem witness_LongestPrefixWins :
  (∃ (w : Nat) (v : Nat) (l : Nat) (a : Nat), nodeHit w v = some (l, a)) ∧
  (∃ (bad : Nat → Nat → Bool), ((∀ m a, bad m a = false))) ∧
  (∃ (s : State) (bad : Nat → Nat → Bool) (r : Nat) (addr : Nat) (i : Nat), i = addr / 2 ^ (rootWidth s r - 16) % 65536 ∧ bad 0 (r
    * 65536 + i) = true) ∧
  (∃ (s : State) (bad : Nat → Nat → Bool) (r : Nat) (addr : Nat) (i : Nat), i = addr / 2 ^ (rootWidth s r - 16) % 65536 ∧ bad 0 (r
    * 65536 + i) = false ∧ slotHasChild (slotWord s r i) = false) ∧
  (∃ (bad : Nat → Nat → Bool) (width : Nat) (m : Nat) (ptr : Nat), stagePos m < width ∧ bad m ptr = true) ∧
  (∃ (s : State) (bad : Nat → Nat → Bool) (width : Nat) (addr : Nat) (m : Nat) (ptr : Nat) (l : Nat) (a : Nat), stagePos m < width
    ∧ bad m ptr = false ∧ nodeHit (nodeWord s m ptr) (addr / 2 ^ (width - stagePos m - 8) % 256) = some (l, a) ∧ bad 15 a = true) ∧
  (∃ (s : State) (r : Nat) (lim : Nat) (addr : BitVec 128) (p : Pfx), lpmBest s r addr lim = some p) ∧
  (∃ (w : Nat) (p : Pfx), p.len ≤ w) :=
  ⟨⟨2 ^ 2, 0, 2, 0, by decide +kernel⟩,
   ⟨fun _ _ => false, fun _ _ => rfl⟩,
   ⟨live, (fun x y => x = 0 && y = 65535), 0, 4294967295, 65535, rfl, by decide +kernel⟩,
   ⟨live, fun _ _ => false, 0, 0, 0, rfl, by decide +kernel⟩,
   ⟨(fun x y => x = 1 && y = 7), 32, 1, 7, by decide +kernel⟩,
   ⟨{ live with trie := { nodes := [(16777216, 4)] } }, (fun x y => x = 15 && y = 0), 32, 0, 1, 0, 2, 0, by decide +kernel⟩,
   ⟨{ live with lpm := [{ len := 32 }, { len := 8 }] }, 0, 128, 0, { len := 32 }, by decide +kernel⟩,
   ⟨32, { len := 32 }, by decide +kernel⟩⟩

theorem witness_ColdAndWarmResetKeep :
  (∃ (s : State) (t : State), s.Canonical ∧ t = coldReset s) ∧
  (∃ (s : State) (t : State), s.Canonical ∧ t = warmReset s) :=
  ⟨⟨live, coldReset (live), by decide +kernel, rfl⟩,
   ⟨live, warmReset (live), by decide +kernel, rfl⟩⟩

theorem witness_FaultFifoRule :
  (∃ (s : State), frozen s = false ∧ s.flt.fifo.length < 64) ∧
  (∃ (s : State), (frozen s = true ∨ 64 ≤ s.flt.fifo.length)) ∧
  (∃ (u : Nat) (code : Nat) (s : State), codeClass code < 3 ∧ inSafe s = false ∧ ((∀ t, unitTile u = some t → tileFenced s t =
    false ∧ (7 ≤ stage s → stage s ≤ 9 → tileReady s t = true))) ∧ (unitSt s u).held = true ∧ codeClass code ≤ (unitSt s u).cls ∧
    ((u / 4096 = 2 ∨ u / 4096 = 3 → codeClass code = 0 ∨ isFenced s u = true))) ∧
  (∃ (u : Nat) (code : Nat) (s : State), codeClass code = 1 ∧ inSafe s = false ∧ (u / 4096 = 2 ∨ u / 4096 = 3) ∧ ((∀ t, unitTile u
    = some t → tileFenced s t = false ∧ (7 ≤ stage s → stage s ≤ 9 → tileReady s t = true))) ∧ (unitSt s u).held = true ∧ 1 ≤
    (unitSt s u).cls ∧ isFenced s u = false) ∧
  (∃ (code : Nat) (s : State), codeClass code < 3 ∧ inSafe s = true) ∧
  (∃ (s : State), hifUp s = true) :=
  ⟨⟨live, by decide +kernel⟩,
   ⟨pset .fltStat 30 true live, by decide +kernel⟩,
   ⟨6 * 4096 + 7, 0x0207, { live with flt := { units := [(24583, { held := true, cls := 2 })] } }, by decide +kernel⟩,
   ⟨2 * 4096 + 9, 512, { live with flt := { units := [(8201, { held := true, cls := 2 })] } }, by decide +kernel⟩,
   ⟨0, pset .fltStat 31 true live, by decide +kernel⟩,
   ⟨live, by decide +kernel⟩⟩

theorem witness_OpenDrainOutputs :
  (∃ (s : State), s.pwr.powered = true) ∧
  (∃ (s : State), s.pwr.powered = true) ∧
  (∃ (s : State), s.pwr.powered = false) ∧
  (∃ (s : State), s.Canonical ∧ s.pwr.powered = true ∧ s.pwr.sagStep = 0 ∧ stewardRuns s = true) :=
  ⟨⟨live, by decide +kernel⟩,
   ⟨live, by decide +kernel⟩,
   ⟨{ live with pwr := { live.pwr with powered := false } }, by decide +kernel⟩,
   ⟨live, by decide +kernel⟩⟩

theorem witness_MemWrStoresItsBytes :
  (∃ (c : Cmd) (s : State), s.Canonical ∧ memWaits c s = false ∧ (c.dram = .clean ∨ memDram c = false) ∧ Runs c 0x282 .any
    (memChecks c s) s) ∧
  (∃ (c : Cmd) (s : State), (c.dram = .clean ∨ memDram c = false) ∧ Runs c 0x281 .any (memChecks c s) s) :=
  ⟨⟨cm 0x282 [(4, 1), (5, 67108863), (6, 0x2000E0)], live, by decide +kernel⟩,
   ⟨cm 0x281 [(4, 1), (5, 67108863), (6, 0x2000E0)], live, by decide +kernel⟩⟩

end Sys2Proof.Tests
end

section
/-! SUPPORT. How calm changes compose: the outermost first, in the order in which a meaning is written, and what an update of a part
that `Calm` does not speak of does. -/
namespace Sys2Proof.Machine

/-! ## Composition -/

/-- The last change stands first, as in the text of a meaning. -/
theorem Calm.after {s t u : State} (b : Calm t u) (a : Calm s t) : Calm s u := a.trans b

theorem Calm.of_fst {β : Type} {s u : State} {p : State × β} {b : β} (h : p = (u, b)) (c : Calm s p.1) : Calm s u := by
  rwa [h] at c

theorem Calm.of_snd {β : Type} {s u : State} {p : β × State} {b : β} (h : p = (b, u)) (c : Calm s p.2) : Calm s u := by
  rwa [h] at c

/-- A fold whose every step is calm on the state that its value holds. -/
theorem calm_foldl {β γ : Type} (get : γ → State) {f : γ → β → γ} (h : ∀ a x, Calm (get a) (get (f a x))) :
    ∀ (l : List β) (a : γ), Calm (get a) (get (l.foldl f a))
  | [], _ => Calm.rfl
  | x :: l, a => (h a x).trans (calm_foldl get h l (f a x))

theorem calm_runIte {p : Prop} [Decidable p] {s : State} {a b : Run} (ha : p → Calm s a.s) (hb : ¬p → Calm s b.s) :
    Calm s (if p then a else b).s := by
  split
  · exact ha ‹_›
  · exact hb ‹_›

theorem calm_elim {β : Type} {f : β → State → State} {o : Option β} {s : State} (h : ∀ b s, Calm s (f b s)) :
    Calm s (o.elim id f s) := by
  cases o with
  | none => exact Calm.rfl
  | some b => exact h b s

/-! The combinators with the changed state implicit: the goal fixes it, and the change that they carry is checked against it. -/

theorem calm_when {c : Bool} {f : State → State} {s : State} (h : ∀ s, Calm s (f s)) : Calm s (iff_ c f s) := calm_iff c h s

theorem calm_each {β : Type} {f : β → State → State} {l : List β} {s : State} (h : ∀ a s, Calm s (f a s)) :
    Calm s (forEach l f s) :=
  calm_forEach h l s

theorem calm_command {c : Cmd} {op : Nat} {w : Who} {checks : List (Bool × Nat)} {f : State → State} {s : State}
    (h : ∀ s, Calm s (f s)) : Calm s (runCmd c op w checks f s) := calm_runCmd h s

/-- Every answer of a command is calm. -/
def Answers (s : State) (r : Res) : Prop := ∀ t, r = .next t → Calm s t

theorem answers_next {s t : State} (h : Calm s t) : Answers s (.next t) := by
  rintro _ ⟨⟩
  exact h

/-! ## Updates of other parts -/

/-- What `Calm` speaks of, in one tuple. -/
abbrev State.kept (s : State) :=
  (s.pending, s.serial, s.ident, s.tim.now, s.flt.fifo, s.mem, s.regs, s.hif.rings, s.fab.bufs)

/-- A change that leaves all of it is calm. -/
theorem calm_of_kept {s t : State} (h : t.kept = s.kept) : Calm s t := by
  simp only [State.kept, Prod.mk.injEq] at h
  obtain ⟨hp, hs, hi, hn, hf, hm, hr, hg, hb⟩ := h
  refine ⟨hp, hs, hi, ?_, ?_, ?_⟩
  · simp only [State.TimeLegal, hn, imp_self]
  · simp only [State.FifoBounded, hf, imp_self]
  · simp only [State.Canonical, hm, hr, hg, hb, imp_self]

section
variable {s : State}

theorem calm_withCfb (x : Corridor) : Calm s { s with cfb := x } := calm_of_kept rfl

theorem calm_withExm (x : Exm) : Calm s { s with exm := x } := calm_of_kept rfl

theorem calm_withFrames (x : List Frame) : Calm s { s with frames := x } := calm_of_kept rfl

theorem calm_withFab {x : Fabric} (h : x.bufs = s.fab.bufs) : Calm s { s with fab := x } := calm_of_kept (by simp only [State.kept, h])

theorem calm_withGroups (x : Tab LaneGroup) : Calm s { s with groups := x } := calm_of_kept rfl

theorem calm_withHif {x : Hif} (h : x.rings = s.hif.rings) : Calm s { s with hif := x } := calm_of_kept (by simp only [State.kept, h])

theorem calm_withI2c (x : Tab I2c) : Calm s { s with i2c := x } := calm_of_kept rfl

theorem calm_withImg (x : ImgState) : Calm s { s with img := x } := calm_of_kept rfl

theorem calm_withLpm (x : List Pfx) : Calm s { s with lpm := x } := calm_of_kept rfl

theorem calm_withNvm (x : Nvm) : Calm s { s with nvm := x } := calm_of_kept rfl

theorem calm_withPatch (x : Patch) : Calm s { s with patch := x } := calm_of_kept rfl

theorem calm_withPwr (x : Power) : Calm s { s with pwr := x } := calm_of_kept rfl

theorem calm_withSch (x : Sched) : Calm s { s with sch := x } := calm_of_kept rfl

theorem calm_withTcm (x : Tcm) : Calm s { s with tcm := x } := calm_of_kept rfl

theorem calm_withTel (x : Tel) : Calm s { s with tel := x } := calm_of_kept rfl

theorem calm_withTim {x : TimeBase} (h : x.now = s.tim.now) : Calm s { s with tim := x } := calm_of_kept (by simp only [State.kept, h])

theorem calm_withLpmTrie (l : List Pfx) (t : Trie) : Calm s { s with lpm := l, trie := t } := calm_of_kept rfl

theorem calm_withFramesFab {fr : List Frame} {fb : Fabric} (h : fb.bufs = s.fab.bufs) : Calm s { s with frames := fr, fab := fb } :=
  calm_of_kept (by simp only [State.kept, h])

theorem calm_withSasChansSec (sa : Tab (Option Sa)) (ch : Tab (Option SecChan)) (se : Sec) :
    Calm s { s with sas := sa, chans := ch, sec := se } :=
  calm_of_kept rfl

theorem calm_withPwrCfbPs (p : Power) (c : Corridor) (q : PwrState) : Calm s { s with pwr := p, cfb := c, ps := q } := calm_of_kept rfl

end

/-! ## Module time -/

theorem toNs_ofNs (n : Nat) : (Time80.ofNs n).toNs = n := Nat.div_add_mod' n 1000000000

theorem calm_setNow {t : TimeBase} {n : Nat} (h : n ≤ maxNs) (e : t.now = Time80.ofNs n) (s : State) : Calm s { s with tim := t } := by
  refine ⟨rfl, rfl, rfl, fun _ => ?_, id, id⟩
  show t.now.ns < 1000000000 ∧ t.now.toNs ≤ maxNs
  rw [e, toNs_ofNs]
  exact ⟨Nat.mod_lt _ (by decide), h⟩

theorem calm_timeZero (s : State) : Calm s { s with tim := {} } := ⟨rfl, rfl, rfl, fun _ => reset_time_legal, id, id⟩

/-! ## Registers and buffers -/

theorem tkeep_wf {α : Type} [Inhabited α] [DecidableEq α] (f : Nat → α → Bool) {t : Tab α} (h : Tab.wf t = true) :
    Tab.wf (tkeep f t) = true := Tab_wf_filter _ h

/-- A tile's registers and buffers go, with other parts. -/
theorem calm_tileParts {s : State} {p : Nat → Option Word → Bool} {q : Nat × Buf → Bool} {fr : List Frame}
    {tc : Tcm} {sc : Sched} {ex : Exm}
    {fb : Fabric} {fl : Collector} (hb : fb.bufs = s.fab.bufs.filter q) (hf : fl.fifo = s.flt.fifo) :
    Calm s { s with regs := tkeep p s.regs, frames := fr, tcm := tc, sch := sc, fab := fb, exm := ex, flt := fl } := by
  refine ⟨rfl, rfl, rfl, id, ?_, fun ⟨hm, hr, hg, hu⟩ => ⟨hm, tkeep_wf p hr, hg, ?_⟩⟩
  · show s.FifoBounded → fl.fifo.length ≤ 64
    rw [hf]
    exact id
  · show Tab.wf fb.bufs = true
    rw [hb]
    exact Tab_wf_filter q hu

end Sys2Proof.Machine
end

section
/-! SUPPORT. Every operation of the block, and so every command and every step, is calm. The lemmas stand in the order of the model's
definitions, and each proof mirrors the text of the meaning that it is about. -/
namespace Sys2Proof.Machine

/-! ## Counters and shared operations -/

theorem calm_portCnt (p i n : Nat) (s : State) : Calm s (portCnt p i n s) := calm_count ..

theorem calm_ownerCnt (o i n : Nat) (s : State) : Calm s (ownerCnt o i n s) := calm_count ..

theorem calm_tileCnt (t i n : Nat) (s : State) : Calm s (tileCnt t i n s) := calm_count ..

theorem calm_pipeCnt (g i n : Nat) (s : State) : Calm s (pipeCnt g i n s) := calm_count ..

theorem calm_exmCnt (t n i : Nat) (s : State) : Calm s (exmCnt t n i s) := calm_count ..

theorem calm_drmCnt (c r i n : Nat) (s : State) : Calm s (drmCnt c r i n s) := calm_count ..

theorem calm_fabCnt (p i : Nat) (s : State) : Calm s (fabCnt p i s) := calm_count ..

theorem calm_ringCnt (q r i n : Nat) (s : State) : Calm s (ringCnt q r i n s) := calm_count ..

theorem calm_mcCnt (t p i : Nat) (s : State) : Calm s (mcCnt t p i s) := calm_count ..

theorem calm_leafCnt (l i n : Nat) (s : State) : Calm s (leafCnt l i n s) := calm_count ..

theorem calm_leafDrop (l i : Nat) (s : State) : Calm s (leafDrop l i s) := calm_count ..

theorem calm_polCnt (t p i : Nat) (s : State) : Calm s (polCnt t p i s) := calm_count ..

theorem calm_streamCnt (st i : Nat) (s : State) : Calm s (streamCnt st i s) := calm_count ..

theorem calm_actCnt (t a i n : Nat) (s : State) : Calm s (actCnt t a i n s) := calm_count ..

theorem calm_groupCnt (mc : Bool) (g i : Nat) (s : State) : Calm s (groupCnt mc g i s) := calm_count ..

theorem calm_firstForwarded (s : State) : Calm s (firstForwarded s) := calm_when fun _ => calm_setStage ..

theorem calm_setRealign (l : List Nat) (s : State) : Calm s (setRealign l s) := (calm_pset ..).after <| calm_of_kept rfl

theorem calm_setCage (c : Nat) (f : Cage → Cage) (s : State) : Calm s (setCage c f s) := calm_of_kept rfl

theorem calm_postTod : ∀ (n : Nat) (s : State), Calm s (postTod n s)
  | 0, _ => Calm.rfl
  | n + 1, _ => calm_ite (fun _ => Calm.rfl) fun _ => (calm_postTod n _).after <| (calm_post ..).after <| calm_of_kept rfl

/-! ## Channel queues (R264 to R266) -/

theorem calm_touchCell (t idx : Nat) (write : Bool) (s : State) : Calm s (touchCell t idx write s) :=
  (calm_when fun _ => calm_activate ..).after <| calm_activate ..

theorem calm_setHeldPlace (t : Nat) (old new : Place) (s : State) : Calm s (setHeldPlace t old new s) := calm_of_kept rfl

theorem calm_issueWrites (t : Nat) : ∀ (n : Nat) (s : State), Calm s (issueWrites t n s)
  | 0, _ => Calm.rfl
  | n + 1, s => by
    unfold issueWrites
    split
    · exact calm_ite (fun _ => Calm.rfl) fun _ => (calm_issueWrites t n _).after <| calm_setHeldPlace ..
    · exact Calm.rfl

theorem calm_fillBuffer (t : Nat) : ∀ (n : Nat) (s : State), Calm s (fillBuffer t n s)
  | 0, _ => Calm.rfl
  | n + 1, s => by
    unfold fillBuffer
    split
    · exact calm_ite (fun _ => Calm.rfl) fun _ => (calm_fillBuffer t n _).after <| calm_setHeldPlace ..
    · exact Calm.rfl

theorem calm_issueReads (t : Nat) : ∀ (l : List (Nat × Nat)) (s : State), Calm s (issueReads t l s)
  | [], _ => Calm.rfl
  | _ :: l, _ => calm_ite (fun _ => calm_issueReads t l _) fun _ =>
    calm_ite (fun _ => Calm.rfl) fun _ => (calm_issueReads t l _).after <| calm_setHeldPlace ..

theorem calm_pumpDram (t : Nat) (s : State) : Calm s (pumpDram t s) :=
  (calm_issueReads ..).after <| (calm_issueWrites ..).after <| (calm_fillBuffer ..).after <| calm_issueWrites ..

theorem calm_squelch (p : Nat) (s : State) : Calm s (squelch p s) := calm_setPort ..

theorem calm_guardPeak (t sl : Nat) (s : State) : Calm s (guardPeak t sl s) := calm_rset ..

/-! ## Adjacencies and resets of units (R70, R71, R305) -/

theorem calm_sendTo (m : Mgmt) (p : Nat) (s : State) : Calm s (sendTo m p s) := calm_emit ..

theorem calm_tileReset (t by_ : Nat) (s : State) : Calm s (tileReset t by_ s) := by
  refine (calm_resetDone ..).after <| Calm.after (calm_when calm_enterSafe) <| (calm_updateLimit _).after <|
    (calm_resetEngine ..).after <| (calm_resetEngine ..).after ?_
  generalize hu : forEach _ _ _ = u
  refine Calm.after (calm_tileParts rfl rfl) ?_
  subst hu
  exact (calm_each fun _ _ => (calm_setPort ..).after <| (calm_adjLost ..).after <| calm_clearSas ..).after <| (calm_rset ..).after <|
    (calm_rset ..).after <| calm_tileOut ..

/-! ## Commands in their frame (R336) -/

theorem calm_readReaches {f : State → State} {s : State} (h : ∀ s, Calm s (f s)) : Calm s (readReaches f s) :=
  calm_ite (fun _ => h _) fun _ => calm_when fun _ => calm_emit ..

theorem calm_commandWaits (c : Cmd) (s : State) : Calm s (commandWaits c s) := calm_setRing ..

/-! ## Stacked DRAM (R267 to R276) -/

theorem calm_reseed (s : State) : Calm s (reseed s) := calm_each fun _ _ => (calm_advanceFree ..).after <| calm_setChannel ..

theorem answers_execRngReseed (s : State) : Answers s (execRngReseed s) := answers_next <| calm_when fun _ => calm_reseed _

theorem calm_payAtLimit (ch rank : Nat) (s : State) : Calm s (payAtLimit ch rank s) :=
  calm_when fun _ => (calm_refreshes ..).after <| calm_setChannel ..

theorem calm_debtsAtLimit (t : Nat) (s : State) : Calm s (debtsAtLimit t s) :=
  calm_each fun _ _ => calm_each fun _ _ => calm_payAtLimit ..

theorem answers_execRefreshDue (ch rank : Nat) (busy : Bool) (s : State) : Answers s (execRefreshDue ch rank busy s) := by
  unfold execRefreshDue
  refine answers_next ?_
  refine calm_when fun _ => ?_
  exact calm_ite (fun _ => (calm_payAtLimit ..).after <| (calm_drmCnt ..).after <| calm_setChannel ..) fun _ => calm_refreshes ..

theorem answers_execRefreshDebtPayment (ch : Nat) (s : State) : Answers s (execRefreshDebtPayment ch s) :=
  answers_next <| calm_when fun _ => calm_payDebt ..

theorem calm_correctedError (c r : Nat) (s : State) : Calm s (correctedError c r s) :=
  (calm_when fun _ => (calm_post ..).after <| (calm_rset ..).after <| calm_setChannel ..).after <| (calm_drmCnt ..).after <|
    calm_setChannel ..

theorem calm_errStat (c r b : Nat) (s : State) : Calm s (errStat c r b s) := calm_rput ..

theorem calm_rankError (c r cnt b code idx : Nat) (s : State) : Calm s (rankError c r cnt b code idx s) :=
  (calm_report ..).after <| (calm_errStat ..).after <| calm_drmCnt ..

theorem calm_eccEffect (c r idx : Nat) (x : EccFinding) (s : State) : Calm s (eccEffect c r idx x s).2 := by
  unfold eccEffect
  split
  · exact Calm.rfl
  · dsimp only
    exact calm_correctedError ..
  · dsimp only
    exact (calm_rankError ..).after <| calm_drmCnt ..
  · dsimp only
    exact (calm_rankError ..).after <| calm_when fun _ => calm_drmCnt ..

theorem calm_readCell (t idx : Nat) (x : EccFinding) (s : State) : Calm s (readCell t idx x s).2 :=
  (calm_eccEffect ..).after <| calm_touchCell ..

theorem calm_writeCell (t idx : Nat) (whole : Bool) (x : EccFinding) (s : State) : Calm s (writeCell t idx whole x s).2 := by
  unfold writeCell
  dsimp only
  split
  · dsimp only
    exact (calm_rankError ..).after <| (calm_when fun _ => calm_setChannel ..).after <| calm_touchCell ..
  · dsimp only
    exact (calm_when fun _ => calm_setChannel ..).after <| calm_touchCell ..

theorem answers_execDramReadDone (tile idx : Nat) (x : EccFinding) (s : State) : Answers s (execDramReadDone tile idx x s) :=
  answers_next <| calm_when fun _ => (calm_pumpDram ..).after <| Calm.after (calm_withFab rfl) <| calm_readCell ..

theorem answers_execRetirementRecordWritten (ch : Nat) (s : State) : Answers s (execRetirementRecordWritten ch s) :=
  answers_next <| calm_when fun _ => calm_of_kept rfl

theorem calm_copyFindings (ch phys lr lo hi : Nat) (l : List (Nat × EccFinding)) (s : State) :
    Calm s (copyFindings ch phys lr lo hi l s) :=
  calm_each fun _ _ => (calm_when fun _ => calm_setChannel ..).after <| calm_eccEffect ..

theorem answers_execMigrationLastRow (r : RowsCopied) (s : State) : Answers s (execMigrationLastRow r s) :=
  answers_next <| calm_when fun _ => (calm_setChannel ..).after <| (calm_copyFindings ..).after <| calm_copyRows ..

theorem answers_execRemapCommit (ch : Nat) (s : State) : Answers s (execRemapCommit ch s) :=
  answers_next <| calm_when fun _ => (calm_dormantStep ..).after <| (calm_updateLimit ..).after <| calm_setChannel ..

theorem answers_execMigrationAbandon (ch : Nat) (s : State) : Answers s (execMigrationAbandon ch s) :=
  answers_next <| calm_when fun _ => calm_setChannel ..

/-! ## The trie (R165 to R174) -/

theorem calm_setTrie (f : Trie → Trie) (s : State) : Calm s (setTrie f s) := calm_of_kept rfl

theorem calm_blkTake (m n : Nat) (s : State) : Calm s (blkTake m n s).2 := by
  unfold blkTake
  split
  · exact Calm.rfl
  · dsimp only
    exact calm_setTrie ..

theorem calm_blkGive (m a : Nat) (s : State) : Calm s (blkGive m a s) := by
  unfold blkGive
  split
  · exact calm_setTrie ..
  · exact Calm.rfl

theorem calm_wordWritten (m a : Nat) (s : State) : Calm s (wordWritten m a s) := calm_of_kept rfl

theorem calm_putSlot (r i : Nat) (w : BitVec 64) (s : State) : Calm s (putSlot r i w s) :=
  (calm_wordWritten ..).after <| calm_setTrie ..

theorem calm_putNode (m a w : Nat) (s : State) : Calm s (putNode m a w s) := (calm_wordWritten ..).after <| calm_setTrie ..

theorem calm_newResults (l : List Nat) (s : State) : Calm s (newResults l s).2 := by
  unfold newResults
  split
  · dsimp only
    exact (calm_each fun _ _ => (calm_wordWritten ..).after <| calm_setTrie ..).after <| Calm.of_snd ‹_› <| calm_blkTake ..

theorem calm_newNodes (m : Nat) (l : List Nat) (s : State) : Calm s (newNodes m l s).2 := by
  unfold newNodes
  split
  · dsimp only
    exact (calm_each fun _ _ => calm_putNode ..).after <| Calm.of_snd ‹_› <| calm_blkTake ..

theorem calm_giveBelow : ∀ (n m w : Nat) (s : State), Calm s (giveBelow n m w s)
  | 0, _, _, _ => Calm.rfl
  | n + 1, m, _, _ => calm_ite (fun _ => calm_when fun _ => calm_blkGive ..) fun _ =>
    (calm_blkGive ..).after <| (calm_each (calm_giveBelow n (m + 1))).after <| calm_when fun _ => calm_blkGive ..

theorem calm_freshStride (p : PfxAt) (nh : Nat) : ∀ (n m : Nat) (s : State), Calm s (freshStride p nh n m s).2
  | 0, _, _ => Calm.rfl
  | n + 1, m, s => by
    unfold freshStride
    split
    · split
      exact Calm.of_snd ‹_› <| calm_newResults ..
    · split
      split
      exact Calm.of_snd ‹_› <| (calm_newNodes ..).after <| Calm.of_snd ‹_› <| calm_freshStride p nh n (m + 1) s

theorem calm_changeResult (p : PfxAt) (nh : Option Nat) (m ptr : Nat) (s : State) : Calm s (changeResult p nh m ptr s) :=
  (calm_when fun _ => calm_blkGive ..).after <| (calm_putNode ..).after <| calm_newResults ..

theorem calm_changeChild (p : PfxAt) (nh : Option Nat) (m ptr : Nat) (s : State) : Calm s (changeChild p nh m ptr s) := by
  unfold changeChild
  refine (calm_when fun _ => calm_blkGive ..).after <| (calm_when fun _ => calm_giveBelow ..).after <| (calm_putNode ..).after <|
    (calm_newNodes ..).after ?_
  split
  · dsimp only
    exact calm_freshStride ..
  · exact Calm.rfl

theorem calm_changeNode (p : PfxAt) (nh : Option Nat) (keep : Nat → Bool) :
    ∀ (n m ptr : Nat) (s : State), Calm s (changeNode p nh keep n m ptr s)
  | 0, _, _, _ => Calm.rfl
  | n + 1, m, ptr, s => by
    unfold changeNode
    refine calm_ite (fun _ => calm_changeResult ..) fun _ => ?_
    split
    · exact calm_ite (fun _ => calm_changeNode p nh keep n ..) fun _ => calm_changeChild ..
    · exact calm_changeChild ..

theorem calm_changeDeep (r : Nat) (p : PfxAt) (nh : Option Nat) (keep : Nat → Bool) (s : State) :
    Calm s (changeDeep r p nh keep s) := by
  unfold changeDeep
  dsimp only
  split
  · exact calm_ite (fun _ => calm_changeNode ..) fun _ => (calm_blkGive ..).after <| (calm_giveBelow ..).after <| calm_putSlot ..
  · exact (calm_putSlot ..).after <| (calm_newNodes ..).after <| calm_freshStride ..
  · exact Calm.rfl

theorem calm_changeDirect (r : Nat) (p : PfxAt) (nh : Option Nat) (s : State) : Calm s (changeDirect r p nh s) := by
  unfold changeDirect
  refine calm_each fun _ _ => ?_
  dsimp only
  split
  · exact calm_ite (fun _ => Calm.rfl) fun _ => calm_putSlot ..
  · exact calm_ite (fun _ => calm_putSlot ..) fun _ => Calm.rfl

theorem calm_writeTrie (r len : Nat) (addr : BitVec 128) (nh : Option Nat) (s : State) : Calm s (writeTrie r len addr nh s) :=
  calm_ite (fun _ => calm_setTrie ..) fun _ => calm_ite (fun _ => calm_changeDirect ..) fun _ => calm_changeDeep ..

theorem calm_lpmRemove (r len : Nat) (addr : BitVec 128) (s : State) : Calm s (lpmRemove r len addr s) := calm_of_kept rfl

theorem calm_lpmPut (p : Pfx) (s : State) : Calm s (lpmPut p s) :=
  (calm_writeTrie ..).after <| (calm_withLpm ..).after <| calm_lpmRemove ..

theorem calm_lpmDrop (r len : Nat) (addr : BitVec 128) (s : State) : Calm s (lpmDrop r len addr s) :=
  (calm_writeTrie ..).after <| calm_lpmRemove ..

theorem calm_clearRoot (r : Nat) (s : State) : Calm s (clearRoot r s) :=
  (calm_withLpmTrie ..).after <| calm_each fun _ _ => (calm_blkGive ..).after <| calm_giveBelow ..

theorem answers_execLpmIns (c : Cmd) (s : State) : Answers s (execLpmIns c s) := by
  unfold execLpmIns
  refine answers_next ?_
  refine calm_command fun _ => ?_
  dsimp only
  split <;> exact calm_ite (fun _ => calm_fin ..) fun _ => (calm_fin ..).after <| calm_lpmPut ..

theorem answers_execLpmDel (c : Cmd) (s : State) : Answers s (execLpmDel c s) := by
  unfold execLpmDel
  refine answers_next ?_
  refine calm_command fun _ => ?_
  split
  · exact (calm_fin ..).after <| calm_lpmDrop ..
  · exact calm_fin ..

theorem answers_execLpmSrch (c : Cmd) (s : State) : Answers s (execLpmSrch c s) := by
  unfold execLpmSrch
  refine answers_next ?_
  refine calm_command fun _ => ?_
  split <;> exact calm_fin ..

theorem calm_lookTrie (t r addr : Nat) (ue : List (Nat × Nat)) (s : State) : Calm s (lookTrie t r addr ue s).2 := by
  unfold lookTrie
  dsimp only
  split
  · exact (calm_when fun _ => calm_report ..).after <| (calm_lpmCnt ..).after <| calm_when fun _ => calm_of_kept rfl
  · exact Calm.rfl

theorem answers_execLpmLkup (c : Cmd) (s : State) : Answers s (execLpmLkup c s) := by
  unfold execLpmLkup
  refine answers_next ?_
  refine calm_command fun _ => ?_
  dsimp only
  split <;> exact (calm_fin ..).after <| calm_lookTrie ..

theorem answers_execLpmNext (c : Cmd) (s : State) : Answers s (execLpmNext c s) := by
  unfold execLpmNext
  refine answers_next ?_
  refine calm_command fun _ => ?_
  split <;> exact calm_fin ..

/-! ## Exact-match tables (R140 to R164, R343) -/

theorem calm_setOvf (b n : Nat) (s : State) : Calm s (setOvf b n s) := calm_of_kept rfl

theorem calm_exmErrors (t : Nat) (ks : List Nat) (s : State) : Calm s (exmErrors t ks s) :=
  calm_each fun _ _ => calm_ite (fun _ => Calm.rfl) fun _ => (calm_report ..).after <| calm_of_kept rfl

theorem calm_exmPut (k : Nat) (e : ExmEntry) (s : State) : Calm s (exmPut k e s) := calm_of_kept rfl

theorem calm_exmAdd (k : Nat) (e : ExmEntry) (s : State) : Calm s (exmAdd k e s) :=
  (calm_when fun _ => calm_setOvf ..).after <| calm_exmPut ..

theorem calm_exmClear (k : Nat) (s : State) : Calm s (exmClear k s) := (calm_when fun _ => calm_setOvf ..).after <| calm_exmPut ..

theorem calm_landHits (s : State) : Calm s (landHits s) := Calm.after (calm_each fun _ _ => calm_of_kept rfl) <| calm_of_kept rfl

theorem calm_journalAppend (op : Nat) (e : ExmEntry) (s : State) : Calm s (journalAppend op e s) :=
  calm_ite (fun _ => Calm.rfl) fun _ => calm_of_kept rfl

theorem calm_learnRelease (n slice : Nat) (key : BitVec 128) (s : State) : Calm s (learnRelease n slice key s) := calm_of_kept rfl

theorem calm_exmDelete (op k : Nat) (s : State) : Calm s (exmDelete op k s) :=
  (calm_learnRelease ..).after <| (calm_journalAppend ..).after <| calm_exmClear ..

theorem calm_exmLoad (l : List ExmEntry) (s : State) : Calm s (exmLoad l s) := by
  unfold exmLoad
  refine calm_each fun _ _ => ?_
  dsimp only
  split
  · exact calm_exmAdd ..
  · exact Calm.rfl

theorem calm_tblReads (c : Cmd) (s : State) : Calm s (tblReads c s) := (calm_exmErrors ..).after <| calm_landHits _

theorem answers_execTblSrch (c : Cmd) (s : State) : Answers s (execTblSrch c s) := by
  unfold execTblSrch
  refine answers_next ?_
  refine calm_command fun _ => ?_
  dsimp only
  split <;> exact (calm_fin ..).after <| calm_tblReads ..

theorem calm_tblInsert (c : Cmd) (s : State) : Calm s (tblInsert c s) := by
  unfold tblInsert
  dsimp only
  split
  · exact calm_ite (fun _ => calm_fin ..) fun _ => (calm_fin ..).after <| (calm_learnRelease ..).after <|
      (calm_journalAppend ..).after <| calm_exmPut ..
  · split
    · exact (calm_fin ..).after <| calm_exmCnt ..
    · exact (calm_fin ..).after <| (calm_learnRelease ..).after <| (calm_journalAppend ..).after <| calm_exmAdd ..

theorem answers_execTblIns (c : Cmd) (s : State) : Answers s (execTblIns c s) :=
  answers_next <| calm_command fun _ => (calm_tblInsert ..).after <| calm_tblReads ..

theorem answers_execTblDel (c : Cmd) (s : State) : Answers s (execTblDel c s) := by
  unfold execTblDel
  refine answers_next ?_
  refine calm_command fun _ => ?_
  dsimp only
  split
  · exact (calm_fin ..).after <| (calm_exmDelete ..).after <| calm_tblReads ..
  · exact (calm_fin ..).after <| calm_tblReads ..

theorem calm_iterRun {c : Cmd} {start : Nat}
    {step : Nat → Nat × Nat → State → State × Nat × (Nat × Nat) × Option (Nat × List (Nat × Word))}
    {s : State} (h : ∀ cur tot s, Calm s (step cur tot s).1) : Calm s (iterRun c start step s) := by
  unfold iterRun
  dsimp only
  generalize hr : step _ _ s = r
  have stepped : Calm s r.1 := hr ▸ h _ _ s
  split
  · exact (calm_fin ..).after stepped
  · exact calm_ite (fun _ => (calm_fin ..).after stepped) fun _ => (calm_emitHost ..).after <| (calm_setRing ..).after stepped

theorem calm_tblNextStep (c : Cmd) (cur : Nat) (tot : Nat × Nat) (s : State) : Calm s (tblNextStep c cur tot s).1 := by
  unfold tblNextStep
  dsimp only
  split <;> exact Calm.rfl

theorem answers_execTblNext (c : Cmd) (s : State) : Answers s (execTblNext c s) :=
  answers_next <| calm_command fun _ => (calm_iterRun fun _ _ _ => calm_tblNextStep ..).after <| calm_tblReads ..

theorem calm_sweepStep {c : Cmd} {f : Nat → ExmEntry → Nat × Nat → State → State × (Nat × Nat)}
    {cur : Nat} {tot : Nat × Nat} {s : State} (h : ∀ k e tot s, Calm s (f k e tot s).1) : Calm s (sweepStep c f cur tot s).1 :=
  calm_foldl Prod.fst (fun _ _ => h ..) _ (s, tot)

theorem calm_flushEntry (prt k : Nat) (e : ExmEntry) (tot : Nat × Nat) (s : State) : Calm s (flushEntry prt k e tot s).1 := by
  unfold flushEntry
  split
  · dsimp only
    exact calm_exmDelete ..
  · exact Calm.rfl

theorem answers_execTblFlushp (c : Cmd) (s : State) : Answers s (execTblFlushp c s) := by
  unfold execTblFlushp
  refine answers_next ?_
  refine calm_command fun _ => ?_
  exact (calm_iterRun fun _ _ _ => calm_sweepStep fun _ _ _ _ => calm_flushEntry ..).after <| calm_tblReads ..

theorem calm_ageEntry (home maxAge : Nat) (raced : List Nat) (k : Nat) (e : ExmEntry) (tot : Nat × Nat) (s : State) :
    Calm s (ageEntry home maxAge raced k e tot s).1 := by
  unfold ageEntry
  split
  · exact Calm.rfl
  · split
    · dsimp only
      exact calm_exmCnt ..
    · dsimp only
      exact (calm_exmCnt ..).after <| calm_exmDelete ..

theorem answers_execTblAge (c : Cmd) (raced : List Nat) (s : State) : Answers s (execTblAge c raced s) := by
  unfold execTblAge
  refine answers_next ?_
  refine calm_command fun _ => ?_
  exact (calm_landHits ..).after <| (calm_iterRun fun _ _ _ => calm_sweepStep fun _ _ _ _ => calm_ageEntry ..).after <|
    calm_exmErrors ..

theorem answers_execTblCkpt (c : Cmd) (s : State) : Answers s (execTblCkpt c s) :=
  answers_next <| calm_command fun _ => (calm_fin ..).after <| calm_of_kept rfl

theorem answers_execTableWordRepaired (tile mem addr : Nat) (s : State) : Answers s (execTableWordRepaired tile mem addr s) := by
  unfold execTableWordRepaired
  refine answers_next ?_
  split
  · exact Calm.rfl
  · refine calm_when fun _ => ?_
    exact calm_ite (fun _ => (calm_lpmCnt ..).after <| (calm_report ..).after <| calm_of_kept rfl)
      fun _ => (calm_withExm ..).after <| calm_of_kept rfl

/-! ## Scheduling (R278 to R302) -/

theorem calm_chargePath (l len : Nat) (s : State) : Calm s (chargePath l len s) := by
  unfold chargePath
  split
  · exact (calm_setNode ..).after <| (calm_setNode ..).after <| calm_setNode ..
  · exact Calm.rfl

theorem calm_creditPath (l bytes : Nat) (s : State) : Calm s (creditPath l bytes s) := by
  unfold creditPath
  split
  · exact (calm_setNode ..).after <| (calm_setNode ..).after <| calm_setNode ..
  · exact Calm.rfl

theorem calm_pullStripe (a : Asm) (ssn : Nat) (s : State) : Calm s (pullStripe a ssn s) :=
  (calm_each fun _ _ => calm_send ..).after <| (calm_depthSub ..).after <| calm_of_kept rfl

theorem calm_pumpFrame (t : Nat) (n : Notice) : ∀ (k : Nat) (s : State), Calm s (pumpFrame t n k s)
  | 0, _ => Calm.rfl
  | k + 1, s => by
    unfold pumpFrame
    split
    · split
      · exact calm_ite (fun _ => (calm_pumpFrame t n k _).after <| calm_pullStripe ..) fun _ => Calm.rfl
      · exact Calm.rfl
    · exact Calm.rfl

theorem calm_pumpPulls (t : Nat) (s : State) : Calm s (pumpPulls t s) := calm_each fun _ _ => calm_pumpFrame ..

theorem calm_beginPull {t p cls : Nat} {n : Notice} {u : PoolUser} {tag : Nat} {s v : State}
    (e : beginPull t p cls n u tag s = some v) : Calm s v := by
  unfold beginPull at e
  split at e
  · cases e
  · obtain rfl := Option.some.inj e
    exact (calm_pumpPulls ..).after <| Calm.after (calm_withFab rfl) <| calm_allocFor ‹_›

theorem calm_storeDeficits (p level : Nat) (l : List Child) (s : State) : Calm s (storeDeficits p level l s) :=
  calm_each fun _ _ => calm_ite (fun _ => calm_setPort ..) fun _ => calm_setNode ..

theorem calm_chooseAt (p level parentKey : Nat) (l : List Child) (s : State) : Calm s (chooseAt p level parentKey l s).1 := by
  unfold chooseAt
  dsimp only
  split
  · exact Calm.rfl
  · split
    · exact Calm.rfl
    · dsimp only
      exact (calm_withSch ..).after <| calm_storeDeficits ..

theorem calm_walkPort (p : Nat) (s : State) : Calm s (walkPort p s).1 := by
  unfold walkPort
  dsimp only
  split
  · dsimp only
    exact Calm.of_fst ‹_› <| calm_chooseAt ..
  · split
    · dsimp only
      exact Calm.of_fst ‹_› <| calm_chooseAt ..
    · split
      · dsimp only
        exact Calm.of_fst ‹_› <| (calm_chooseAt ..).after <| Calm.of_fst ‹_› <| calm_chooseAt ..
      · split
        · dsimp only
          exact Calm.of_fst ‹_› <| (calm_chooseAt ..).after <| Calm.of_fst ‹_› <| (calm_chooseAt ..).after <| Calm.of_fst ‹_› <|
            calm_chooseAt ..
        · dsimp only
          exact Calm.of_fst ‹_› <| (calm_chooseAt ..).after <| Calm.of_fst ‹_› <| (calm_chooseAt ..).after <| Calm.of_fst ‹_› <|
            calm_chooseAt ..

theorem calm_takeCopy (p c : Nat) (s : State) : Calm s (takeCopy p c s) := by
  unfold takeCopy
  split
  · exact Calm.rfl
  · exact calm_ite (fun _ => (calm_dropCopy ..).after <| calm_setPort ..) fun _ => (calm_setPort ..).after <|
      (calm_tileCnt ..).after <| calm_setPort ..

theorem calm_takeLeaf (p l : Nat) (s : State) : Calm s (takeLeaf p l s) := by
  unfold takeLeaf
  split
  · exact Calm.rfl
  · refine calm_ite (fun _ => (calm_dropLeaf ..).after <| calm_evictNote ..) fun _ => ?_
    split
    · exact Calm.rfl
    · exact (calm_setPort ..).after <| (calm_tileCnt ..).after <| (calm_chargePath ..).after <| calm_beginPull ‹_›

theorem calm_takePick (p : Nat) (k : Pick) (s : State) : Calm s (takePick p k s) := by
  unfold takePick
  split
  · exact calm_takeLeaf ..
  · exact calm_takeCopy ..

theorem calm_unpark (p : Nat) (s : State) : Calm s (unpark p s) :=
  calm_each fun _ _ => calm_ite (fun _ => calm_setPort ..) fun _ => Calm.rfl

theorem calm_selectN (p : Nat) : ∀ (n : Nat) (s : State), Calm s (selectN p n s)
  | 0, _ => Calm.rfl
  | n + 1, s => by
    unfold selectN
    split
    · exact (calm_selectN p n _).after <| (calm_takePick ..).after <| Calm.of_fst ‹_› <| (calm_walkPort ..).after <| calm_unpark ..
    · exact calm_unpark ..

theorem calm_passOver (t : Nat) (n : Notice) (s : State) : Calm s (passOver t n s) :=
  calm_when fun _ => (calm_tileCnt ..).after <| calm_of_kept rfl

theorem calm_mcGive (t bytes : Nat) (s : State) : Calm s (mcGive t bytes s) := calm_of_kept rfl

theorem calm_pullRepl (t : Nat) : ∀ (n : Nat) (s : State), Calm s (pullRepl t n s)
  | 0, _ => Calm.rfl
  | n + 1, s => by
    unfold pullRepl
    dsimp only
    generalize hu : forEach _ (passOver t) s = u
    have passed : Calm s u := hu ▸ calm_each (calm_passOver t)
    split
    · exact passed
    · refine calm_ite (fun _ => passed) fun _ => ?_
      split
      · exact passed
      · exact (calm_pullRepl t n _).after <| (calm_tileCnt ..).after <| (calm_mcGive ..).after <| (calm_beginPull ‹_›).after passed

theorem calm_selectRepl (t : Nat) (s : State) : Calm s (selectRepl t s) := calm_pullRepl ..

theorem calm_selectOwn (p : Nat) (s : State) : Calm s (selectOwn p s) :=
  (calm_each fun _ _ => calm_passOver ..).after <| calm_selectN ..

theorem calm_retryWaits (t : Nat) (s : State) : Calm s (retryWaits t s) :=
  (calm_each fun _ _ => calm_selectOwn ..).after <| calm_when fun _ => calm_selectRepl ..

theorem calm_selectPort (p : Nat) (s : State) : Calm s (selectPort p s) := (calm_retryWaits ..).after <| calm_selectOwn ..

theorem calm_selectLeaf (l : Nat) (s : State) : Calm s (selectLeaf l s) := by
  unfold selectLeaf
  split
  · exact calm_selectPort ..
  · exact Calm.rfl

theorem calm_selectTile (t : Nat) (s : State) : Calm s (selectTile t s) := calm_each fun _ _ => calm_selectPort ..

theorem answers_execMcLimiterRefill (tile : Nat) (s : State) : Answers s (execMcLimiterRefill tile s) :=
  answers_next <| calm_when fun _ => calm_selectRepl ..

theorem answers_execShaperLeavesRed (level n : Nat) (s : State) : Answers s (execShaperLeavesRed level n s) := by
  unfold execShaperLeavesRed
  refine answers_next ?_
  split
  · exact (calm_selectPort ..).after <| calm_when fun _ => calm_setNode ..
  · exact Calm.rfl

theorem answers_execGateLeadOpening (prt cls : Nat) (s : State) : Answers s (execGateLeadOpening prt cls s) :=
  answers_next <| calm_when fun _ => calm_selectPort ..

theorem calm_setGate (p : Nat) (f : Gate → Gate) (s : State) : Calm s (setGate p f s) := calm_of_kept rfl

theorem calm_setSgate (g : Nat) (f : Gate → Gate) (s : State) : Calm s (setSgate g f s) := calm_of_kept rfl

theorem answers_execGateEntryChange (prt : Nat) (s : State) : Answers s (execGateEntryChange prt s) :=
  answers_next <| calm_when fun _ => (calm_selectPort ..).after <| calm_setGate ..

theorem calm_alignedNow (k : Nat) (s : State) : Calm s (alignedNow k s) := calm_when fun _ => calm_setRealign ..

theorem answers_execGateSwitch (prt : Nat) (s : State) : Answers s (execGateSwitch prt s) :=
  answers_next <| calm_when fun _ => (calm_selectPort ..).after <| (calm_alignedNow ..).after <| calm_setGate ..

theorem calm_selectBound (g : Nat) (s : State) : Calm s (selectBound g s) := by
  unfold selectBound
  split
  · exact calm_selectPort ..
  · exact Calm.rfl

theorem answers_execStreamGateEntryChange (g : Nat) (s : State) : Answers s (execStreamGateEntryChange g s) :=
  answers_next <| calm_when fun _ => (calm_selectBound ..).after <| calm_setSgate ..

theorem answers_execStreamGateSwitch (g : Nat) (s : State) : Answers s (execStreamGateSwitch g s) :=
  answers_next <| calm_when fun _ => (calm_selectBound ..).after <| (calm_alignedNow ..).after <| calm_setSgate ..

theorem calm_setStream (i : Nat) (f : Frer → Frer) (s : State) : Calm s (setStream i f s) := calm_of_kept rfl

theorem answers_execFrerReset (stream : Nat) (s : State) : Answers s (execFrerReset stream s) :=
  answers_next <| calm_when fun _ => (calm_streamCnt ..).after <| calm_setStream ..

theorem calm_telRecord (req : Nat) (w0 w1 : Word) (body : List Word) (s : State) : Calm s (telRecord req w0 w1 body s) := by
  unfold telRecord
  split
  · exact calm_ite (fun _ => calm_ownerCnt ..) fun _ => (calm_ownerCnt ..).after <| calm_pushEntry ..
  · exact calm_ownerCnt ..

theorem answers_execDepthSample (tile : Nat) (s : State) : Answers s (execDepthSample tile s) := by
  unfold execDepthSample
  refine answers_next ?_
  refine calm_when fun _ => ?_
  split
  · exact (calm_telRecord ..).after <| calm_of_kept rfl
  · exact Calm.rfl

/-! ## Rule slabs (R175 to R186) -/

theorem calm_putRow (gp slab row : Nat) (r : TcmRow) (s : State) : Calm s (putRow gp slab row r s) := calm_of_kept rfl

theorem calm_setBank (t mode groups : Nat) (s : State) : Calm s (setBank t mode groups s) := calm_rput ..

theorem calm_throttleRise (t : Nat) (reading : Int) (s : State) : Calm s (throttleRise t reading s) :=
  calm_ite (fun _ => calm_rset ..) fun _ => Calm.rfl

theorem answers_execThrottleFall (tile : Nat) (s : State) : Answers s (execThrottleFall tile s) :=
  answers_next <| calm_when fun _ => (calm_withTcm ..).after <| calm_rset ..

theorem answers_execSlabGroupAwake (tile group : Nat) (s : State) : Answers s (execSlabGroupAwake tile group s) :=
  answers_next <| calm_of_kept rfl

theorem calm_bankSelWrite (t : Nat) (val : Word) (s : State) : Calm s (bankSelWrite t val s) := by
  unfold bankSelWrite
  refine calm_ite (fun _ => calm_rset ..) fun _ => ?_
  exact calm_ite (fun _ => (calm_rset ..).after <| (calm_withTcm ..).after <| calm_setBank ..) fun _ => calm_setBank ..

theorem answers_execTcmBankSelWrite (tile : Nat) (val : Word) (s : State) : Answers s (execTcmBankSelWrite tile val s) :=
  answers_next <| calm_when fun _ => calm_bankSelWrite ..

theorem calm_fenceSlabs (t : Nat) (l : List (Nat × Nat)) (s : State) : Calm s (fenceSlabs t l s) :=
  (calm_when fun _ => calm_rset ..).after <| calm_each fun _ _ => calm_report ..

theorem calm_clearValid (t : Nat) (groups : List Nat) (s : State) : Calm s (clearValid t groups s) := calm_of_kept rfl

theorem answers_execSlabSelfTestEnd (tile : Nat) (failed : List (Nat × Nat)) (s : State) :
    Answers s (execSlabSelfTestEnd tile failed s) := by
  unfold execSlabSelfTestEnd
  refine answers_next ?_
  refine calm_when fun _ => ?_
  refine (calm_fenceSlabs ..).after <| (calm_rset ..).after ?_
  split
  · exact calm_ite (fun _ => (calm_rput ..).after <| calm_clearValid ..) fun _ => calm_clearValid ..
  · exact calm_clearValid ..

theorem calm_loadRows (f : Nat → Nat → Bool) (s : State) : Calm s (loadRows f s) := calm_of_kept rfl

theorem calm_tcmWriteAll (c : Cmd) (slab : Nat → Nat) (f : Nat → TcmRow → TcmRow) (s : State) : Calm s (tcmWriteAll c slab f s) :=
  calm_each fun _ _ => calm_putRow ..

theorem answers_execTcmWr (c : Cmd) (s : State) : Answers s (execTcmWr c s) :=
  answers_next <| calm_command fun _ => calm_ite (fun _ => calm_fin ..) fun _ => (calm_fin ..).after <| calm_tcmWriteAll ..

theorem answers_execTcmVal (c : Cmd) (s : State) : Answers s (execTcmVal c s) :=
  answers_next <| calm_command fun _ => (calm_fin ..).after <| calm_tcmWriteAll ..

theorem answers_execTcmAct (c : Cmd) (s : State) : Answers s (execTcmAct c s) :=
  answers_next <| calm_command fun _ => (calm_fin ..).after <| calm_tcmWriteAll ..

theorem answers_execTcmRd (c : Cmd) (s : State) : Answers s (execTcmRd c s) := answers_next <| calm_command fun _ => calm_fin ..

theorem answers_execTcmBase (c : Cmd) (s : State) : Answers s (execTcmBase c s) :=
  answers_next <| calm_command fun _ => (calm_fin ..).after <| calm_loadRows ..

/-! ## The action stage (R187 to R210) -/

theorem calm_rcount (e : RunEnv) (i : Nat) (r : Run) : Calm r.s (rcount e i r).s := calm_pipeCnt ..

theorem calm_rdrop (r : Run) : Calm r.s (rdrop r).s := Calm.rfl

theorem calm_rtrap (e : RunEnv) (cls : Nat) (r : Run) : Calm r.s (rtrap e cls r).s := by
  unfold rtrap
  split
  · exact Calm.rfl
  · exact (calm_rdrop ..).after <| calm_rcount ..

theorem calm_capture (g p trigger : Nat) (bytes : List Byte) (md : BitVec 256) (s : State) :
    Calm s (capture g p trigger bytes md s) := by
  unfold capture
  dsimp only
  split
  · exact calm_ownerCnt ..
  · refine calm_ite (fun _ => calm_ownerCnt ..) fun _ => ?_
    split
    · exact (calm_ownerCnt ..).after <| calm_tileCnt ..
    · exact (calm_ownerCnt ..).after <| (calm_bufRelease ..).after <| (calm_each fun _ _ => calm_pushEntry ..).after <|
        calm_allocFor ‹_›

theorem calm_setNext (e : RunEnv) (i : Nat) (r : Run) : Calm r.s (setNext e i r).s := by
  unfold setNext
  refine calm_runIte (fun _ => ?_) fun _ => Calm.rfl
  exact calm_runIte (fun _ => (calm_rdrop ..).after <| (calm_rcount ..).after <| Calm.rfl) fun _ => Calm.rfl

theorem calm_group_ (e : RunEnv) (g : Nat) (r : Run) : Calm r.s (follow.group_ e g r).s := by
  unfold follow.group_
  refine calm_runIte (fun _ => (calm_rdrop ..).after <| calm_rcount ..) fun _ => ?_
  refine calm_runIte (fun _ => ?_) fun _ => ?_
  · exact (calm_setNext ..).after <| calm_runIte (fun _ => (calm_rcount ..).after <| Calm.rfl) fun _ => Calm.rfl
  · refine calm_runIte (fun _ => ?_) fun _ => ?_
    · refine (calm_setNext ..).after <| calm_runIte (fun _ => ?_) fun _ => calm_runIte (fun _ => (calm_rcount ..).after <|
        Calm.rfl) fun _ => Calm.rfl
      exact (calm_rcount ..).after <| calm_runIte (fun _ => (calm_rcount ..).after <| Calm.rfl) fun _ => Calm.rfl
    · refine (calm_rdrop ..).after <| (calm_groupCnt ..).after <| calm_runIte (fun _ => ?_) fun _ => calm_runIte (fun _ =>
        (calm_rcount ..).after <| Calm.rfl) fun _ => Calm.rfl
      exact (calm_rcount ..).after <| calm_runIte (fun _ => (calm_rcount ..).after <| Calm.rfl) fun _ => Calm.rfl

theorem calm_follow (e : RunEnv) (i : Nat) (r : Run) : Calm r.s (follow e i r).s := by
  unfold follow
  refine calm_runIte (fun _ => (calm_rdrop ..).after <| (calm_rcount ..).after <| Calm.rfl) fun _ => ?_
  split
  · exact (calm_setNext ..).after <| Calm.rfl
  · exact (calm_setNext ..).after <| Calm.rfl
  · exact Calm.rfl
  · exact (calm_group_ ..).after <| Calm.rfl
  · exact (calm_group_ ..).after <| Calm.rfl
  · exact (calm_rdrop ..).after <| (calm_rcount ..).after <| Calm.rfl

theorem calm_followPort (p : Nat) (r : Run) : Calm r.s (followPort p r).s := Calm.rfl

theorem calm_rskip (e : RunEnv) (r : Run) : Calm r.s (rskip e r).s := calm_rcount ..

theorem calm_doPush (e : RunEnv) (tmpl k : Nat) (h : Hd) (after : Bool) (r : Run) : Calm r.s (doPush e tmpl k h after r).s :=
  calm_runIte (fun _ => calm_rskip ..) fun _ => calm_runIte (fun _ => calm_rcount ..) fun _ => Calm.rfl

theorem calm_doPop (e : RunEnv) (n k : Nat) (h : Hd) (r : Run) : Calm r.s (doPop e n k h r).s := by
  unfold doPop
  split
  · exact calm_rskip ..
  · exact Calm.rfl

theorem calm_udpCsum (k : Nat) (h : Hd) (r : Run) : Calm r.s (udpCsum k h r).s := by
  unfold udpCsum
  dsimp only
  split
  · exact Calm.rfl
  · refine calm_runIte (fun _ => Calm.rfl) fun _ => ?_
    refine calm_runIte (fun _ => Calm.rfl) fun _ => ?_
    split <;> exact Calm.rfl

theorem calm_decTtl (e : RunEnv) (form : Nat) (trap : Bool) (cls : Nat) (h : Hd) (r : Run) :
    Calm r.s (decTtl e form trap cls h r).s := by
  unfold decTtl
  refine calm_runIte (fun _ => calm_rskip ..) fun _ => ?_
  refine calm_runIte (fun _ => ?_) fun _ => calm_runIte (fun _ => Calm.rfl) fun _ => Calm.rfl
  exact calm_runIte (fun _ => calm_rtrap ..) fun _ => (calm_rdrop ..).after <| calm_rcount ..

theorem calm_meter (e : RunEnv) (i : Nat) (r : Run) : Calm r.s (meter e i r).s := by
  unfold meter
  refine calm_runIte (fun _ => calm_polCnt ..) fun _ => calm_runIte (fun _ => calm_polCnt ..) fun _ => ?_
  dsimp only
  refine (calm_polCnt ..).after <| (calm_withSch _).after ?_
  split
  · split
    · exact Calm.rfl
    · split <;> exact Calm.rfl
  · exact Calm.rfl

theorem calm_sprinkle (e : RunEnv) (k : Nat) (r : Run) : Calm r.s (sprinkle e k r).s :=
  calm_runIte (fun _ => (calm_capture ..).after <| calm_ite (fun _ => Calm.rfl) fun _ => calm_of_kept rfl) fun _ => calm_ite
    (fun _ => Calm.rfl) fun _ => calm_of_kept rfl

theorem calm_runHd (e : RunEnv) (w k : Nat) (h : Hd) (r : Run) : Calm r.s (runHd e w k h r).s := by
  unfold runHd
  split
  · exact calm_runIte (fun _ => calm_rskip ..) fun _ => Calm.rfl
  · split
    · exact calm_rskip ..
    · exact calm_runIte (fun _ => calm_rskip ..) fun _ => Calm.rfl
  · exact calm_doPush ..
  · exact calm_doPop ..
  · exact calm_decTtl ..
  · exact calm_runIte (fun _ => (calm_udpCsum ..).after <| calm_runIte (fun _ => Calm.rfl) fun _ => Calm.rfl) fun _ => calm_runIte
      (fun _ => Calm.rfl) fun _ => Calm.rfl

theorem calm_runPlain (e : RunEnv) (w : Nat) (r : Run) : Calm r.s (runPlain e w r).s := by
  unfold runPlain
  split
  · split <;> exact Calm.rfl
  · exact calm_meter ..
  · exact (calm_actCnt ..).after <| calm_actCnt ..
  · exact Calm.rfl
  · exact calm_sprinkle ..
  · split
    · exact calm_follow ..
    · split
      · exact calm_follow ..
      · exact calm_followPort ..
      · exact Calm.rfl
  · exact Calm.rfl
  · exact calm_rtrap ..
  · exact calm_rdrop _
  · exact Calm.rfl
  · exact Calm.rfl

theorem calm_runWord (e : RunEnv) (w : Nat) (r : Run) : Calm r.s (runWord e w r).s := by
  unfold runWord
  refine calm_runIte (fun _ => Calm.rfl) fun _ => ?_
  refine calm_runIte (fun _ => Calm.rfl) fun _ => ?_
  refine calm_runIte (fun _ => Calm.rfl) fun _ => ?_
  refine calm_runIte (fun _ => (calm_rdrop ..).after <| (calm_rcount ..).after <| Calm.rfl) fun _ => ?_
  refine calm_runIte (fun _ => ?_) fun _ => (calm_runPlain ..).after <| Calm.rfl
  split
  · exact (calm_rskip ..).after <| Calm.rfl
  · exact (calm_runHd ..).after <| Calm.rfl

theorem calm_runProg (e : RunEnv) (a : Nat) (r : Run) : Calm r.s (runProg e a r).s :=
  calm_runIte (fun _ => Calm.rfl) fun _ => calm_runIte
    (fun _ => calm_runIte (fun _ => Calm.rfl) fun _ => calm_rcount e 2 { r with words := r.words + 1 })
    fun _ => calm_foldl Run.s (fun _ _ => calm_runWord ..) _ r

theorem calm_missAction (e : RunEnv) (m : Nat × Nat) (r : Run) : Calm r.s (missAction e m r).s := by
  unfold missAction
  refine calm_runIte (fun _ => Calm.rfl) fun _ => ?_
  split
  · exact calm_rdrop _
  · exact calm_rtrap ..
  · exact Calm.rfl
  · exact Calm.rfl

theorem calm_runActions (e : RunEnv) (misses : List (Nat × Nat)) (prog : Nat) (tables : List Nat) (r : Run) :
    Calm r.s (runActions e misses prog tables r).s := by
  unfold runActions
  dsimp only
  generalize hu : List.foldl (fun r a => runProg e a r) _ tables = u
  have ran : Calm r.s u.s := hu ▸ (calm_foldl Run.s (fun _ _ => calm_runProg ..) tables _).after <| (calm_runProg ..).after <|
    calm_foldl Run.s (fun _ _ => calm_missAction ..) misses r
  generalize hv : (if u.trunc = true then rcount e 0 u else u) = v
  have counted : Calm r.s v.s := hv ▸ calm_runIte (fun _ => (calm_rcount ..).after ran) fun _ => ran
  refine calm_runIte (fun _ => counted) fun _ => ?_
  split
  · exact (calm_rcount ..).after counted
  · refine calm_runIte (fun _ => ?_) fun _ => ?_
    · refine (calm_rcount ..).after ?_
      split <;> exact counted
    · split <;> exact counted

/-! ## Links (R211 to R222) -/

theorem calm_useLink (t dst kind words : Nat) (s : State) : Calm s (useLink t dst kind words s) :=
  calm_ite (fun _ => Calm.rfl) fun _ => calm_of_kept rfl

theorem calm_ctlTaken (src dst : Nat) (s : State) : Calm s (ctlTaken src dst s) := calm_when fun _ => calm_of_kept rfl

/-! ## Store and step 5 (R214 to R245) -/

theorem calm_discard (t tileIdx leaf : Nat) (leafIdx : Option Nat) (s : State) : Calm s (discard t tileIdx leaf leafIdx s) := by
  unfold discard
  dsimp only
  split
  · exact (calm_leafDrop ..).after <| (calm_ownerCnt ..).after <| calm_tileCnt ..
  · exact (calm_ownerCnt ..).after <| calm_tileCnt ..

theorem calm_gone (f : Frame) (s : State) : Calm s (gone f s) := (calm_frameGone ..).after <| calm_dropFrame ..

theorem calm_dealTo (f : Frame) (dst leaf : Nat) (s : State) : Calm s (dealTo f dst leaf s).2 := by
  unfold dealTo
  dsimp only
  exact (calm_send ..).after <| calm_of_kept rfl

theorem calm_closeStripes (t : Nat) (s : State) : Calm s (closeStripes t s) := calm_of_kept rfl

theorem calm_dealFrame (f : Frame) (s : State) : Calm s (dealFrame f s) :=
  (calm_setFrame ..).after <| calm_foldl (γ := List Deal × State) Prod.snd (fun _ _ => calm_dealTo ..) _ ([], s)

theorem calm_admitFrame (f : Frame) (s : State) : Calm s (admitFrame f s) :=
  calm_ite (fun _ => calm_setFrame ..) fun _ => calm_dealFrame ..

theorem calm_dealAdmitted (t : Nat) (s : State) : Calm s (dealAdmitted t s) :=
  calm_each fun _ _ => calm_ite (fun _ => Calm.rfl) fun _ => calm_dealFrame ..

theorem calm_evictReq (f : Frame) (l : Nat) (s : State) : Calm s (evictReq f l s) :=
  calm_ite (fun _ => (calm_send ..).after <| calm_tileCnt ..) fun _ => (calm_tileCnt ..).after <| (calm_send ..).after <|
    calm_tileCnt ..

theorem calm_pushOut (f : Frame) (attempts lo : Nat) (s : State) : Calm s (pushOut f attempts lo s) := by
  unfold pushOut
  split
  · exact (calm_dealAdmitted ..).after <| (calm_discard ..).after <| calm_gone ..
  · exact (calm_evictReq ..).after <| calm_setFrame ..

theorem calm_admission (f : Frame) (s : State) : Calm s (admission f s) := by
  unfold admission
  refine calm_ite (fun _ => calm_admitFrame ..) fun _ => ?_
  exact calm_ite (fun _ => (calm_pushOut ..).after <| calm_setFrame ..) fun _ => (calm_discard ..).after <| calm_gone ..

theorem calm_generate (f : Frame) (grown : Nat) (s : State) : Calm s (generate f grown s).2 := by
  unfold generate
  split
  · exact Calm.rfl
  · split
    · dsimp only
      exact calm_streamCnt ..
    · dsimp only
      split
      · dsimp only
        exact (calm_streamCnt ..).after <| calm_setStream ..
      · dsimp only
        exact calm_setStream ..

theorem calm_retagTx (fid tag : Nat) (s : State) : Calm s (retagTx fid tag s) := calm_each fun _ _ => calm_setBuf ..

theorem calm_route (f : Frame) (s : State) : Calm s (route f s) := by
  unfold route
  refine calm_ite (fun _ => (calm_ownerCnt ..).after <| (calm_tileCnt ..).after <| calm_gone ..) fun _ => ?_
  refine calm_ite (fun _ => ?_) fun _ => calm_admission ..
  exact calm_ite (fun _ => (calm_setPort ..).after <| (calm_setLeaf ..).after <| calm_setFrame ..)
    fun _ => (calm_admission ..).after <| calm_leafDrop ..

theorem calm_toLeaf (f : Frame) (grown : Nat) (s : State) : Calm s (toLeaf f grown s) :=
  calm_ite (fun _ => (calm_discard ..).after <| calm_gone ..) fun _ => (calm_route ..).after <| (calm_retagTx ..).after <|
    calm_generate ..

theorem calm_countOmitted (t g : Nat) (s : State) : Calm s (countOmitted t g s) := calm_each fun _ _ => calm_mcCnt ..

theorem calm_toGroup (f : Frame) (g grown : Nat) (s : State) : Calm s (toGroup f g grown s) :=
  calm_ite (fun _ => (calm_mcCnt ..).after <| (calm_gone ..).after <| calm_countOmitted ..) fun _ => (calm_admission ..).after <|
    (calm_retagTx ..).after <| (calm_generate ..).after <| calm_countOmitted ..

theorem calm_toEnd (f : Frame) (s : State) : Calm s (toEnd f s) := calm_of_kept rfl

theorem calm_step5 (f : Frame) (d : Dest) (cls grown : Nat) (s : State) : Calm s (step5 f d cls grown s) := by
  unfold step5
  refine calm_ite (fun _ => (calm_toGroup ..).after <| calm_toEnd ..) fun _ => ?_
  split
  · exact (calm_tileCnt ..).after <| (calm_gone ..).after <| calm_toEnd ..
  · exact (calm_toLeaf ..).after <| calm_toEnd ..

theorem calm_mirrorCopy (f : Frame) (sess cls : Nat) (hv : List Hd) (bytes : List Byte) (s : State) :
    Calm s (mirrorCopy f sess cls hv bytes s) := by
  unfold mirrorCopy
  refine calm_ite (fun _ => Calm.rfl) fun _ => ?_
  dsimp only
  split
  · exact calm_tileCnt ..
  · refine calm_ite (fun _ => calm_discard ..) fun _ => ?_
    exact calm_ite (fun _ => calm_tileCnt ..) fun _ => (calm_admission ..).after <| calm_toEnd ..

/-! ## Ingress (R18, R92 to R161) -/

theorem calm_setLearn (l : List Learn) (s : State) : Calm s (setLearn l s) := calm_of_kept rfl

theorem calm_postLearn (l : Learn) (s : State) : Calm s (postLearn l s) := by
  unfold postLearn
  dsimp only
  split
  · exact (calm_ownerCnt ..).after <| (calm_exmCnt ..).after <| (calm_rset ..).after <| calm_setLearn ..
  · exact calm_ite (fun _ => (calm_ownerCnt ..).after <| (calm_exmCnt ..).after <| (calm_rset ..).after <| calm_setLearn ..)
      fun _ => (calm_pushEntry ..).after <| (calm_ownerCnt ..).after <| (calm_exmCnt ..).after <| calm_setLearn ..

theorem calm_learnTrigger (tile table slice owner : Nat) (key : BitVec 128) (kind p : Nat) (ts : Time80) (stored : Option Word)
    (s : State) : Calm s (learnTrigger tile table slice owner key kind p ts stored s) := by
  unfold learnTrigger
  dsimp only
  split
  · exact calm_setLearn ..
  · split
    · exact calm_exmCnt ..
    · exact calm_ite (fun _ => (calm_postLearn ..).after <| calm_setLearn ..) fun _ => calm_setLearn ..

theorem answers_execRaceWindowClose (tile table slice : Nat) (key : BitVec 128) (s : State) :
    Answers s (execRaceWindowClose tile table slice key s) := by
  unfold execRaceWindowClose
  refine answers_next ?_
  split
  · exact calm_postLearn ..
  · exact Calm.rfl

theorem answers_execFilterHoldExpiry (tile table slice : Nat) (key : BitVec 128) (s : State) :
    Answers s (execFilterHoldExpiry tile table slice key s) :=
  answers_next <| calm_setLearn ..

theorem calm_bumpRx (k pn : Nat) (s : State) : Calm s (bumpRx k pn s) := calm_of_kept rfl

theorem calm_arrivesDropped (i : Nat) (fr : Frame) (s : State) : Calm s (arrivesDropped i fr s) :=
  (calm_portCnt ..).after <| calm_of_kept rfl

theorem calm_arrive (fid p : Nat) (f : RxFrame) (s : State) : Calm s (arrive fid p f s) := by
  unfold arrive
  refine calm_ite (fun _ => (calm_arrivesDropped ..).after <| calm_wakePipe ..) fun _ => ?_
  split
  · exact (calm_arrivesDropped ..).after <| calm_wakePipe ..
  · refine calm_ite (fun _ => ?_) fun _ => ?_
    · refine (calm_arrivesDropped ..).after ?_
      split
      · exact calm_ite (fun _ => (calm_bumpRx ..).after <| calm_wakePipe ..) fun _ => calm_wakePipe ..
      · exact calm_wakePipe ..
    · refine calm_ite (fun _ => ?_) fun _ => ?_
      · refine (calm_arrivesDropped ..).after ?_
        split
        · exact calm_ite (fun _ => (calm_bumpRx ..).after <| calm_wakePipe ..) fun _ => calm_wakePipe ..
        · exact calm_wakePipe ..
      · refine (calm_withFrames ..).after ?_
        split
        · exact calm_ite (fun _ => (calm_bumpRx ..).after <| calm_wakePipe ..) fun _ => calm_wakePipe ..
        · exact calm_wakePipe ..

theorem answers_execFrameArrival (fid p : Nat) (f : RxFrame) (s : State) : Answers s (execFrameArrival fid p f s) :=
  answers_next <| calm_ite (fun _ => Calm.rfl) fun _ => calm_ite (fun _ => calm_fabCnt ..) fun _ => calm_when
    fun _ => calm_arrive ..

theorem calm_selectLeaves (l : List Nat) (s : State) : Calm s (selectLeaves l s) :=
  calm_each fun _ _ => calm_ite (fun _ => calm_selectRepl ..) fun _ => calm_selectLeaf ..

theorem calm_purge (fid : Nat) (s : State) : Calm s (purge fid s) :=
  (calm_elim calm_dealAdmitted).after <| Calm.after (calm_withFramesFab rfl) <| calm_each fun _ _ => calm_depthSub ..

theorem calm_tailGood (f : Frame) (s : State) : Calm s (tailGood f s) := by
  unfold tailGood
  dsimp only
  split
  · exact calm_ite (fun _ => (calm_setFrame ..).after <| (calm_setPort ..).after <| calm_of_kept rfl)
      fun _ => (calm_withFrames ..).after <| (calm_setPort ..).after <| calm_of_kept rfl
  · exact (calm_selectLeaves ..).after <| calm_ite (fun _ => (calm_withFrames ..).after <| calm_setFrame ..)
      fun _ => calm_setFrame ..
  · exact calm_of_kept rfl
  · exact calm_setFrame ..

theorem calm_tailBad (f : Frame) (s : State) : Calm s (tailBad f s) := by
  unfold tailBad
  split
  · exact calm_expressBad ..
  · exact calm_expressBad ..
  · exact (calm_selectLeaves ..).after <| calm_purge ..

theorem calm_forTail {fid : Nat} {g : Frame → State → State} {s : State} (h : ∀ f s, Calm s (g f s)) : Calm s (forTail fid g s) := by
  have one (i : Nat) (s : State) : Calm s (match frame? s i with
      | some f => g f s
      | none => s) := by
    split
    · exact h ..
    · exact Calm.rfl
  exact (one ..).after (one ..)

theorem calm_rxCount (f : Frame) (s : State) : Calm s (rxCount f s) :=
  (calm_ownerCnt ..).after <| (calm_ownerCnt ..).after <| (calm_portCnt ..).after <| calm_portCnt ..

theorem calm_tailOf (f : Frame) (s : State) : Calm s (tailOf f s) := by
  unfold tailOf
  dsimp only
  split
  · exact (calm_forTail fun _ _ => calm_tailBad ..).after <| (calm_portCnt ..).after <| (calm_when
      fun _ => calm_pipeCnt ..).after <| calm_rxCount ..
  · refine calm_ite (fun _ => (calm_forTail fun _ _ => calm_tailBad ..).after <| (calm_when fun _ => calm_pipeCnt ..).after <|
      calm_rxCount ..) fun _ => ?_
    exact calm_ite (fun _ => (calm_forTail fun _ _ => calm_tailBad ..).after <| (calm_portCnt ..).after <| (calm_when
      fun _ => calm_pipeCnt ..).after <| calm_rxCount ..) fun _ => (calm_forTail fun _ _ => calm_tailGood ..).after <|
      (calm_setFrame ..).after <| (calm_when fun _ => calm_portCnt ..).after <| (calm_portCnt ..).after <| (calm_when
      fun _ => calm_pipeCnt ..).after <| calm_rxCount ..

theorem answers_execFrameTail (fid : Nat) (s : State) : Answers s (execFrameTail fid s) := by
  unfold execFrameTail
  refine answers_next ?_
  split
  · exact Calm.rfl
  · exact calm_when fun _ => calm_tailOf ..

theorem calm_stampHit (t k : Nat) (s : State) : Calm s (stampHit t k s) := calm_of_kept rfl

theorem calm_noteHeld (tile table slice : Nat) (key : BitVec 128) (p : Nat) (ts : Time80) (s : State) :
    Calm s (noteHeld tile table slice key p ts s) :=
  calm_setLearn ..

theorem calm_noteHit (t k tick : Nat) (late : Bool) (s : State) : Calm s (noteHit t k tick late s) :=
  calm_ite (fun _ => calm_of_kept rfl) fun _ => calm_stampHit ..

theorem calm_exmLookup (f : Frame) (hv : List Hd) (md : BitVec 256) (l : ExmLookup) (ue : List Nat) (late gap : Bool) (s : State)
    : Calm s (exmLookup f hv md l ue late gap s).2 := by
  unfold exmLookup
  dsimp only
  split
  · exact Calm.rfl
  · split
    · dsimp only
      exact calm_exmCnt ..
    · split
      · dsimp only
        exact calm_exmCnt ..
      · split
        · dsimp only
          exact calm_ite (fun _ => (calm_learnTrigger ..).after <| (calm_exmCnt ..).after <| (calm_exmErrors ..).after <|
            calm_landHits _) fun _ => (calm_exmCnt ..).after <| (calm_exmErrors ..).after <| calm_landHits _
        · dsimp only
          refine calm_ite (fun _ => (calm_learnTrigger ..).after <| (calm_when fun _ => calm_noteHit ..).after <|
            (calm_exmCnt ..).after <| (calm_exmErrors ..).after <| calm_landHits _) fun _ => ?_
          exact calm_ite (fun _ => (calm_noteHeld ..).after <| (calm_when fun _ => calm_noteHit ..).after <|
            (calm_exmCnt ..).after <| (calm_exmErrors ..).after <| calm_landHits _) fun _ => (calm_when
            fun _ => calm_noteHit ..).after <| (calm_exmCnt ..).after <| (calm_exmErrors ..).after <| calm_landHits _

theorem calm_lpmLookup (f : Frame) (hv : List Hd) (md : BitVec 256) (l : LpmLookup) (ue : List (Nat × Nat)) (s : State) :
    Calm s (lpmLookup f hv md l ue s).2 := by
  unfold lpmLookup
  dsimp only
  split
  · exact Calm.rfl
  · split
    · dsimp only
      exact (calm_lpmCnt ..).after <| calm_lpmCnt ..
    · split
      · dsimp only
        exact (calm_lpmCnt ..).after <| calm_lpmCnt ..
      · split
        · dsimp only
          exact Calm.of_snd ‹_› <| (calm_lookTrie ..).after <| calm_lpmCnt ..
        · dsimp only
          exact (calm_lpmCnt ..).after <| Calm.of_snd ‹_› <| (calm_lookTrie ..).after <| calm_lpmCnt ..

theorem calm_searchTables (f : Frame) (hv : List Hd) (md : BitVec 256) (err : List (Nat × Nat)) (s : State) :
    Calm s (searchTables f hv md err s).1 := by
  refine calm_foldl Prod.fst (fun a k => ?_) (List.range 4) (s, [])
  dsimp only
  split
  · exact Calm.rfl
  · split
    · exact calm_pipeCnt ..
    · split <;> exact calm_pipeCnt ..

theorem calm_countParse (f : Frame) (r : Parsed) (s : State) : Calm s (countParse f r s) :=
  (calm_when fun _ => calm_pipeCnt ..).after <| (calm_each fun _ _ => calm_pipeCnt ..).after <| calm_pipeCnt ..

theorem calm_trapFrame (f : Frame) (cls : Nat) (md : BitVec 256) (s : State) : Calm s (trapFrame f cls md s) := by
  unfold trapFrame
  split
  · exact (calm_pipeCnt ..).after <| calm_gone ..
  · exact (calm_step5 ..).after <| calm_pipeCnt ..

theorem calm_runLookups (f : Frame) (hv : List Hd) (md : BitVec 256) (x : Findings) (s : State) :
    Calm s (runLookups f hv md x s).2.2 :=
  (calm_foldl (γ := List (Option RegV) × List (Nat × Nat) × State) (·.2.2) (fun _ _ => calm_lpmLookup ..) _ _).after <|
    calm_foldl (γ := List (Option RegV) × List (Nat × Nat) × State) (·.2.2) (fun _ _ => calm_exmLookup ..) _ ([], [], s)

theorem calm_forwardFrame (f : Frame) (r : Parsed) (md : BitVec 256) (x : Findings) (s : State) : Calm s (forwardFrame f r md x s) := by
  unfold forwardFrame
  dsimp only
  generalize hl : runLookups f _ md x s = l
  have looked : Calm s l.2.2 := hl ▸ calm_runLookups ..
  generalize ht : searchTables f _ md _ l.2.2 = t
  have searched : Calm s t.1 := Calm.after (ht ▸ calm_searchTables ..) looked
  generalize hu : forEach _ _ t.1 = u
  have reported : Calm s u := Calm.after (hu ▸ calm_each fun _ _ => calm_report ..) searched
  generalize ho : runActions _ _ _ _ _ = o
  have acted : Calm s o.s := by
    rw [← ho]
    exact (calm_runActions ..).after reported
  refine Calm.after (calm_when fun _ => calm_mirrorCopy ..) <| calm_ite (fun _ => ?_) fun _ => ?_
  · exact (calm_gone ..).after acted
  · exact (calm_step5 ..).after acted

theorem answers_execHeaderCellsPresent (fid present : Nat) (x : Findings) (s : State) :
    Answers s (execHeaderCellsPresent fid present x s) := by
  unfold execHeaderCellsPresent
  refine answers_next ?_
  split
  · exact Calm.rfl
  · refine calm_ite (fun _ => Calm.rfl) fun _ => ?_
    refine calm_ite (fun _ => (calm_gone ..).after <| calm_portCnt ..) fun _ => ?_
    refine calm_ite (fun _ => (calm_pipeCnt ..).after <| (calm_gone ..).after <| (calm_report ..).after <| calm_rset ..)
      fun _ => ?_
    dsimp only
    split
    · exact (calm_pipeCnt ..).after <| (calm_gone ..).after <| (calm_countParse ..).after <| calm_setFrame ..
    · exact (calm_trapFrame ..).after <| (calm_countParse ..).after <| calm_setFrame ..
    · exact (calm_pipeCnt ..).after <| (calm_gone ..).after <| (calm_capture ..).after <| (calm_countParse ..).after <|
        calm_setFrame ..
    · exact (calm_forwardFrame ..).after <| (calm_countParse ..).after <| calm_setFrame ..

/-! ## The plait (R211 to R242) -/

theorem calm_takeWire {src dst : Nat} {k : Msg → Bool} {s v : State} {w : Wire} (e : takeWire src dst k s = some (w, v)) : Calm s v := by
  unfold takeWire at e
  dsimp only at e
  split at e
  · cases e
  · obtain ⟨-, rfl⟩ := Prod.mk.inj (Option.some.inj e)
    exact calm_of_kept rfl

theorem calm_linkCrc (src dst : Nat) (s : State) : Calm s (linkCrc src dst s) := (calm_tileCnt ..).after <| calm_of_kept rfl

theorem calm_receiveOr {src dst : Nat} {ok : Bool} {k : Msg → Bool} {bad f : Msg → State → State} {s : State}
    (hb : ∀ m s, Calm s (bad m s)) (hf : ∀ m s, Calm s (f m s)) : Calm s (receiveOr src dst ok k bad f s) := by
  unfold receiveOr
  split
  · exact Calm.rfl
  · have taken := calm_takeWire ‹_›
    have counted := fun c => taken.trans (calm_iff c (calm_ctlTaken src dst) _)
    refine calm_ite (fun _ => taken) fun _ => calm_ite (fun _ => Calm.rfl) fun _ => ?_
    exact calm_ite (fun _ => (hf ..).after (counted _)) fun _ => (hb ..).after <| (calm_linkCrc ..).after (counted _)

theorem calm_receive {src dst : Nat} {ok : Bool} {k : Msg → Bool} {f : Msg → State → State} {s : State}
    (h : ∀ m s, Calm s (f m s)) :
    Calm s (receive src dst ok k f s) := calm_receiveOr (fun _ _ => Calm.rfl) h

theorem answers_execExpressLaunch (fid : Nat) (s : State) : Answers s (execExpressLaunch fid s) := by
  unfold execExpressLaunch
  refine answers_next ?_
  split
  · exact calm_ite (fun _ => (calm_send ..).after <| (calm_setFrame ..).after <| calm_useLink ..) fun _ => Calm.rfl
  · exact Calm.rfl

theorem calm_startTx (p : Nat) (sl : Slot) (s : State) : Calm s (startTx p sl s) :=
  (calm_firstForwarded ..).after <| (calm_setPort ..).after <| calm_setLeaf ..

theorem calm_parkExpress (p t : Nat) (sl : Slot) (s : State) : Calm s (parkExpress p t sl s) := by
  unfold parkExpress
  split
  · exact (calm_selectPort ..).after <| (calm_tileCnt ..).after <| (calm_setPort ..).after <| (calm_writeMem ..).after <|
      calm_allocFor ‹_›
  · exact (calm_selectPort ..).after <| (calm_discard ..).after <| (calm_setLeaf ..).after <| calm_frameGone ..

theorem calm_endLaunched (fid : Nat) (s : State) : Calm s (endLaunched fid s) := calm_of_kept rfl

theorem calm_arriveExpress (dst : Nat) (m : Msg) (s : State) : Calm s (arriveExpress dst m s) := by
  unfold arriveExpress
  split
  · refine calm_ite (fun _ => (calm_dropLeaf ..).after <| (calm_setLeaf ..).after <| (calm_frameGone ..).after <|
      (calm_setPort ..).after <| calm_endLaunched ..) fun _ => ?_
    exact calm_ite (fun _ => (calm_selectPort ..).after <| (calm_startTx ..).after <| (calm_setPort ..).after <|
      calm_endLaunched ..) fun _ => (calm_parkExpress ..).after <| (calm_setPort ..).after <| calm_endLaunched ..
  · exact Calm.rfl

theorem calm_badExpress (m : Msg) (s : State) : Calm s (badExpress m s) := by
  unfold badExpress
  split
  · split
    · exact calm_expressLost ..
    · exact Calm.rfl
  · exact Calm.rfl

theorem answers_execExpressArrival (src : LinkEnd) (dst : Nat) (s : State) : Answers s (execExpressArrival src dst s) := by
  unfold execExpressArrival
  refine answers_next ?_
  dsimp only
  split
  · exact calm_ite (fun _ => Calm.rfl) fun _ => calm_receiveOr (fun _ _ => calm_badExpress ..) fun _ _ => calm_arriveExpress ..
  · exact Calm.rfl

theorem calm_spreadCell (f : Frame) (d : Deal) (c : Cell) (s : State) : Calm s (spreadCell f d c s) :=
  calm_ite (fun _ => (calm_tileCnt ..).after <| (calm_when fun _ => calm_tileCnt ..).after <| calm_of_kept rfl)
    fun _ => (calm_when fun _ => calm_tileCnt ..).after <| (calm_send ..).after <| (calm_useLink ..).after <| (calm_when
    fun _ => calm_tileCnt ..).after <| calm_of_kept rfl

theorem answers_execCellSpread (fid : Nat) (s : State) : Answers s (execCellSpread fid s) := by
  unfold execCellSpread
  refine answers_next ?_
  split
  · refine calm_ite (fun _ => ?_) fun _ => Calm.rfl
    split
    · split
      · exact calm_spreadCell ..
      · exact Calm.rfl
    · exact Calm.rfl
  · exact Calm.rfl

theorem calm_addHeld (h : Held) (s : State) : Calm s (addHeld h s) := (calm_guardPeak ..).after <| calm_of_kept rfl

theorem calm_placeCell (t : Nat) (c : Cell) (s : State) : Calm s (placeCell t c s) :=
  calm_ite (fun _ => (calm_pumpDram ..).after <| (calm_tileCnt ..).after <| (calm_addHeld ..).after <| calm_of_kept rfl)
    fun _ => calm_ite (fun _ => calm_tileCnt ..) fun _ => calm_addHeld ..

theorem calm_arriveCell (dst : Nat) (m : Msg) (s : State) : Calm s (arriveCell dst m s) := by
  unfold arriveCell
  split
  · exact calm_ite (fun _ => calm_countFlushed ..) fun _ => calm_ite (fun _ => calm_tileCnt ..) fun _ => calm_placeCell ..
  · exact Calm.rfl

theorem answers_execCellArrival (src dst : Nat) (crcOk : Bool) (s : State) : Answers s (execCellArrival src dst crcOk s) :=
  answers_next <| calm_receive fun _ _ => calm_arriveCell ..

theorem calm_spillWritten (t : Nat) (h : Held) (i : Nat) (lost : Bool) (s : State) : Calm s (spillWritten t h i lost s) :=
  Calm.after (calm_withFab rfl) <| calm_ite (fun _ => Calm.rfl) fun _ => calm_writeMem ..

theorem answers_execSpillWriteDone (w : SpillWrite) (s : State) : Answers s (execSpillWriteDone w s) := by
  unfold execSpillWriteDone
  refine answers_next ?_
  split
  · exact Calm.rfl
  · exact (calm_pumpDram ..).after <| (calm_spillWritten ..).after <| calm_writeCell ..

theorem calm_arriveNotice (dst : Nat) (m : Msg) (s : State) : Calm s (arriveNotice dst m s) := by
  unfold arriveNotice
  split
  · refine calm_ite (fun _ => (calm_selectRepl ..).after <| (calm_setLeaf ..).after <| calm_of_kept rfl) fun _ => ?_
    split
    · exact calm_ite (fun _ => (calm_dropLeaf ..).after <| (calm_evictNote ..).after <| (calm_setLeaf ..).after <| calm_of_kept
        rfl) fun _ => (calm_selectPort ..).after <| (calm_setLeaf ..).after <| calm_of_kept rfl
    · exact (calm_setLeaf ..).after <| calm_of_kept rfl
  · exact Calm.rfl

theorem answers_execNoticeReceive (src dst : Nat) (crcOk : Bool) (s : State) : Answers s (execNoticeReceive src dst crcOk s) :=
  answers_next <| calm_receive fun _ _ => calm_arriveNotice ..

theorem calm_arrivePull (src dst : Nat) (m : Msg) (s : State) : Calm s (arrivePull src dst m s) := by
  unfold arrivePull
  split
  · refine calm_ite (fun _ => calm_tileCnt ..) fun _ => ?_
    split
    · exact Calm.rfl
    · exact calm_ite (fun _ => (calm_pumpDram ..).after <| calm_of_kept rfl) fun _ => calm_of_kept rfl
  · exact Calm.rfl

theorem answers_execPullReceive (src dst : Nat) (crcOk : Bool) (s : State) : Answers s (execPullReceive src dst crcOk s) :=
  answers_next <| calm_receive fun _ _ => calm_arrivePull ..

theorem answers_execReturnSend (tile dst : Nat) (s : State) : Answers s (execReturnSend tile dst s) := by
  unfold execReturnSend
  refine answers_next ?_
  refine calm_ite (fun _ => Calm.rfl) fun _ => ?_
  split
  · exact calm_ite (fun _ => Calm.rfl) fun _ => (calm_when fun _ => calm_tileCnt ..).after <| (calm_send ..).after <|
      (calm_useLink ..).after <| calm_of_kept rfl
  · split
    · exact calm_ite (fun _ => Calm.rfl) fun _ => (calm_send ..).after <| (calm_useLink ..).after <| calm_of_kept rfl
    · exact Calm.rfl

theorem calm_setAsm (k : Asm → Bool) (f : Asm → Asm) (s : State) : Calm s (setAsm k f s) := calm_of_kept rfl

theorem calm_settle (t : Nat) (x : Nat × Nat) (k : Asm → Bool) (f : Asm → Asm) (s : State) : Calm s (settle t x k f s) :=
  (calm_pumpPulls ..).after <| calm_setAsm ..

theorem calm_firstKnown (a : Asm) (c : Cell) (s : State) : Calm s (firstKnown a c s) := calm_when fun _ => calm_creditPath ..

theorem calm_arriveReturn (dst : Nat) (m : Msg) (s : State) : Calm s (arriveReturn dst m s) := by
  unfold arriveReturn
  split
  · dsimp only
    split
    · exact calm_tileCnt ..
    · exact (calm_settle ..).after <| calm_when fun _ => calm_firstKnown ..
  · dsimp only
    split
    · exact calm_tileCnt ..
    · exact calm_settle ..
  · exact Calm.rfl

theorem calm_missPosition (t src leaf ssn pos : Nat) (s : State) : Calm s (missPosition t src leaf ssn pos s) := calm_settle ..

theorem calm_badReturn (dst : Nat) (m : Msg) (s : State) : Calm s (badReturn dst m s) := by
  unfold badReturn
  split
  · exact calm_missPosition ..
  · exact calm_missPosition ..
  · exact Calm.rfl

theorem answers_execReturnArrival (src dst : Nat) (crcOk : Bool) (s : State) : Answers s (execReturnArrival src dst crcOk s) :=
  answers_next <| calm_receiveOr (fun _ _ => calm_badReturn ..) fun _ _ => calm_arriveReturn ..

theorem answers_execReseqTimeout (tile src leaf ssn pos : Nat) (s : State) :
    Answers s (execReseqTimeout tile src leaf ssn pos s) :=
  answers_next <| calm_when fun _ => (calm_tileCnt ..).after <| calm_missPosition ..

theorem calm_arriveEvictReq (src dst : Nat) (m : Msg) (s : State) : Calm s (arriveEvictReq src dst m s) := by
  unfold arriveEvictReq
  split
  · split
    · exact (calm_dropLeaf ..).after <| calm_evictNote ..
    · exact (calm_tileCnt ..).after <| calm_send ..
  · exact Calm.rfl

theorem answers_execEvictReqReceive (src dst : Nat) (crcOk : Bool) (s : State) :
    Answers s (execEvictReqReceive src dst crcOk s) :=
  answers_next <| calm_receive fun _ _ => calm_arriveEvictReq ..

theorem calm_arriveEvict (dst : Nat) (m : Msg) (s : State) : Calm s (arriveEvict dst m s) := by
  unfold arriveEvict
  split
  · exact calm_of_kept rfl
  · exact Calm.rfl

theorem answers_execEvictReceive (src dst : Nat) (crcOk : Bool) (s : State) : Answers s (execEvictReceive src dst crcOk s) :=
  answers_next <| calm_receive fun _ _ => calm_arriveEvict ..

theorem calm_arriveNack (dst : Nat) (m : Msg) (s : State) : Calm s (arriveNack dst m s) := by
  unfold arriveNack
  split
  · split
    · split
      · exact calm_pushOut ..
      · exact Calm.rfl
    · exact Calm.rfl
  · exact Calm.rfl

theorem answers_execEvictNackReceive (src dst : Nat) (crcOk : Bool) (s : State) :
    Answers s (execEvictNackReceive src dst crcOk s) :=
  answers_next <| calm_receive fun _ _ => calm_arriveNack ..

theorem answers_execPushoutTimeout (fid : Nat) (s : State) : Answers s (execPushoutTimeout fid s) := by
  unfold execPushoutTimeout
  refine answers_next ?_
  split
  · split
    · exact (calm_dealAdmitted ..).after <| calm_admitFrame ..
    · exact Calm.rfl
  · exact Calm.rfl

theorem answers_execEvictionFilterExpiry (tile : Nat) (s : State) : Answers s (execEvictionFilterExpiry tile s) :=
  answers_next <| calm_of_kept rfl

theorem answers_execPortIdleSend (tile : Nat) (s : State) : Answers s (execPortIdleSend tile s) :=
  answers_next <| calm_when fun _ => calm_each fun _ _ => calm_send ..

theorem calm_arriveIdle (src dst : Nat) (m : Msg) (s : State) : Calm s (arriveIdle src dst m s) := by
  unfold arriveIdle
  split
  · exact calm_of_kept rfl
  · exact Calm.rfl

theorem answers_execPortIdleReceive (src dst : Nat) (crcOk : Bool) (s : State) :
    Answers s (execPortIdleReceive src dst crcOk s) :=
  answers_next <| calm_receive fun _ _ => calm_arriveIdle ..

theorem answers_execLinkDeclaredFailed (rx tx : Nat) (s : State) : Answers s (execLinkDeclaredFailed rx tx s) :=
  answers_next <| calm_when fun _ => (calm_report ..).after <| calm_rset ..

theorem calm_expressToFenced (t f : Nat) (s : State) : Calm s (expressToFenced t f s) :=
  calm_each fun _ _ => (calm_gone ..).after <| (calm_freeExpress ..).after <| (calm_tileCnt ..).after <| calm_ownerCnt ..

theorem calm_dealsToFenced (t f : Nat) (s : State) : Calm s (dealsToFenced t f s) :=
  calm_each fun _ _ => (calm_tileCnt ..).after <| (calm_withFrames ..).after <| calm_each fun _ _ => calm_countFlushed ..

theorem calm_expressFromFenced (t f : Nat) (s : State) : Calm s (expressFromFenced t f s) := by
  unfold expressFromFenced
  refine calm_each fun _ _ => ?_
  refine (calm_setPort ..).after <| (calm_each fun _ _ => (calm_setLeaf ..).after <| calm_slotRelease ..).after ?_
  split
  · exact calm_ite (fun _ => (calm_setLeaf ..).after <| (calm_portCnt ..).after <| (calm_emit ..).after <| calm_setPort ..)
      fun _ => Calm.rfl
  · exact Calm.rfl

theorem calm_settleExpress (t : Nat) (s : State) : Calm s (settleExpress t s) := calm_of_kept rfl

theorem calm_linksFenced (t f : Nat) (s : State) : Calm s (linksFenced t f s) := by
  unfold linksFenced
  refine (calm_each fun _ _ => ?_).after <| calm_of_kept rfl
  split
  · exact calm_ite (fun _ => calm_tileCnt ..) fun _ => Calm.rfl
  · exact calm_ite (fun _ => calm_tileCnt ..) fun _ => Calm.rfl
  · exact calm_ite (fun _ => (calm_tileCnt ..).after <| calm_send ..) fun _ => Calm.rfl
  · exact Calm.rfl

theorem calm_freeFenced (t f : Nat) (s : State) : Calm s (freeFenced t f s) :=
  (calm_pumpDram ..).after <| (calm_tileCnt ..).after <| (calm_each fun _ _ => calm_countFlushed ..).after <| calm_of_kept rfl

theorem calm_fenceAt (t f : Nat) (s : State) : Calm s (fenceAt t f s) := by
  unfold fenceAt
  dsimp only
  refine (calm_selectTile ..).after <| (calm_pumpPulls ..).after <| (calm_settleExpress ..).after ?_
  generalize hu : expressFromFenced t f _ = u
  refine Calm.after (calm_withFab rfl) ?_
  subst hu
  exact (calm_expressFromFenced ..).after <| (calm_dealsToFenced ..).after <| (calm_expressToFenced ..).after <|
    (calm_freeFenced ..).after <| (calm_setAsm ..).after <| (calm_linksFenced ..).after <| (calm_closeStripes ..).after <|
    (calm_rset ..).after <| (calm_rset ..).after <| calm_rset ..

theorem answers_execFenceReceive (tile f : Nat) (s : State) : Answers s (execFenceReceive tile f s) :=
  answers_next <| calm_when fun _ => calm_fenceAt ..

theorem calm_swapBank (t : Nat) (s : State) : Calm s (swapBank t s) :=
  (calm_closeStripes ..).after <| (calm_rset ..).after <| calm_rset ..

theorem answers_execBankSwap (s : State) : Answers s (execBankSwap s) :=
  answers_next <| calm_when fun _ => (calm_withImg ..).after <| calm_each fun _ _ => calm_swapBank ..

/-! ## Egress (R205 to R226, R285) -/

theorem calm_frerRecover (l : Nat) (bs : List Byte) (s : State) : Calm s (frerRecover l bs s).2 := by
  unfold frerRecover
  split
  · exact Calm.rfl
  · split
    · dsimp only
      exact calm_streamCnt ..
    · dsimp only
      split
      · dsimp only
        exact (calm_streamCnt ..).after <| calm_setStream ..
      · dsimp only
        exact (calm_streamCnt ..).after <| calm_setStream ..

theorem calm_refundPath (l len : Nat) (s : State) : Calm s (refundPath l len s) := by
  unfold refundPath
  dsimp only
  split
  · exact (calm_setNode ..).after <| (calm_setNode ..).after <| calm_setNode ..
  · exact Calm.rfl

theorem calm_replicateTo (t : Nat) (sl : Slot) (cls : Nat) (m : Member) (s : State) : Calm s (replicateTo t sl cls m s) := by
  unfold replicateTo
  refine calm_ite (fun _ => (calm_copyGone ..).after <| calm_groupCnt ..) fun _ => ?_
  refine calm_ite (fun _ => (calm_copyGone ..).after <| calm_mcCnt ..) fun _ => ?_
  refine calm_ite (fun _ => (calm_copyGone ..).after <| calm_mcCnt ..) fun _ => ?_
  refine calm_ite (fun _ => (calm_copyGone ..).after <| calm_mcCnt ..) fun _ => ?_
  exact calm_ite (fun _ => (calm_copyGone ..).after <| calm_mcCnt ..) fun _ => (calm_mcCnt ..).after <| calm_setPort ..

theorem calm_replicate (t cls inPort : Nat) (sl : Slot) (s : State) : Calm s (replicate t cls inPort sl s) :=
  calm_ite (fun _ => (calm_bufRelease ..).after <| (calm_mcCnt ..).after <| calm_frameGone ..) fun _ => (calm_each fun _ _ =>
    calm_selectPort ..).after <| (calm_each fun _ _ => calm_replicateTo ..).after <| calm_setBuf ..

theorem calm_endAsm (a : Asm) (s : State) : Calm s (endAsm a s) :=
  calm_ite (fun _ => calm_of_kept rfl) fun _ => (calm_setPort ..).after <| calm_of_kept rfl

theorem calm_dropAsm (a : Asm) (leafIdx tileIdx : Nat) (s : State) : Calm s (dropAsm a leafIdx tileIdx s) :=
  (calm_dropLeaf ..).after <| (calm_bufRelease ..).after <| (calm_frameGone ..).after <| calm_endAsm ..

theorem calm_deliverAsm (a : Asm) (cells : List Cell) (s : State) : Calm s (deliverAsm a cells s) := by
  unfold deliverAsm
  dsimp only
  split
  · exact (calm_refundPath ..).after <| (calm_bufRelease ..).after <| (calm_frameGone ..).after <| (calm_endAsm ..).after <|
      Calm.of_snd ‹_› <| calm_frerRecover ..
  · exact calm_ite (fun _ => (calm_replicate ..).after <| (calm_endAsm ..).after <| (calm_writeMem ..).after <| Calm.of_snd ‹_› <|
      calm_frerRecover ..) fun _ => (calm_setPort ..).after <| (calm_endAsm ..).after <| (calm_writeMem ..).after <| Calm.of_snd
      ‹_› <| calm_frerRecover ..

theorem calm_afterAsm (a : Asm) (s : State) : Calm s (afterAsm a s) :=
  calm_ite (fun _ => (calm_retryWaits ..).after <| (calm_selectRepl ..).after <| calm_pumpPulls ..)
    fun _ => (calm_selectPort ..).after <| calm_pumpPulls ..

theorem calm_lateFirst (a : Asm) (s : State) : Calm s (lateFirst a s) := by
  unfold lateFirst
  split
  · exact calm_firstKnown ..
  · exact Calm.rfl

theorem answers_execReassemblyComplete (tile src leaf ssn pos : Nat) (s : State) :
    Answers s (execReassemblyComplete tile src leaf ssn pos s) := by
  unfold execReassemblyComplete
  refine answers_next ?_
  split
  · exact Calm.rfl
  · refine calm_ite (fun _ => Calm.rfl) fun _ => ?_
    refine (calm_afterAsm ..).after <| calm_ite (fun _ => (calm_dropAsm ..).after <| (calm_lateFirst ..).after <| calm_when
      fun _ => calm_tileCnt ..) fun _ => ?_
    exact calm_ite (fun _ => (calm_dropAsm ..).after <| (calm_lateFirst ..).after <| calm_when fun _ => calm_tileCnt ..)
      fun _ => (calm_deliverAsm ..).after <| (calm_lateFirst ..).after <| calm_when fun _ => calm_tileCnt ..

theorem calm_countWaits (p : Nat) (s : State) : Calm s (countWaits p s) :=
  calm_each fun _ _ => (calm_tileCnt ..).after <| calm_setPort ..

theorem answers_execFrameTxStart (p : Nat) (s : State) : Answers s (execFrameTxStart p s) := by
  unfold execFrameTxStart
  refine answers_next ?_
  refine calm_when fun _ => ?_
  dsimp only
  split
  · exact calm_countWaits ..
  · split
    · exact (calm_selectPort ..).after <| (calm_startTx ..).after <| (calm_setPort ..).after <| calm_countWaits ..
    · exact calm_countWaits ..

theorem calm_macsecTx (p an : Nat) (injected : Bool) (bs : List Byte) (s : State) : Calm s (macsecTx p an injected bs s).2 := by
  unfold macsecTx
  split
  · exact Calm.rfl
  · split
    · dsimp only
      exact calm_portCnt ..
    · dsimp only
      split
      · exact Calm.rfl
      · split
        · exact Calm.rfl
        · dsimp only
          exact (calm_portCnt ..).after <| (calm_when fun _ => calm_post ..).after <| calm_of_kept rfl

theorem calm_deliverRx (req r : Nat) (bs : List Byte) (md : BitVec 256) (s : State) : Calm s (deliverRx req r bs md s) := by
  unfold deliverRx
  dsimp only
  split
  · exact calm_ringCnt ..
  · exact calm_ite (fun _ => (calm_ownerCnt ..).after <| (calm_ringCnt ..).after <| (calm_ringCnt ..).after <|
      (calm_completeWith ..).after <| calm_emitHost ..) fun _ => calm_completeWith ..

theorem calm_toHost (p : Nat) (sl : Slot) (bs : List Byte) (s : State) : Calm s (toHost p sl bs s) := by
  unfold toHost
  split
  · exact calm_deliverRx ..
  · exact calm_ringCnt ..

theorem calm_txCount (p : Nat) (sl : Slot) (bs : List Byte) (s : State) : Calm s (txCount p sl bs s) :=
  calm_ite (fun _ => (calm_leafCnt ..).after <| (calm_leafCnt ..).after <| (calm_ownerCnt ..).after <| calm_ownerCnt ..)
    fun _ => (calm_when fun _ => calm_portCnt ..).after <| (calm_portCnt ..).after <| (calm_portCnt ..).after <|
    (calm_portCnt ..).after <| (calm_leafCnt ..).after <| (calm_leafCnt ..).after <| (calm_ownerCnt ..).after <| calm_ownerCnt ..

theorem calm_txStamp (sl : Slot) (sent : Bool) (s : State) : Calm s (txStamp sl sent s) :=
  calm_ite (fun _ => calm_frameOver ..) fun _ => calm_frameGone ..

theorem calm_endTx (p : Nat) (sl : Slot) (s : State) : Calm s (endTx p sl s) :=
  (calm_selectPort ..).after <| (calm_endKeep ..).after <| (calm_setPort ..).after <| (calm_when
    fun _ => calm_setLeaf ..).after <| calm_slotRelease ..

theorem answers_execFrameTxEnd (p : Nat) (s : State) : Answers s (execFrameTxEnd p s) := by
  unfold execFrameTxEnd
  refine answers_next ?_
  split
  · exact Calm.rfl
  · refine calm_ite (fun _ => Calm.rfl) fun _ => ?_
    refine calm_ite (fun _ => (calm_endTx ..).after <| (calm_txStamp ..).after <| (calm_toHost ..).after <| calm_txCount ..)
      fun _ => ?_
    split
    · exact (calm_endTx ..).after <| (calm_txStamp ..).after <| (calm_ownerCnt ..).after <| (calm_portCnt ..).after <| Calm.of_snd
        ‹_› <| calm_macsecTx ..
    · exact (calm_endTx ..).after <| (calm_txStamp ..).after <| (calm_txCount ..).after <| (calm_emit ..).after <| Calm.of_snd ‹_›
        <| calm_macsecTx ..

/-! ## The time base (R111 to R116) -/

theorem calm_addUnits (u : Int) (s : State) : Calm s (addUnits u s) := calm_setNow (Nat.min_le_left ..) rfl s

theorem calm_freqStep (before : Nat) (s : State) : Calm s (freqStep before s) := calm_withTim rfl

theorem calm_tick (s : State) : Calm s (tick s) :=
  (calm_when fun _ => calm_pset ..).after <| Calm.after (calm_withTim rfl) <| (calm_freqStep ..).after <| calm_addUnits ..

theorem answers_execSlewEnd (s : State) : Answers s (execSlewEnd s) :=
  answers_next <| calm_when fun _ => (calm_pset ..).after <| Calm.after (calm_withTim rfl) <| calm_addUnits ..

theorem calm_realignOne (sched : Nat) (s : State) : Calm s (realignOne sched s) := by
  unfold realignOne
  refine calm_ite (fun _ => (calm_each fun _ _ => calm_closeStripes ..).after <| calm_of_kept rfl) fun _ => ?_
  exact calm_ite (fun _ => (calm_selectPort ..).after <| calm_setGate ..) fun _ => (calm_selectBound ..).after <| calm_setSgate ..

theorem calm_stepTime {n : Nat} (h : n ≤ maxNs) (s : State) : Calm s (stepTime n s) :=
  (calm_each fun _ _ => calm_realignOne ..).after <| (calm_setRealign ..).after <| (calm_pset ..).after <|
    (calm_pset ..).after <| calm_setNow h rfl s

theorem calm_badTime (s : State) : Calm s (badTime s) := calm_pset ..

theorem calm_newTime {n : Nat} (h : n ≤ maxNs) (s : State) : Calm s (newTime n s) :=
  calm_ite (fun _ => (calm_pset ..).after <| calm_withTim rfl) fun _ => calm_stepTime h s

theorem rfld_lt (s : State) (r : Reg) (t i hi lo : Nat) : rfld s r t i hi lo < 2 ^ (hi + 1 - lo) := Nat.mod_lt _ (Nat.two_pow_pos _)

/-- What TIM_SET names is an instant of R14 when its nanoseconds are. -/
theorem timSet_le_maxNs {s : State} (h : ¬999999999 < (rget s .timSetNs 0 0).toNat) :
    ((rget s .timSetSecLo 0 0).toNat + rfld s .timSetSecHi 0 0 15 0 * 4294967296) * 1000000000 +
      (rget s .timSetNs 0 0).toNat ≤ maxNs := by
  have lo : (rget s .timSetSecLo 0 0).toNat < 2 ^ 32 := (rget s .timSetSecLo 0 0).isLt
  have hi : rfld s .timSetSecHi 0 0 15 0 < 65536 := rfld_lt ..
  unfold maxNs
  omega

theorem calm_timSetCmd (s : State) : Calm s (timSetCmd s) := calm_ite (fun _ => calm_badTime _) fun h => calm_newTime (timSet_le_maxNs h) s

theorem calm_timOffsetCmd (s : State) : Calm s (timOffsetCmd s) := by
  refine calm_ite (fun _ => calm_badTime _) fun h => calm_newTime ?_ s
  simp only [Bool.or_eq_true, decide_eq_true_eq, not_or] at h
  omega

theorem calm_timAdjSet (val : Word) (s : State) : Calm s (timAdjSet val s) :=
  calm_ite (fun _ => (calm_badTime ..).after <| calm_rput ..) fun _ => calm_ite (fun _ => (calm_badTime ..).after <| calm_rput ..)
    fun _ => calm_rput ..

theorem calm_captureNow (s : State) : Calm s (captureNow s) := (calm_rput ..).after <| calm_rput ..

theorem answers_execTimSet (s : State) : Answers s (execTimSet s) := answers_next <| calm_when fun _ => calm_timSetCmd _

theorem answers_execTimOffset (s : State) : Answers s (execTimOffset s) := answers_next <| calm_when fun _ => calm_timOffsetCmd _

theorem answers_execTimAdjWrite (val : Word) (s : State) : Answers s (execTimAdjWrite val s) :=
  answers_next <| calm_when fun _ => calm_timAdjSet ..

theorem answers_execTimNowCapture (s : State) : Answers s (execTimNowCapture s) :=
  answers_next <| calm_readReaches fun _ => (calm_emit ..).after <| calm_captureNow _

theorem answers_execScheduleRealign (sched : Nat) (s : State) : Answers s (execScheduleRealign sched s) :=
  answers_next <| calm_when fun _ => (calm_realignOne ..).after <| calm_setRealign ..

theorem answers_execPpsOutEdge (s : State) : Answers s (execPpsOutEdge s) := by
  unfold execPpsOutEdge
  refine answers_next ?_
  refine calm_ite (fun _ => Calm.rfl) fun _ => ?_
  exact calm_ite (fun _ => calm_of_kept rfl) fun _ => (calm_emit ..).after <| calm_of_kept rfl

theorem answers_execPpsOutFall (s : State) : Answers s (execPpsOutFall s) :=
  answers_next <| calm_when fun _ => (calm_emit ..).after <| calm_of_kept rfl

theorem answers_execTodLine (s : State) : Answers s (execTodLine s) :=
  answers_next <| calm_when fun _ => (calm_emit ..).after <| calm_of_kept rfl

theorem answers_execPpsInEdge (s : State) : Answers s (execPpsInEdge s) := answers_next <| calm_when fun _ => calm_post ..

theorem answers_execFreqInPhase (ps : Word) (s : State) : Answers s (execFreqInPhase ps s) :=
  answers_next <| calm_when fun _ => calm_post ..

theorem answers_execTodRxByte (bytes : List Byte) (s : State) : Answers s (execTodRxByte bytes s) :=
  answers_next <| calm_when fun _ => (calm_postTod ..).after <| calm_of_kept rfl

theorem answers_execOscWarm (s : State) : Answers s (execOscWarm s) := answers_next <| calm_when fun _ => calm_pset ..

theorem answers_execFreqInOkChange (ok : Bool) (s : State) : Answers s (execFreqInOkChange ok s) :=
  answers_next <| calm_when fun _ => calm_pset ..

/-! ## The corridor fabric (R304 to R318) -/

theorem answers_execHelloTimer (p : Nat) (s : State) : Answers s (execHelloTimer p s) :=
  answers_next <| calm_when fun _ => (calm_emit ..).after <| calm_fabCnt ..

theorem calm_noteHello (p : Nat) (h : Hello) (s : State) : Calm s (noteHello p h s) :=
  (calm_setAdj ..).after <| (calm_when fun _ => calm_post ..).after <| calm_when fun _ => (calm_post ..).after <| calm_pset ..

theorem calm_portComesUp (p : Nat) (s : State) : Calm s (portComesUp p s) := (calm_selectPort ..).after <| calm_setPort ..

theorem calm_upIfReady (p : Nat) (s : State) : Calm s (upIfReady p s) := calm_when fun _ => calm_portComesUp ..

theorem calm_takeHello (p : Nat) (h : Hello) (s : State) : Calm s (takeHello p h s) :=
  (calm_when fun _ => calm_localFail ..).after <| (calm_upIfReady ..).after <| (calm_adjTo ..).after <|
    (calm_noteHello ..).after <| calm_fabCnt ..

theorem answers_execHelloReceive (p : Nat) (h : Hello) (s : State) : Answers s (execHelloReceive p h s) :=
  answers_next <| calm_when fun _ => calm_ite (fun _ => calm_fabCnt ..) fun _ => calm_takeHello ..

theorem answers_execHoldTimeExpiry (p : Nat) (s : State) : Answers s (execHoldTimeExpiry p s) :=
  answers_next <| calm_when fun _ => calm_adjLost ..

theorem answers_execFailAdvRepeat (s : State) : Answers s (execFailAdvRepeat s) :=
  answers_next <| calm_when fun _ => calm_sendMgmt ..

theorem answers_execRepairStable (p : Nat) (s : State) : Answers s (execRepairStable p s) :=
  answers_next <| calm_when fun _ => (calm_sendMgmt ..).after <| calm_of_kept rfl

theorem answers_execRevertTime (s : State) : Answers s (execRevertTime s) :=
  answers_next <| calm_when fun _ => (calm_withCfb ..).after <| calm_when fun _ => calm_rset ..

theorem calm_startLead (l : Lead) (s : State) : Calm s (startLead l s) := (calm_sendMgmt ..).after <| calm_of_kept rfl

theorem calm_leadReset (cause : Nat) (cold : Bool) (s : State) : Calm s (leadReset cause cold s) :=
  calm_ite (fun _ => (calm_startLead ..).after <| calm_pset ..) fun _ => (calm_arbitrate ..).after <| calm_pset ..

theorem calm_rateCount (p : Nat) (s : State) : Calm s (rateCount p s).2 := by
  unfold rateCount
  dsimp only
  exact calm_of_kept rfl

theorem calm_relay (p : Nat) (m : Mgmt) (s : State) : Calm s (relay p m s) :=
  calm_when fun _ => calm_each fun _ _ => calm_sendTo ..

theorem calm_takeRepair (m : Mgmt) (s : State) : Calm s (takeRepair m s) := by
  unfold takeRepair
  exact calm_when fun _ => calm_of_kept rfl

theorem calm_takeReset (p : Nat) (m : Mgmt) (s : State) : Calm s (takeReset p m s) :=
  calm_when fun _ => (calm_leadReset ..).after <| calm_rset ..

theorem calm_takeData (p : Nat) (m : Mgmt) (s : State) : Calm s (takeData p m s) := by
  unfold takeData
  split
  · exact calm_ite (fun _ => calm_deliverRx ..) fun _ => calm_ringCnt ..
  · exact calm_ringCnt ..

theorem calm_actMgmt (p : Nat) (m : Mgmt) (s : State) : Calm s (actMgmt p m s) := by
  unfold actMgmt
  refine calm_ite (fun _ => (calm_fabCnt ..).after <| calm_of_kept rfl) fun _ => ?_
  split
  · exact calm_ite (fun _ => calm_of_kept rfl) fun _ => (calm_setFail ..).after <| (calm_relay ..).after <| calm_of_kept rfl
  · exact calm_ite (fun _ => calm_of_kept rfl) fun _ => (calm_takeRepair ..).after <| (calm_relay ..).after <| calm_of_kept rfl
  · exact (calm_takeReset ..).after <| calm_of_kept rfl
  · exact (calm_takeData ..).after <| calm_of_kept rfl
  · exact calm_of_kept rfl

theorem calm_checkMgmt (p : Nat) (m : Mgmt) (s : State) : Calm s (checkMgmt p m s) := by
  unfold checkMgmt
  split
  · exact (calm_fabCnt ..).after <| Calm.of_snd ‹_› <| calm_rateCount ..
  · split
    · exact (calm_fabCnt ..).after <| Calm.of_snd ‹_› <| calm_rateCount ..
    · exact (calm_actMgmt ..).after <| Calm.of_snd ‹_› <| calm_rateCount ..

theorem answers_execManagementFrameReceive (p : Nat) (m : Mgmt) (s : State) : Answers s (execManagementFrameReceive p m s) :=
  answers_next <| calm_when fun _ => calm_ite (fun _ => calm_fabCnt ..) fun _ => calm_when fun _ => calm_checkMgmt ..

theorem calm_toMgmtRing (bytes : List Byte) (s : State) : Calm s (execMgmtPortFrameRx.toMgmtRing bytes s) := by
  unfold execMgmtPortFrameRx.toMgmtRing
  split
  · exact calm_deliverRx ..
  · exact calm_ringCnt ..

theorem answers_execMgmtPortFrameRx (bytes : List Byte) (m : Option Mgmt) (s : State) :
    Answers s (execMgmtPortFrameRx bytes m s) := by
  unfold execMgmtPortFrameRx
  refine answers_next ?_
  refine calm_when fun _ => ?_
  split
  · refine calm_ite (fun _ => ?_) fun _ => calm_toMgmtRing ..
    split
    · exact (calm_fabCnt ..).after <| Calm.of_snd ‹_› <| calm_rateCount ..
    · split
      · exact (calm_fabCnt ..).after <| Calm.of_snd ‹_› <| calm_rateCount ..
      · exact calm_ite (fun _ => (calm_fabCnt ..).after <| (calm_withCfb ..).after <| Calm.of_snd ‹_› <| calm_rateCount ..)
          fun _ => (calm_takeReset ..).after <| (calm_withCfb ..).after <| Calm.of_snd ‹_› <| calm_rateCount ..
  · exact calm_toMgmtRing ..

theorem calm_rejudge (p : Nat) (s : State) : Calm s (rejudge p s) := by
  unfold rejudge
  split
  · exact calm_when fun _ => calm_adjTo ..
  · exact Calm.rfl

theorem answers_execFabAdmit (c : Cmd) (s : State) : Answers s (execFabAdmit c s) :=
  answers_next <| calm_command fun _ => calm_ite (fun _ => (calm_fin ..).after <| calm_setAdj ..) fun _ => calm_fin ..

theorem answers_execFabEvict (c : Cmd) (s : State) : Answers s (execFabEvict c s) :=
  answers_next <| calm_command fun _ => calm_ite (fun _ => (calm_fin ..).after <| calm_setAdj ..) fun _ => calm_fin ..

theorem answers_execFabRd (c : Cmd) (s : State) : Answers s (execFabRd c s) := answers_next <| calm_command fun _ => calm_fin ..

/-! ## Ports and cages (R89 to R110) -/

theorem calm_portRelease (p : Nat) (s : State) : Calm s (portRelease p s) := calm_setPort ..

theorem answers_execPcsAlignmentHeld (p : Nat) (s : State) : Answers s (execPcsAlignmentHeld p s) :=
  answers_next <| calm_when fun _ => (calm_upIfReady ..).after <| calm_setPort ..

theorem answers_execPcsAlignmentAcquired (p : Nat) (s : State) : Answers s (execPcsAlignmentAcquired p s) :=
  answers_next <| calm_when fun _ => calm_setPort ..

theorem answers_execPortDownDetect (p : Nat) (los : Bool) (s : State) : Answers s (execPortDownDetect p los s) :=
  answers_next <| calm_when fun _ => (calm_adjLost ..).after <| (calm_when fun _ => (calm_setPort ..).after <|
    (calm_portGoDown ..).after <| calm_portCnt ..).after <| calm_setPort ..

theorem answers_execPortHoldExpiry (p : Nat) (s : State) : Answers s (execPortHoldExpiry p s) :=
  answers_next <| calm_when fun _ => (calm_retryWaits ..).after <| (calm_flushPort ..).after <| calm_setPort ..

theorem calm_fecNotice (p symbols : Nat) (s : State) : Calm s (fecNotice p symbols s) :=
  calm_when fun _ => (calm_post ..).after <| calm_setPort ..

theorem answers_execFecWindowEnd (p cw corr uncorr symbols : Nat) (s : State) :
    Answers s (execFecWindowEnd p cw corr uncorr symbols s) :=
  answers_next <| calm_when fun _ => (calm_fecNotice ..).after <| (calm_portCnt ..).after <| (calm_portCnt ..).after <|
    (calm_portCnt ..).after <| calm_portCnt ..

theorem calm_cageNote (typ c : Nat) (s : State) : Calm s (cageNote typ c s) := calm_post ..

theorem calm_cagePins (c : Nat) (rstLow lpmode : Bool) (s : State) : Calm s (cagePins c rstLow lpmode s) :=
  (calm_emit ..).after <| calm_setCage ..

theorem calm_selectCage (c : Nat) (s : State) : Calm s (selectCage c s) := calm_emit ..

theorem calm_admitCage (c : Nat) (s : State) : Calm s (admitCage c s) :=
  (calm_cageNote ..).after <| (calm_emit ..).after <| (calm_emit ..).after <| (calm_emit ..).after <|
    (calm_selectCage ..).after <| (calm_cagePins ..).after <| calm_setCage ..

theorem calm_decideCage (c : Nat) (s : State) : Calm s (decideCage c s) := by
  unfold decideCage
  refine calm_ite (fun _ => (calm_cageNote ..).after <| (calm_setCage ..).after <| calm_when fun _ => calm_cagePins ..)
    fun _ => ?_
  refine calm_ite (fun _ => (calm_cageNote ..).after <| (calm_setCage ..).after <| calm_when fun _ => calm_cagePins ..)
    fun _ => ?_
  exact calm_ite (fun _ => (calm_cageNote ..).after <| (calm_setCage ..).after <| calm_when fun _ => calm_cagePins ..)
    fun _ => calm_admitCage ..

theorem calm_reconsider (t : Nat) (s : State) : Calm s (reconsider t s) :=
  calm_each fun _ _ => calm_when fun _ => calm_admitCage ..

theorem calm_groupDown (g : Nat) (s : State) : Calm s (groupDown g s) :=
  calm_each fun _ _ => (calm_adjLost ..).after <| (calm_setPort ..).after <| (calm_portGoDown ..).after <| calm_squelch ..

theorem calm_insertCage (c : Nat) (s : State) : Calm s (insertCage c s) :=
  (calm_cagePins ..).after <| (calm_cageNote ..).after <| calm_setCage ..

theorem calm_removeCage (c : Nat) (s : State) : Calm s (removeCage c s) :=
  (calm_reconsider ..).after <| (calm_cageNote ..).after <| (calm_cagePins ..).after <| (calm_setCage ..).after <|
    calm_groupDown ..

theorem calm_readCage (c : Nat) (x : CageSample) (s : State) : Calm s (readCage c x s) :=
  (calm_decideCage ..).after <| calm_setCage ..

theorem calm_pollOptic (c : Nat) (x : CageSample) (s : State) : Calm s (pollOptic c x s) :=
  (calm_when fun _ => calm_post ..).after <| calm_when fun _ => calm_readCage ..

theorem answers_execCagePoll (c : Nat) (x : CageSample) (s : State) : Answers s (execCagePoll c x s) := by
  unfold execCagePoll
  refine answers_next ?_
  refine calm_when fun _ => ?_
  refine calm_ite (fun _ => ?_) fun _ => (calm_pollOptic ..).after <| (calm_when fun _ => calm_selectCage ..).after <|
    calm_setCage ..
  exact calm_ite (fun _ => (calm_insertCage ..).after <| calm_setCage ..) fun _ => (calm_removeCage ..).after <| calm_setCage ..

theorem answers_execCageReadyTimeout (c : Nat) (s : State) : Answers s (execCageReadyTimeout c s) :=
  answers_next <| calm_when fun _ => (calm_cageNote ..).after <| (calm_cagePins ..).after <| calm_setCage ..

theorem answers_execI2cSdaStuck (bus : Nat) (stuck : Bool) (s : State) : Answers s (execI2cSdaStuck bus stuck s) := by
  unfold execI2cSdaStuck
  refine answers_next ?_
  refine calm_when fun _ => ?_
  refine calm_ite (fun _ => calm_of_kept rfl) fun _ => ?_
  exact calm_ite (fun _ => (calm_report ..).after <| (calm_withI2c ..).after <| calm_emit ..) fun _ => (calm_withI2c ..).after <|
    calm_emit ..

theorem calm_freshPorts (g : Nat) (s : State) : Calm s (freshPorts g s) := calm_each fun _ _ => calm_setPort ..

theorem calm_markEnabled (g mode : Nat) (s : State) : Calm s (markEnabled g mode s) := calm_of_kept rfl

theorem calm_setMode (g mode fec : Nat) (s : State) : Calm s (setMode g mode fec s) :=
  (calm_when fun _ => (calm_reconsider ..).after <| (calm_decideCage ..).after <| calm_setCage ..).after <|
    (calm_freshPorts ..).after <| (calm_markEnabled ..).after <| (calm_withGroups ..).after <| calm_each fun _ _ =>
    (calm_adjLost ..).after <| calm_portHoldDown ..

theorem answers_execPortMode (c : Cmd) (s : State) : Answers s (execPortMode c s) :=
  answers_next <| calm_command fun _ => (calm_fin ..).after <| calm_setMode ..

theorem answers_execPortCmisRd (c : Cmd) (optic : Option (List Byte)) (s : State) : Answers s (execPortCmisRd c optic s) := by
  unfold execPortCmisRd
  refine answers_next ?_
  refine calm_command fun _ => ?_
  dsimp only
  split
  · exact (calm_fin ..).after <| calm_when fun _ => calm_selectCage ..
  · exact calm_ite (fun _ => (calm_fin ..).after <| (calm_emitHost ..).after <| calm_when fun _ => calm_selectCage ..)
      fun _ => (calm_fin ..).after <| calm_when fun _ => calm_selectCage ..

theorem answers_execPortCmisWr (c : Cmd) (optic : Bool) (s : State) : Answers s (execPortCmisWr c optic s) := by
  unfold execPortCmisWr
  refine answers_next ?_
  refine calm_command fun _ => ?_
  split
  · exact calm_fin ..
  · exact calm_ite (fun _ => (calm_fin ..).after <| calm_when fun _ => calm_selectCage ..) fun _ => (calm_fin ..).after <|
      (calm_emit ..).after <| calm_when fun _ => calm_selectCage ..

/-! ## Images (R321 to R328) -/

theorem calm_imgBit (b : Nat) (v : Bool) (s : State) : Calm s (imgBit b v s) := calm_pset ..

theorem calm_setReason (r : Nat) (s : State) : Calm s (setReason r s) := calm_rset ..

theorem calm_setStaged (b : Bool) (s : State) : Calm s (setStaged b s) := calm_imgBit ..

theorem calm_setCommitBit (b : Bool) (s : State) : Calm s (setCommitBit b s) := calm_imgBit ..

theorem calm_checkKey (s : State) : Calm s (checkKey s) := calm_imgBit ..

theorem calm_putImg (b : Bool) (x : Option Image) (s : State) : Calm s (putImg b x s) := calm_of_kept rfl

theorem calm_foundSlot (b : Bool) (r : Nat) (s : State) : Calm s (foundSlot b r s) :=
  (calm_when fun _ => calm_setReason ..).after <| calm_imgBit ..

theorem calm_examine (b : Bool) (s : State) : Calm s (examine b s) := calm_foundSlot ..

theorem calm_examineSlots (s : State) : Calm s (examineSlots s) := by
  unfold examineSlots
  dsimp only
  split
  · exact (calm_examine ..).after <| calm_checkKey _
  · exact (calm_examine ..).after <| calm_checkKey _
  · exact (calm_examine ..).after <| (calm_examine ..).after <| calm_checkKey _

theorem calm_swapRegs (t : Nat) (i : Image) (s : State) : Calm s (swapRegs t i s) :=
  (calm_each fun _ _ => (calm_rput ..).after <| calm_rput ..).after <| (calm_each fun _ _ => calm_rput ..).after <| (calm_each fun
    _ _ => calm_rput ..).after <| calm_each fun _ _ => calm_rput ..

theorem calm_loadThresholds (t : Nat) (i : Image) (s : State) : Calm s (loadThresholds t i s) := by
  unfold loadThresholds
  split
  · exact (calm_rset ..).after <| (calm_rset ..).after <| calm_rset ..
  · exact Calm.rfl

theorem calm_startMode (t : Nat) (i : Image) (s : State) : Calm s (startMode t i s) := calm_setBank ..

theorem calm_bootRegs (t : Nat) (i : Image) (s : State) : Calm s (bootRegs t i s) :=
  (calm_each fun _ _ => calm_rset ..).after <| (calm_each fun _ _ => (calm_rset ..).after <| calm_rset ..).after <|
    (calm_loadThresholds ..).after <| (calm_startMode ..).after <| calm_rset ..

theorem calm_tileRegs (t : Nat) (i : Image) (s : State) : Calm s (tileRegs t i s) := (calm_bootRegs ..).after <| calm_swapRegs ..

theorem calm_helloReg (i : Image) (s : State) : Calm s (helloReg i s) := by
  unfold helloReg
  split
  · exact calm_rset ..
  · exact Calm.rfl

theorem calm_loadSched (i : Image) (s : State) : Calm s (loadSched i s) := calm_of_kept rfl

theorem calm_loadGroups (i : Image) (s : State) : Calm s (loadGroups i s) := calm_of_kept rfl

theorem calm_loadImage (i : Image) (s : State) : Calm s (loadImage i s) :=
  (calm_helloReg ..).after <| (calm_each fun _ _ => calm_tileRegs ..).after <| (calm_loadRows ..).after <|
    (calm_loadGroups ..).after <| (calm_loadSched ..).after <| (calm_exmLoad ..).after <| (calm_withExm ..).after <| (calm_each
    fun _ _ => calm_lpmPut ..).after <| calm_of_kept rfl

theorem calm_emptyTable (n : Nat) (s : State) : Calm s (emptyTable n s) :=
  (calm_withExm ..).after <| calm_each fun _ _ => calm_exmClear ..

theorem calm_swapRoots (a b : Image) (s : State) : Calm s (swapRoots a b s) := calm_each fun _ _ => calm_clearRoot ..

theorem calm_swapNodes (i : Image) (s : State) : Calm s (swapNodes i s) := calm_of_kept rfl

theorem calm_evictOrphans (s : State) : Calm s (evictOrphans s) :=
  calm_each fun _ _ => (calm_dropLeaf ..).after <| calm_evictNote ..

theorem calm_swapGates (i : Image) (t : Nat) (s : State) : Calm s (swapGates i t s) :=
  (calm_each fun _ _ => calm_setSgate ..).after <| (calm_each fun _ _ => calm_setSgate ..).after <| calm_each fun _ _ =>
    calm_setGate ..

theorem calm_swapAdjs (s : State) : Calm s (swapAdjs s) :=
  calm_each fun _ _ => calm_ite (fun _ => calm_rejudge ..) fun _ => calm_setAdj ..

theorem calm_commitNow (new : Image) (s : State) : Calm s (commitNow new s) :=
  (calm_each fun _ _ => calm_selectTile ..).after <| (calm_post ..).after <| (calm_swapAdjs ..).after <| (calm_pset ..).after <|
    (calm_setStaged ..).after <| (calm_setCommitBit ..).after <| (calm_each fun _ _ => (calm_swapRegs ..).after <|
    calm_rset ..).after <| (calm_swapGates ..).after <| (calm_helloReg ..).after <| (calm_evictOrphans ..).after <|
    (calm_swapNodes ..).after <| (calm_swapRoots ..).after <| (calm_each fun _ _ => calm_emptyTable ..).after <|
    (calm_withImg ..).after <| calm_each fun _ _ => calm_swapBank ..

theorem answers_execImgCommitSwap (s : State) : Answers s (execImgCommitSwap s) := by
  unfold execImgCommitSwap
  refine answers_next ?_
  split
  · exact calm_commitNow ..
  · exact Calm.rfl

theorem calm_scheduleSwap (t : Nat) (at_ : Time80) (s : State) : Calm s (scheduleSwap t at_ s) :=
  (calm_rset ..).after <| (calm_rput ..).after <| calm_rput ..

theorem calm_dropCommit (s : State) : Calm s (dropCommit s) :=
  (calm_each fun _ _ => calm_rset ..).after <| (calm_setCommitBit ..).after <| calm_of_kept rfl

theorem calm_eraseIdle (s : State) : Calm s (eraseIdle s) := (calm_setStaged ..).after <| (calm_imgBit ..).after <| calm_putImg ..

theorem calm_stageImage (c : Cmd) (i : Image) (s : State) : Calm s (stageImage c i s) := by
  unfold stageImage
  dsimp only
  split
  · exact (calm_fin ..).after <| (calm_setStaged ..).after <| (calm_foundSlot ..).after <| (calm_putImg ..).after <| calm_checkKey
      _
  · exact (calm_fin ..).after <| (calm_foundSlot ..).after <| (calm_putImg ..).after <| calm_checkKey _

theorem answers_execImgStage (c : Cmd) (img : Option Image) (s : State) : Answers s (execImgStage c img s) := by
  unfold execImgStage
  refine answers_next ?_
  refine calm_command fun _ => ?_
  refine calm_ite (fun _ => (calm_putImg ..).after <| calm_eraseIdle _) fun _ => ?_
  split
  · exact (calm_fin ..).after <| calm_eraseIdle _
  · exact (calm_stageImage ..).after <| calm_eraseIdle _

theorem calm_schedule (c : Cmd) (i : Image) (s : State) : Calm s (schedule c i s) :=
  (calm_fin ..).after <| (calm_each fun _ _ => calm_scheduleSwap ..).after <| (calm_setCommitBit ..).after <| calm_of_kept rfl

theorem answers_execImgCommit (c : Cmd) (late : Bool) (s : State) : Answers s (execImgCommit c late s) := by
  unfold execImgCommit
  refine answers_next ?_
  refine calm_command fun _ => ?_
  split
  · exact calm_fin ..
  · refine calm_ite (fun _ => calm_fin ..) fun _ => ?_
    exact calm_ite (fun _ => (calm_fin ..).after <| calm_dropCommit _) fun _ => calm_schedule ..

theorem answers_execImgCancel (c : Cmd) (s : State) : Answers s (execImgCancel c s) := by
  unfold execImgCancel
  refine answers_next ?_
  refine calm_command fun _ => ?_
  exact calm_ite (fun _ => calm_fin ..) fun _ => calm_ite (fun _ => calm_fin ..) fun _ => (calm_fin ..).after <| calm_dropCommit _

theorem answers_execImgDiscard (c : Cmd) (s : State) : Answers s (execImgDiscard c s) :=
  answers_next <| calm_command fun _ => (calm_fin ..).after <| (calm_setStaged ..).after <| (calm_imgBit ..).after <|
    calm_putImg ..

theorem answers_execImgInfo (c : Cmd) (s : State) : Answers s (execImgInfo c s) :=
  answers_next <| calm_command fun _ => calm_ite (fun _ => (calm_fin ..).after <| calm_emitHost ..) fun _ => calm_fin ..

theorem answers_execImgKey (c : Cmd) (cert : Option (Option Nat)) (s : State) : Answers s (execImgKey c cert s) := by
  unfold execImgKey
  refine answers_next ?_
  refine calm_command fun _ => ?_
  split
  · exact calm_fin ..
  · exact calm_ite (fun _ => (calm_fin ..).after <| (calm_checkKey ..).after <| calm_of_kept rfl) fun _ => calm_fin ..

/-! ## Action tables -/

theorem calm_setAct (f : Act → Act) (s : State) : Calm s (setAct f s) := calm_of_kept rfl

theorem answers_execActNhWr (c : Cmd) (s : State) : Answers s (execActNhWr c s) :=
  answers_next <| calm_command fun _ => (calm_fin ..).after <| calm_setAct ..

theorem answers_execActNhRd (c : Cmd) (s : State) : Answers s (execActNhRd c s) :=
  answers_next <| calm_command fun _ => calm_fin ..

theorem answers_execActGrpSet (c : Cmd) (s : State) : Answers s (execActGrpSet c s) :=
  answers_next <| calm_command fun _ => (calm_fin ..).after <| calm_setAct ..

theorem answers_execActBkt (c : Cmd) (s : State) : Answers s (execActBkt c s) :=
  answers_next <| calm_command fun _ => (calm_fin ..).after <| calm_setAct ..

theorem answers_execActBktRd (c : Cmd) (s : State) : Answers s (execActBktRd c s) :=
  answers_next <| calm_command fun _ => calm_fin ..

theorem calm_setMembers (g : Nat) (ms : List Member) (s : State) : Calm s (setMembers g ms s) := calm_setAct ..

theorem answers_execActMemAdd (c : Cmd) (s : State) : Answers s (execActMemAdd c s) := by
  unfold execActMemAdd
  refine answers_next ?_
  refine calm_command fun _ => ?_
  refine calm_ite (fun _ => (calm_fin ..).after <| calm_setMembers ..) fun _ => ?_
  exact calm_ite (fun _ => (calm_fin ..).after <| calm_setMembers ..) fun _ => (calm_fin ..).after <| calm_setMembers ..

theorem answers_execActMemDel (c : Cmd) (s : State) : Answers s (execActMemDel c s) := by
  unfold execActMemDel
  refine answers_next ?_
  refine calm_command fun _ => ?_
  exact calm_ite (fun _ => (calm_fin ..).after <| calm_setMembers ..) fun _ => (calm_fin ..).after <| calm_setMembers ..

theorem answers_execActMirSet (c : Cmd) (s : State) : Answers s (execActMirSet c s) :=
  answers_next <| calm_command fun _ => (calm_fin ..).after <| calm_setAct ..

/-! ## Memory commands (R261 to R275) -/

theorem calm_freeTwice (h tag : Nat) (s : State) : Calm s (freeTwice h tag s) :=
  (calm_report ..).after <| (calm_rset ..).after <| calm_tileCnt ..

theorem calm_freeForeign (h tag : Nat) (s : State) : Calm s (freeForeign h tag s) := by
  unfold freeForeign
  dsimp only
  split
  · refine calm_ite (fun _ => ?_) fun _ => (calm_report ..).after <| (calm_rset ..).after <| (calm_rset ..).after <|
      (calm_tileCnt ..).after <| calm_of_kept rfl
    exact calm_ite (fun _ => (calm_ringStop ..).after <| (calm_report ..).after <| (calm_report ..).after <|
      (calm_rset ..).after <| (calm_rset ..).after <| (calm_tileCnt ..).after <| calm_of_kept rfl)
      fun _ => (calm_report ..).after <| (calm_report ..).after <| (calm_rset ..).after <| (calm_rset ..).after <|
      (calm_tileCnt ..).after <| calm_of_kept rfl
  · exact (calm_report ..).after <| (calm_rset ..).after <| (calm_rset ..).after <| (calm_tileCnt ..).after <| calm_of_kept rfl

theorem calm_claimFails {s t : State} {h tag st : Nat} {f : State → State} (e : claimFails s h tag = some (st, f)) : Calm t (f t) := by
  unfold claimFails at e
  split at e
  · obtain ⟨-, rfl⟩ := Prod.mk.inj (Option.some.inj e)
    exact calm_freeTwice ..
  · split at e
    · obtain ⟨-, rfl⟩ := Prod.mk.inj (Option.some.inj e)
      exact calm_freeForeign ..
    · cases e

theorem answers_execMemAlloc (c : Cmd) (s : State) : Answers s (execMemAlloc c s) :=
  answers_next <| calm_command fun _ => calm_ite (fun _ => calm_fin ..) fun _ => (calm_fin ..).after <| calm_takeBuf ..

theorem answers_execMemFree (c : Cmd) (s : State) : Answers s (execMemFree c s) := by
  refine answers_next <| calm_command fun _ => ?_
  split
  · exact (calm_fin ..).after <| calm_claimFails ‹_›
  · exact (calm_fin ..).after <| (calm_retryWaits ..).after <| calm_bufRelease ..

theorem calm_memFetch (c : Cmd) (x : EccFinding) (s : State) : Calm s (memFetch c x s).2 := by
  unfold memFetch
  split
  · split
    · split
      · dsimp only
        exact (calm_advanceFree ..).after <| Calm.of_snd ‹_› <| calm_readCell ..
      · dsimp only
        exact Calm.of_snd ‹_› <| calm_readCell ..
  · exact Calm.rfl

theorem answers_execMemRd (c : Cmd) (s : State) : Answers s (execMemRd c s) :=
  answers_next <| calm_ite (fun _ => Calm.rfl) fun _ => calm_command fun _ => (calm_fin ..).after <| calm_memFetch ..

theorem calm_bufWritten (h off : Nat) (bs : List Byte) (s : State) : Calm s (bufWritten h off bs s) := calm_of_kept rfl

theorem calm_markLost (t idx : Nat) (s : State) : Calm s (markLost t idx s) := calm_of_kept rfl

theorem calm_memStore (c : Cmd) (x : EccFinding) (bs : List Byte) (s : State) : Calm s (memStore c x bs s) := by
  unfold memStore
  refine calm_ite (fun _ => ?_) fun _ => (calm_bufWritten ..).after <| calm_writeMem ..
  exact calm_ite (fun _ => (calm_markLost ..).after <| calm_writeCell ..) fun _ => (calm_writeMem ..).after <| calm_writeCell ..

theorem answers_execMemWr (c : Cmd) (s : State) : Answers s (execMemWr c s) :=
  answers_next <| calm_ite (fun _ => Calm.rfl) fun _ => calm_command fun _ => (calm_fin ..).after <| calm_memStore ..

theorem calm_migStep (c : Cmd) (found : List (Nat × EccFinding)) (cur : Nat) (tot : Nat × Nat) (s : State) :
    Calm s (migStep c found cur tot s).1 := by
  unfold migStep
  dsimp only
  split
  · exact Calm.rfl
  · split
    · dsimp only
      exact (calm_copyFindings ..).after <| (calm_setChannel ..).after <| calm_copyRows ..
    · dsimp only
      exact (calm_setChannel ..).after <| (calm_copyFindings ..).after <| (calm_setChannel ..).after <| calm_copyRows ..

theorem calm_migBegin (c : Cmd) (s : State) : Calm s (migBegin c s) := calm_setChannel ..

theorem calm_migAfter (c : Cmd) (s : State) : Calm s (migAfter c s) :=
  calm_ite (fun _ => Calm.rfl) fun _ => (calm_dormantStep ..).after <| calm_setChannel ..

theorem answers_execMemMig (c : Cmd) (s : State) : Answers s (execMemMig c s) := by
  unfold execMemMig
  refine answers_next ?_
  refine calm_command fun _ => ?_
  refine calm_ite (fun _ => calm_fin ..) fun _ => ?_
  exact (calm_migAfter ..).after <| (calm_iterRun fun _ _ _ => calm_migStep ..).after <| calm_ite (fun _ => Calm.rfl)
    fun _ => calm_migBegin ..

theorem answers_execMemMapClr (c : Cmd) (s : State) : Answers s (execMemMapClr c s) :=
  answers_next <| calm_command fun _ => (calm_fin ..).after <| calm_of_kept rfl

theorem answers_execMemSaveRd (c : Cmd) (s : State) : Answers s (execMemSaveRd c s) :=
  answers_next <| calm_command fun _ => calm_fin ..

/-! ## Security (R386 to R398) -/

theorem calm_loadDeviceKey (s : State) : Calm s (loadDeviceKey s) := calm_of_kept rfl

theorem calm_setSec (f : Sec → Sec) (s : State) : Calm s (setSec f s) := calm_of_kept rfl

theorem calm_secClaim (id : Nat) (s : State) : Calm s (secClaim id s) :=
  calm_ite (fun _ => Calm.rfl) fun _ => calm_ite (fun _ => calm_setSec ..) fun _ => calm_setSec ..

theorem calm_messageEnd (s : State) : Calm s (messageEnd s) := calm_ite (fun _ => Calm.rfl) fun _ => calm_setSec ..

theorem calm_secUrgent (level : Nat) (s : State) : Calm s (secUrgent level s) := by
  unfold secUrgent
  refine calm_ite (fun _ => Calm.rfl) fun _ => ?_
  refine calm_ite (fun _ => ?_) fun _ => ?_
  · refine (calm_setSec ..).after ?_
    split
    · exact calm_setSec ..
    · exact calm_ite (fun _ => calm_setSec ..) fun _ => calm_setSec ..
  · split
    · exact calm_setSec ..
    · exact calm_ite (fun _ => calm_setSec ..) fun _ => calm_setSec ..

theorem calm_secDrop (id : Nat) (s : State) : Calm s (secDrop id s) := by
  unfold secDrop
  refine calm_ite (fun _ => calm_setSec ..) fun _ => ?_
  exact calm_ite (fun _ => (calm_messageEnd ..).after <| calm_setSec ..) fun _ => (calm_setSec ..).after <| calm_setSec ..

theorem answers_execSecLockClaim (id : Nat) (s : State) : Answers s (execSecLockClaim id s) :=
  answers_next <| calm_when fun _ => calm_secClaim ..

theorem answers_execSecMessageEnd (s : State) : Answers s (execSecMessageEnd s) := answers_next <| calm_messageEnd _

theorem answers_execUrgentRequest (level : Nat) (s : State) : Answers s (execUrgentRequest level s) :=
  answers_next <| calm_when fun _ => calm_secUrgent ..

theorem calm_secCommandsEnd (status : Nat) (s : State) : Calm s (secCommandsEnd status s) := calm_each fun _ _ => calm_endBusy ..

theorem calm_raiseAlarm (cause : Nat) (s : State) : Calm s (raiseAlarm cause s) :=
  (calm_report ..).after <| (calm_rset ..).after <| (calm_rset ..).after <| (calm_withSasChansSec ..).after <|
    calm_secCommandsEnd ..

theorem answers_execSecAlarm (cause : Nat) (s : State) : Answers s (execSecAlarm cause s) :=
  answers_next <| calm_when fun _ => calm_raiseAlarm ..

theorem calm_clearCauses (mask : Nat) (s : State) : Calm s (clearCauses mask s) :=
  calm_ite (fun _ => (calm_loadDeviceKey ..).after <| (calm_rset ..).after <| calm_rset ..) fun _ => calm_rset ..

theorem answers_execSecCauseClear (mask persists : Nat) (s : State) : Answers s (execSecCauseClear mask persists s) :=
  answers_next <| calm_when fun _ => calm_clearCauses ..

theorem calm_secRun {c : Cmd} {f : State → State} {s : State} (h : ∀ s, Calm s (f s)) : Calm s (secRun c f s) :=
  calm_ite (fun _ => (calm_messageEnd _).after <| (h _).after <| calm_secClaim ..) fun _ => (calm_commandWaits ..).after <| calm_secClaim ..

theorem calm_authFail (c : Cmd) (s : State) : Calm s (authFail c s) :=
  calm_ite (fun _ => (calm_raiseAlarm ..).after <| (calm_fin ..).after <| calm_rset ..) fun _ => (calm_fin ..).after <|
    calm_rset ..

theorem calm_withKey {c : Cmd} {kek n : Nat} {f : List Byte → State → State} {s : State} (h : ∀ k s, Calm s (f k s)) :
    Calm s (withKey c kek n f s) := by
  refine calm_ite (fun _ => calm_fin ..) fun _ => ?_
  split
  · exact calm_fin ..
  · split
    · exact calm_authFail ..
    · exact (h ..).after <| calm_rset ..

theorem answers_execSecKeyLd (c : Cmd) (s : State) : Answers s (execSecKeyLd c s) :=
  answers_next <| calm_command fun _ => calm_secRun fun _ => calm_withKey fun _ _ => (calm_fin ..).after <| calm_setSec ..

theorem answers_execSecKeyClr (c : Cmd) (s : State) : Answers s (execSecKeyClr c s) := by
  unfold execSecKeyClr
  refine answers_next ?_
  refine calm_command fun _ => ?_
  exact calm_secRun fun _ => calm_ite (fun _ => (calm_fin ..).after <| calm_setSec ..) fun _ => calm_fin ..

theorem calm_withData {c : Cmd} {n : Nat} {f : List Byte → List Byte → State → State} {s : State}
    (h : ∀ k bs s, Calm s (f k bs s)) :
    Calm s (withData c n f s) := by
  refine calm_ite (fun _ => calm_fin ..) fun _ => ?_
  split
  · exact calm_fin ..
  · exact h ..

theorem answers_execSecCmac (c : Cmd) (s : State) : Answers s (execSecCmac c s) :=
  answers_next <| calm_command fun _ => calm_secRun fun _ => calm_withData fun _ _ _ => calm_fin ..

theorem answers_execSecCrypt (c : Cmd) (s : State) : Answers s (execSecCrypt c s) := by
  unfold execSecCrypt
  refine answers_next ?_
  refine calm_command fun _ => ?_
  refine calm_secRun fun _ => ?_
  exact calm_withData fun _ _ _ => calm_ite (fun _ => (calm_fin ..).after <| calm_emitHost ..) fun _ => calm_fin ..

theorem calm_saInstall (c : Cmd) (k : List Byte) (s : State) : Calm s (saInstall c k s) := calm_of_kept rfl

theorem calm_saRemove (sa : Nat) (s : State) : Calm s (saRemove sa s) := by
  unfold saRemove
  exact Calm.after (calm_when fun _ => calm_of_kept rfl) <| calm_of_kept rfl

theorem answers_execPortSaAdd (c : Cmd) (s : State) : Answers s (execPortSaAdd c s) := by
  unfold execPortSaAdd
  refine answers_next ?_
  refine calm_command fun _ => ?_
  refine calm_secRun fun _ => ?_
  exact calm_ite (fun _ => calm_fin ..) fun _ => calm_withKey fun _ _ => (calm_fin ..).after <| calm_saInstall ..

theorem answers_execPortSaDel (c : Cmd) (s : State) : Answers s (execPortSaDel c s) :=
  answers_next <| calm_command fun _ => calm_ite (fun _ => (calm_fin ..).after <| calm_saRemove ..) fun _ => calm_fin ..

theorem answers_execPortSaTxAn (c : Cmd) (s : State) : Answers s (execPortSaTxAn c s) :=
  answers_next <| calm_command fun _ => calm_ite (fun _ => (calm_fin ..).after <| calm_setPort ..) fun _ => calm_fin ..

/-! ## Scheduler commands -/

theorem calm_selectAbove (level n : Nat) (s : State) : Calm s (selectAbove level n s) := by
  unfold selectAbove
  split
  · exact calm_selectPort ..
  · exact Calm.rfl

theorem answers_execSchNode (c : Cmd) (s : State) : Answers s (execSchNode c s) :=
  answers_next <| calm_command fun _ => (calm_fin ..).after <| (calm_selectAbove ..).after <| calm_setNode ..

theorem answers_execSchShape (c : Cmd) (s : State) : Answers s (execSchShape c s) :=
  answers_next <| calm_command fun _ => (calm_fin ..).after <| (calm_selectAbove ..).after <| calm_setNode ..

theorem answers_execSchLeaf (c : Cmd) (s : State) : Answers s (execSchLeaf c s) :=
  answers_next <| calm_command fun _ => (calm_fin ..).after <| calm_setNode ..

theorem answers_execSchRd (c : Cmd) (s : State) : Answers s (execSchRd c s) := answers_next <| calm_command fun _ => calm_fin ..

theorem answers_execSchFrer (c : Cmd) (s : State) : Answers s (execSchFrer c s) :=
  answers_next <| calm_command fun _ => (calm_fin ..).after <| calm_setStream ..

theorem answers_execSchFrerRd (c : Cmd) (s : State) : Answers s (execSchFrerRd c s) :=
  answers_next <| calm_command fun _ => calm_fin ..

theorem calm_polTokens (i : Nat) (p : Policer) (full : Bool) (s : State) : Calm s (polTokens i p full s) :=
  calm_each fun _ _ => calm_of_kept rfl

theorem answers_execPolSet (c : Cmd) (s : State) : Answers s (execPolSet c s) :=
  answers_next <| calm_command fun _ => (calm_fin ..).after <| (calm_polTokens ..).after <| calm_of_kept rfl

theorem answers_execPolRd (c : Cmd) (s : State) : Answers s (execPolRd c s) := answers_next <| calm_command fun _ => calm_fin ..

theorem answers_execGateWr (c : Cmd) (s : State) : Answers s (execGateWr c s) :=
  answers_next <| calm_command fun _ => (calm_fin ..).after <| calm_setGate ..

theorem answers_execGateSgWr (c : Cmd) (s : State) : Answers s (execGateSgWr c s) :=
  answers_next <| calm_command fun _ => (calm_fin ..).after <| calm_setSgate ..

theorem answers_execGateCommit (c : Cmd) (s : State) : Answers s (execGateCommit c s) :=
  answers_next <| calm_command fun _ => (calm_fin ..).after <| calm_setGate ..

theorem answers_execGateSgCommit (c : Cmd) (s : State) : Answers s (execGateSgCommit c s) :=
  answers_next <| calm_command fun _ => (calm_fin ..).after <| calm_setSgate ..

theorem answers_execGateRd (c : Cmd) (s : State) : Answers s (execGateRd c s) := answers_next <| calm_command fun _ => calm_fin ..

theorem calm_setTimer (req k : Nat) (t : Timer) (s : State) : Calm s (setTimer req k t s) := calm_of_kept rfl

theorem answers_execCalTimer (c : Cmd) (s : State) : Answers s (execCalTimer c s) := by
  unfold execCalTimer
  refine answers_next ?_
  refine calm_command fun _ => ?_
  exact calm_ite (fun _ => calm_ite (fun _ => (calm_fin ..).after <| calm_setTimer ..) fun _ => calm_fin ..)
    fun _ => (calm_fin ..).after <| calm_setTimer ..

theorem calm_timerFires (req k : Nat) (s : State) : Calm s (timerFires req k s) := (calm_postAt ..).after <| calm_setTimer ..

theorem answers_execTimerExpiry (req timer_ : Nat) (s : State) : Answers s (execTimerExpiry req timer_ s) :=
  answers_next <| calm_when fun _ => calm_timerFires ..

theorem answers_execCalRd (c : Cmd) (s : State) : Answers s (execCalRd c s) := answers_next <| calm_command fun _ => calm_fin ..

/-! ## Telemetry (R422 to R434) -/

theorem calm_advanceClasses (s : State) : Calm s (advanceClasses s) := calm_of_kept rfl

theorem calm_freeze (req set : Nat) (s : State) : Calm s (freeze req set s) :=
  calm_ite (fun _ => calm_of_kept rfl) fun _ => Calm.rfl

theorem answers_execCntFrz (c : Cmd) (s : State) : Answers s (execCntFrz c s) :=
  answers_next <| calm_command fun _ => (calm_fin ..).after <| (calm_advanceClasses ..).after <| calm_each fun _ _ =>
    calm_freeze ..

theorem answers_execCntRd (c : Cmd) (s : State) : Answers s (execCntRd c s) := answers_next <| calm_command fun _ => calm_fin ..

theorem calm_writeDump (req r set seq lo hi : Nat) (skipped : Bool) (s : State) :
    Calm s (writeDump req r set seq lo hi skipped s) :=
  calm_each fun _ _ => (calm_advanceClasses ..).after <| calm_pushEntry ..

theorem calm_subscribe (req set r : Nat) (s : State) : Calm s (subscribe req set r s) := calm_of_kept rfl

theorem calm_dumpStep (c : Cmd) (cur : Nat) (tot : Nat × Nat) (s : State) : Calm s (dumpStep c cur tot s).1 := by
  unfold dumpStep
  dsimp only
  split
  · exact Calm.rfl
  · split
    · exact Calm.rfl
    · dsimp only
      exact calm_writeDump ..

theorem answers_execCntDump (c : Cmd) (s : State) : Answers s (execCntDump c s) := by
  unfold execCntDump
  refine answers_next ?_
  refine calm_command fun _ => ?_
  exact (calm_iterRun fun _ _ _ => calm_dumpStep ..).after <| calm_when fun _ => calm_subscribe ..

theorem calm_pumpBlock (req r set seq lo hi : Nat) (s : State) : Calm s (pumpBlock req r set seq lo hi s).1 := by
  unfold pumpBlock
  dsimp only
  refine calm_each fun _ _ => ?_
  exact calm_ite (fun _ => (calm_withTel ..).after <| (calm_advanceClasses ..).after <| calm_pushEntry ..)
    fun _ => (calm_advanceClasses ..).after <| calm_pushEntry ..

theorem calm_pumpN (req set : Nat) : ∀ (n : Nat) (s : State), Calm s (pumpN req set n s)
  | 0, _ => Calm.rfl
  | n + 1, s => by
    unfold pumpN
    dsimp only
    split
    · refine calm_ite (fun _ => ?_) fun _ => (calm_pumpN req set n _).after ?_
      all_goals exact (calm_withTel ..).after <| calm_pumpBlock ..
    · exact Calm.rfl

theorem calm_pump (req set : Nat) (s : State) : Calm s (pump req set s) := calm_pumpN ..

theorem calm_beginDump (set req : Nat) (s : State) : Calm s (beginDump set req s) := by
  unfold beginDump
  refine calm_ite (fun _ => Calm.rfl) fun _ => ?_
  exact calm_ite (fun _ => (calm_ownerCnt ..).after <| calm_of_kept rfl) fun _ => (calm_pump ..).after <| calm_of_kept rfl

theorem calm_periodBegins (set : Nat) (s : State) : Calm s (periodBegins set s) := calm_each fun _ _ => calm_beginDump ..

theorem answers_execDumpPeriod (set : Nat) (s : State) : Answers s (execDumpPeriod set s) :=
  answers_next <| calm_when fun _ => calm_periodBegins ..

theorem answers_execCntPer (c : Cmd) (s : State) : Answers s (execCntPer c s) :=
  answers_next <| calm_command fun _ => (calm_when fun _ => calm_periodBegins ..).after <| (calm_fin ..).after <| calm_rset ..

theorem calm_unsubscribe (f : Nat → Option Nat → Bool) (s : State) : Calm s (unsubscribe f s) := calm_of_kept rfl

theorem calm_pumpRing (req r : Nat) (s : State) : Calm s (pumpRing req r s) :=
  calm_each fun _ _ => calm_when fun _ => calm_pump ..

theorem answers_execEngineSample (e skid : Nat) (s : State) : Answers s (execEngineSample e skid s) := by
  unfold execEngineSample
  refine answers_next ?_
  split
  · exact Calm.rfl
  · refine calm_ite (fun _ => Calm.rfl) fun _ => ?_
    exact calm_ite (fun _ => calm_ownerCnt ..) fun _ => (calm_telRecord ..).after <| calm_advanceFree _

/-! ## Rings and the host interface (R365 to R385) -/

theorem calm_ringFails (req r : Nat) (f : Ring → Ring) (s : State) : Calm s (ringFails req r f s) :=
  (calm_ringError ..).after <| calm_setRing ..

theorem calm_bellRefused (req r : Nat) (s : State) : Calm s (bellRefused req r s) :=
  (calm_ringError ..).after <| (calm_ringCnt ..).after <| calm_setRing ..

theorem calm_writeSummary (req r : Nat) (s : State) : Calm s (writeSummary req r s) :=
  calm_ite (fun _ => (calm_pushEntry ..).after <| calm_setRing ..) fun _ => Calm.rfl

theorem calm_bellSubmit (req r idx : Nat) (s : State) : Calm s (bellSubmit req r idx s) :=
  calm_ite (fun _ => Calm.rfl) fun _ => (calm_setRing ..).after <| calm_of_kept rfl

theorem calm_bellConsume (req r idx : Nat) (s : State) : Calm s (bellConsume req r idx s) :=
  calm_ite (fun _ => calm_setRing ..) fun _ => (calm_when fun _ => calm_postTod ..).after <| (calm_pumpRing ..).after <|
    (calm_writeSummary ..).after <| calm_setRing ..

theorem calm_doorbell (req r idx : Nat) (s : State) : Calm s (doorbell req r idx s) := by
  unfold doorbell
  refine calm_ite (fun _ => Calm.rfl) fun _ => ?_
  exact calm_ite (fun _ => calm_bellRefused ..) fun _ => calm_ite (fun _ => calm_bellSubmit ..) fun _ => calm_bellConsume ..

theorem answers_execRingDoorbell (req ring idx : Nat) (s : State) : Answers s (execRingDoorbell req ring idx s) :=
  answers_next <| calm_when fun _ => calm_doorbell ..

theorem calm_keepFetched (req r : Nat) (es : List (List Word)) (s : State) : Calm s (keepFetched req r es s) :=
  (calm_setRing ..).after <| calm_of_kept rfl

theorem answers_execPhaseRecheck (req ring : Nat) (entry : List Word) (s : State) :
    Answers s (execPhaseRecheck req ring entry s) := by
  unfold execPhaseRecheck
  refine answers_next ?_
  refine calm_when fun _ => ?_
  exact calm_ite (fun _ => (calm_keepFetched ..).after <| calm_setRing ..) fun _ => calm_ringFails ..

theorem calm_homeAdmin (req : Nat) (s : State) : Calm s (homeAdmin req s) := by
  unfold homeAdmin
  dsimp only
  split
  · exact calm_setRing ..
  · exact Calm.rfl

theorem calm_enableRing (req r : Nat) (s : State) : Calm s (enableRing req r s) := by
  unfold enableRing
  refine calm_when fun _ => ?_
  exact (calm_when fun _ => calm_postTod ..).after <| (calm_pumpRing ..).after <| calm_ite (fun _ => (calm_homeAdmin ..).after <|
    calm_setRing ..) fun _ => calm_setRing ..

theorem calm_disableRing (req r : Nat) (s : State) : Calm s (disableRing req r s) :=
  calm_when fun _ => (calm_ringStop ..).after <| calm_endPartial ..

theorem answers_execRingEnable (req ring : Nat) (s : State) : Answers s (execRingEnable req ring s) :=
  answers_next <| calm_when fun _ => calm_enableRing ..

theorem answers_execRingDisable (req ring : Nat) (s : State) : Answers s (execRingDisable req ring s) :=
  answers_next <| calm_when fun _ => calm_disableRing ..

theorem answers_execMsixHoldoffEnd (req ring : Nat) (s : State) : Answers s (execMsixHoldoffEnd req ring s) :=
  answers_next <| calm_when fun _ => (calm_when fun _ => calm_sendVector ..).after <| calm_setRing ..

theorem answers_execHostReadTimeout (req ring : Nat) (ringMem : Bool) (s : State) :
    Answers s (execHostReadTimeout req ring ringMem s) := by
  unfold execHostReadTimeout
  refine answers_next ?_
  refine calm_when fun _ => ?_
  refine calm_ite (fun _ => (calm_ringFails ..).after <| calm_rset ..) fun _ => ?_
  split
  · exact (calm_completeWith ..).after <| calm_rset ..
  · exact calm_rset ..

theorem calm_clearRings (req : Nat) (f : Ring → Ring) (s : State) : Calm s (clearRings req f s) :=
  ⟨rfl, rfl, rfl, id, id, fun ⟨hm, hr, hg, hu⟩ => ⟨hm, hr, tput_wf _ _ (Tab_wf_filter _ hg), hu⟩⟩

theorem calm_freeRingBufs (sl : Nat) (s : State) : Calm s (freeRingBufs sl s) :=
  (calm_each fun _ _ => calm_retryWaits ..).after <| (calm_bufFreeAll ..).after <| calm_of_kept rfl

theorem calm_sliceStep4 (sl : Nat) (s : State) : Calm s (sliceStep4 sl s) :=
  (calm_secDrop ..).after <| (calm_unsubscribe ..).after <| (calm_withTel ..).after <| Calm.after (calm_withHif rfl) <|
    (calm_freeRingBufs ..).after <| calm_flushPort ..

theorem calm_waitedEnds (sl : Nat) (c : Cmd) (s : State) : Calm s (waitedEnds sl c s) :=
  (calm_fin ..).after <| calm_ite (fun _ => (calm_rput ..).after <| calm_setRing ..) fun _ => Calm.rfl

theorem calm_sliceResetEnd (sl : Nat) (s : State) : Calm s (sliceResetEnd sl s) :=
  (calm_each fun _ _ => calm_waitedEnds ..).after <| (calm_resetDone ..).after <| Calm.after (calm_withHif rfl) <|
    (calm_clearRings ..).after <| calm_sliceStep4 ..

theorem answers_execSliceResetDone (slice : Nat) (s : State) : Answers s (execSliceResetDone slice s) :=
  answers_next <| calm_when fun _ => calm_sliceResetEnd ..

theorem calm_resetAndWait (c : Cmd) (sl : Nat) (s : State) : Calm s (resetAndWait c sl s) :=
  calm_ite (fun _ => Calm.rfl) fun _ => Calm.after (calm_withHif rfl) <| (calm_commandWaits ..).after <| calm_sliceResetStart ..

theorem answers_execSlcRst (c : Cmd) (s : State) : Answers s (execSlcRst c s) :=
  answers_next <| calm_command fun _ => calm_resetAndWait ..

theorem answers_execSlcInfo (c : Cmd) (s : State) : Answers s (execSlcInfo c s) :=
  answers_next <| calm_command fun _ => calm_fin ..

theorem answers_execRingBind (c : Cmd) (s : State) : Answers s (execRingBind c s) :=
  answers_next <| calm_command fun _ => calm_ite (fun _ => calm_fin ..) fun _ => (calm_fin ..).after <| calm_rput ..

theorem answers_execRingUnbind (c : Cmd) (s : State) : Answers s (execRingUnbind c s) :=
  answers_next <| calm_command fun _ => calm_resetAndWait ..

theorem calm_takeFlags (c : Cmd) (s : State) : Calm s (takeFlags c s) := calm_rings ..

theorem answers_execRingCrt (c : Cmd) (s : State) : Answers s (execRingCrt c s) := by
  unfold execRingCrt
  refine answers_next ?_
  refine calm_command fun _ => ?_
  exact calm_ite (fun _ => calm_fin ..) fun _ => (calm_fin ..).after <| (calm_setRing ..).after <| calm_takeFlags ..

theorem calm_destroyRing (req r : Nat) (s : State) : Calm s (destroyRing req r s) :=
  (calm_setRing ..).after <| calm_unsubscribe ..

theorem answers_execRingDst (c : Cmd) (s : State) : Answers s (execRingDst c s) := by
  unfold execRingDst
  refine answers_next ?_
  refine calm_command fun _ => ?_
  refine calm_ite (fun _ => calm_fin ..) fun _ => ?_
  exact calm_ite (fun _ => (calm_fin ..).after <| (calm_destroyRing ..).after <| calm_disableRing ..)
    fun _ => (calm_commandWaits ..).after <| calm_disableRing ..

theorem answers_execSysNop (c : Cmd) (s : State) : Answers s (execSysNop c s) := answers_next <| calm_command fun _ => calm_fin ..

theorem answers_execSysFence (c : Cmd) (s : State) : Answers s (execSysFence c s) :=
  answers_next <| calm_command fun _ => calm_ite (fun _ => calm_fin ..) fun _ => calm_commandWaits ..

theorem calm_txClaim {c : Cmd} {s t : State} {st : Nat} {f : State → State} (e : txClaim c s = some (st, f)) : Calm t (f t) := by
  unfold txClaim at e
  split at e
  · cases e
  · split at e
    · obtain ⟨-, rfl⟩ := Prod.mk.inj (Option.some.inj e)
      exact calm_freeTwice ..
    · split at e
      · obtain ⟨-, rfl⟩ := Prod.mk.inj (Option.some.inj e)
        exact calm_freeForeign ..
      · cases e

theorem calm_txTake (c : Cmd) (fid : Nat) (done : Option (Nat × List (Nat × Word))) (s : State) : Calm s (txTake c fid done s) :=
  (calm_txFlush ..).after <| calm_setRing ..

theorem calm_txEnds (c : Cmd) (st : Nat) (s : State) : Calm s (txEnds c st s) := calm_txTake ..

theorem calm_txGoes (c : Cmd) (f : Frame) (s : State) : Calm s (txGoes c f s) := by
  unfold txGoes
  refine calm_ite (fun _ => (calm_wakePipe ..).after <| calm_of_kept rfl) fun _ => ?_
  refine calm_ite (fun _ => (calm_frameOver ..).after <| (calm_portCnt ..).after <| (calm_portCnt ..).after <| calm_emit ..)
    fun _ => ?_
  dsimp only
  split
  · exact (calm_tileCnt ..).after <| (calm_gone ..).after <| calm_of_kept rfl
  · exact (calm_toLeaf ..).after <| calm_of_kept rfl

theorem calm_txSend (c : Cmd) (s : State) : Calm s (txSend c s) :=
  (calm_txGoes ..).after <| (calm_txTake ..).after <| calm_of_kept rfl

theorem calm_txToMgmt (c : Cmd) (s : State) : Calm s (txToMgmt c s) :=
  (calm_txTake ..).after <| (calm_when fun _ => calm_bufRelease ..).after <| calm_emit ..

theorem calm_txWaits (c : Cmd) (s : State) : Calm s (txWaits c s) := calm_setRing ..

theorem calm_txPass (c : Cmd) (s : State) : Calm s (txPass c s) := by
  unfold txPass
  refine calm_ite (fun _ => calm_ite (fun _ => calm_txToMgmt ..) fun _ => calm_txSend ..) fun _ => ?_
  refine calm_ite (fun _ => calm_ite (fun _ => calm_txEnds ..) fun _ => calm_txToMgmt ..) fun _ => ?_
  split
  · exact calm_txWaits ..
  · exact calm_ite (fun _ => (calm_txEnds ..).after <| (calm_bufRelease ..).after <| calm_allocFor ‹_›)
      fun _ => (calm_txSend ..).after <| (calm_bufRelease ..).after <| calm_allocFor ‹_›

theorem answers_execPacketTxTake (c : Cmd) (s : State) : Answers s (execPacketTxTake c s) := by
  refine answers_next <| calm_when fun _ => ?_
  split
  · exact calm_txEnds ..
  · split
    · exact (calm_txEnds ..).after <| calm_txClaim ‹_›
    · exact calm_txPass ..

theorem calm_decodeErr (b bar off : Nat) (s : State) : Calm s (decodeErr b bar off s) := calm_rput ..

theorem calm_msixWrite (k : Nat) (w : Word) (s : State) : Calm s (msixWrite k w s) :=
  calm_ite (fun _ => (calm_emitHost ..).after <| Calm.after (calm_withHif rfl) <| calm_of_kept rfl) fun _ => calm_of_kept rfl

theorem calm_msixPendWrite (k n : Nat) (s : State) : Calm s (msixPendWrite k n s) := calm_of_kept rfl

theorem calm_bar4Effect (off be : Nat) (val : Word) (s : State) : Calm s (bar4Effect off be val s) := by
  unfold bar4Effect
  refine calm_ite (fun _ => ?_) fun _ => ?_
  · exact calm_ite (fun _ => calm_msixWrite ..) fun _ => (calm_advanceFree ..).after <| calm_msixWrite ..
  · exact calm_ite (fun _ => (calm_advanceFree ..).after <| calm_msixPendWrite ..) fun _ => calm_decodeErr ..

theorem calm_pasidReject (s : State) : Calm s (pasidReject s) := (calm_rset ..).after <| calm_ringCnt ..

theorem answers_execBar4Write (a : Access) (s : State) : Answers s (execBar4Write a s) :=
  answers_next <| calm_when fun _ => calm_ite (fun _ => calm_pasidReject _) fun _ => calm_bar4Effect ..

theorem answers_execPcieLinkChange (up : Bool) (speed width : Nat) (s : State) :
    Answers s (execPcieLinkChange up speed width s) :=
  answers_next <| calm_when fun _ => calm_rput ..

/-! ## Engines (R348 to R362) -/

theorem calm_microPush (e : Nat) (g : Engine) (target : Nat) (s : State) : Calm s (microPush e g target s).1 := by
  unfold microPush
  split
  · exact Calm.rfl
  · dsimp only
    exact calm_setEngine ..

theorem calm_ebFree (e lo n : Nat) (s : State) : Calm s (ebFree e lo n s) :=
  calm_each fun _ _ => (calm_advanceFree ..).after <| calm_when fun _ => calm_setEngine ..

theorem calm_accessEnds (e d : Nat) (bad : Bool) (s : State) : Calm s (accessEnds e d bad s) := calm_setEngine ..

theorem calm_microOther (e op d imm : Nat) (a b : Word) (g : Engine) (s : State) : Calm s (microOther e op d imm a b g s).1 := by
  unfold microOther
  dsimp only
  split
  · exact Calm.rfl
  · dsimp only
    exact calm_setEngine ..
  · dsimp only
    exact calm_setEngine ..
  · split
    · exact Calm.rfl
    · dsimp only
      exact (calm_advanceFree ..).after <| (calm_accessEnds ..).after <| calm_ebFree ..
  · split
    · exact Calm.rfl
    · dsimp only
      exact calm_setEngine ..
  · dsimp only
    exact (calm_advanceFree ..).after <| (calm_accessEnds ..).after <| calm_ebFree ..
  · dsimp only
    exact (calm_accessEnds ..).after <| calm_emitHost ..
  · split
    · exact Calm.rfl
    · dsimp only
      exact calm_setEngine ..
  · dsimp only
    exact calm_setEngine ..
  · exact Calm.rfl
  · exact Calm.rfl
  · exact Calm.rfl
  · exact calm_microPush ..
  · split
    · exact Calm.rfl
    · dsimp only
      exact calm_setEngine ..
  · split
    · exact calm_microPush ..
    · exact Calm.rfl
  · dsimp only
    exact (calm_setEngine ..).after <| calm_emitHost ..
  · dsimp only
    exact calm_completeWith ..
  · dsimp only
    exact calm_setRing ..
  · exact Calm.rfl
  · exact Calm.rfl
  · dsimp only
    exact calm_postAt ..
  · exact Calm.rfl

theorem calm_microExec (e : Nat) (w : Word) (s : State) : Calm s (microExec e w s).1 := by
  unfold microExec
  dsimp only
  split
  · dsimp only
    exact calm_setEngine ..
  · exact calm_microOther ..

theorem calm_microFault (e code : Nat) (s : State) : Calm s (microFault e code s) :=
  calm_ite (fun _ => (calm_report ..).after <| calm_setEngine ..) fun _ => (calm_fenceEngine ..).after <|
    (calm_report ..).after <| calm_setEngine ..

theorem calm_takeRequest (e : Nat) (s : State) : Calm s (takeRequest e s) :=
  calm_ite (fun _ => calm_fenceEngine ..) fun _ => calm_ite (fun _ => calm_engineReset ..) fun _ => Calm.rfl

theorem calm_microBoundary (e : Nat) (s : State) : Calm s (microBoundary e s) :=
  (calm_takeRequest ..).after <| (calm_setEngine ..).after <| calm_advanceFree _

theorem calm_microStep (e : Nat) (s : State) : Calm s (microStep e s) := by
  unfold microStep
  refine calm_ite (fun _ => Calm.rfl) fun _ => ?_
  split
  · exact calm_microFault ..
  · dsimp only
    split
    · exact (calm_microFault ..).after <| (calm_microExec ..).after <| calm_setEngine ..
    · exact (calm_microBoundary ..).after <| (calm_microExec ..).after <| calm_setEngine ..
    · refine calm_ite (fun _ => (calm_microFault ..).after <| (calm_microExec ..).after <| calm_setEngine ..) fun _ => ?_
      refine calm_ite (fun _ => (calm_microFault ..).after <| (calm_microExec ..).after <| calm_setEngine ..) fun _ => ?_
      exact calm_ite (fun _ => (calm_takeRequest ..).after <| (calm_setEngine ..).after <| (calm_microExec ..).after <|
        calm_setEngine ..) fun _ => (calm_setEngine ..).after <| (calm_microExec ..).after <| calm_setEngine ..

theorem calm_microRun (e : Nat) : ∀ (n : Nat) (s : State), Calm s (microRun e n s)
  | 0, _ => Calm.rfl
  | n + 1, _ => (calm_microRun e n _).after <| calm_microStep ..

theorem answers_execEngineFenceTimeout (e : Nat) (s : State) : Answers s (execEngineFenceTimeout e s) :=
  answers_next <| calm_when fun _ => calm_takeRequest ..

theorem calm_dropUndefined (q r : Nat) : ∀ (l : List (Nat × List Word)) (s : State), Calm s (dropUndefined q r l s)
  | [], _ => Calm.rfl
  | _ :: l, s => by
    unfold dropUndefined
    split
    · exact (calm_dropUndefined q r l _).after <| calm_completeWith ..
    · exact Calm.rfl

theorem calm_urgentFetched (req r : Nat) (s : State) : Calm s (urgentFetched req r s) := calm_when fun _ => calm_urgentStops ..

theorem calm_dispatch (e req r : Nat) (d : List Word) (s : State) : Calm s (dispatch e req r d s) := calm_setEngine ..

theorem calm_microTurn (req r n : Nat) (s : State) : Calm s (microTurn req r n s) := by
  unfold microTurn
  refine calm_ite (fun _ => Calm.rfl) fun _ => ?_
  split
  · split
    · exact calm_ite (fun _ => (calm_microRun ..).after <| calm_dispatch ..) fun _ => Calm.rfl
    · exact calm_ite (fun _ => calm_microRun ..) fun _ => Calm.rfl
  · exact Calm.rfl

theorem calm_fetched (req ring : Nat) (entries : List (List Word)) (micro : Nat) (s : State) :
    Calm s (fetched req ring entries micro s) :=
  (calm_microTurn ..).after <| (calm_dropUndefined ..).after <| (calm_urgentFetched ..).after <| calm_keepFetched ..

theorem answers_execDescriptorFetchDone (req ring : Nat) (entries : List (List Word)) (micro : Nat) (s : State) :
    Answers s (execDescriptorFetchDone req ring entries micro s) :=
  answers_next <| calm_ite (fun _ => calm_fetched ..) fun _ => calm_when fun _ => calm_microTurn ..

/-! ## Power and thermal events (R26 to R64) -/

theorem calm_setBus (v : Nat) (s : State) : Calm s (setBus v s) := calm_rset ..

theorem calm_measureBus (f : Nat → Nat) (s : State) : Calm s (measureBus f s) := (calm_advanceFree ..).after <| calm_setBus ..

theorem calm_setPlate (plate : Int) (s : State) : Calm s (setPlate plate s) := (calm_rset ..).after <| calm_rset ..

theorem answers_execMainsLost (s : State) : Answers s (execMainsLost s) :=
  answers_next <| (calm_pset ..).after <| (calm_when fun _ => calm_pset ..).after <| calm_of_kept rfl

theorem answers_execMainsReturn (s : State) : Answers s (execMainsReturn s) :=
  answers_next <| (calm_pset ..).after <| calm_of_kept rfl

theorem answers_execConverterStop (s : State) : Answers s (execConverterStop s) := answers_next <| calm_of_kept rfl

theorem answers_execConverterFault (s : State) : Answers s (execConverterFault s) :=
  answers_next <| calm_when fun _ => (calm_report ..).after <| calm_pset ..

/-- A state that starts again but for its queue, its identity and what else `Calm` does not speak of. -/
theorem calm_fresh {s t : State} (hp : t.pending = s.pending) (hs : t.serial = s.serial) (hi : t.ident = s.ident)
    (ht : t.tim = {}) (hf : t.flt.fifo = []) (hc : t.mem = [] ∧ t.regs = [] ∧ t.hif = {} ∧ t.fab = {}) : Calm s t := by
  obtain ⟨hm, hr, hh, hb⟩ := hc
  refine ⟨hp, hs, hi, fun _ => ?_, fun _ => ?_, fun _ => ?_⟩
  · rw [State.TimeLegal, ht]
    exact reset_time_legal
  · rw [State.FifoBounded, hf]
    exact Nat.zero_le 64
  · rw [State.Canonical, hm, hr, hh, hb]
    exact ⟨rfl, rfl, rfl, rfl⟩

theorem calm_powerOn (s : State) : Calm s (powerOn s) :=
  (calm_when fun _ => calm_pset ..).after <| (calm_rput ..).after <| calm_fresh rfl rfl rfl rfl rfl ⟨rfl, rfl, rfl, rfl⟩

theorem answers_execSupplyGood (s : State) : Answers s (execSupplyGood s) := by
  unfold execSupplyGood
  refine answers_next ?_
  refine calm_when fun _ => ?_
  exact (calm_measureBus ..).after <| calm_ite (fun _ => calm_pset ..) fun _ => calm_powerOn _

theorem calm_unpowered (s : State) : Calm s (unpowered s) :=
  (calm_rput ..).after <| (calm_rput ..).after <| calm_fresh rfl rfl rfl rfl rfl ⟨rfl, rfl, rfl, rfl⟩

theorem answers_execBusBelow250v (s : State) : Answers s (execBusBelow250v s) :=
  answers_next <| calm_when fun _ => calm_unpowered _

theorem answers_execPlateColdHoldEnd (s : State) : Answers s (execPlateColdHoldEnd s) :=
  answers_next <| calm_when fun _ => calm_setPlate ..

theorem calm_suspendedEnds (s : State) : Calm s (suspendedEnds s) := calm_each fun _ _ => calm_endBusy ..

theorem calm_iterativesEnd (s : State) : Calm s (iterativesEnd s) := calm_each fun _ _ => calm_endPartial ..

theorem calm_sagBegins (s : State) : Calm s (sagBegins s) :=
  (calm_suspendedEnds ..).after <| (calm_iterativesEnd ..).after <| (calm_secUrgent ..).after <| (calm_pset ..).after <|
    (calm_pset ..).after <| calm_of_kept rfl

theorem calm_sagEarly (s : State) : Calm s (sagEarly s) := (calm_setStage ..).after <| calm_of_kept rfl

theorem answers_execSagThresholdCrossing (s : State) : Answers s (execSagThresholdCrossing s) := by
  unfold execSagThresholdCrossing
  refine answers_next ?_
  refine calm_ite (fun _ => calm_of_kept rfl) fun _ => ?_
  refine calm_when fun _ => ?_
  exact calm_ite (fun _ => (calm_sagBegins ..).after <| (calm_measureBus ..).after <| calm_pset ..)
    fun _ => (calm_sagEarly ..).after <| (calm_measureBus ..).after <| calm_pset ..

theorem calm_shedGroup (g : Nat) (s : State) : Calm s (shedGroup g s) :=
  (calm_cagePins ..).after <| calm_each fun _ _ => calm_portHoldDown ..

theorem answers_execSagShedTick (s : State) : Answers s (execSagShedTick s) :=
  answers_next <| calm_when fun _ => (calm_each fun _ _ => calm_shedGroup ..).after <| calm_of_kept rfl

theorem calm_putSave (k : Nat) (x : SaveSlot) (s : State) : Calm s (putSave k x s) := calm_of_kept rfl

theorem calm_saveBegins (s : State) : Calm s (saveBegins s) :=
  (calm_putSave ..).after <| (calm_withPwr ..).after <| Calm.after (calm_withFramesFab rfl) <| calm_freezeFifo _

theorem answers_execSaveStart (s : State) : Answers s (execSaveStart s) := answers_next <| calm_when fun _ => calm_saveBegins _

theorem answers_execSaveWritten (s : State) : Answers s (execSaveWritten s) :=
  answers_next <| calm_when fun _ => (calm_rset ..).after <| (calm_withPwr ..).after <| calm_putSave ..

theorem calm_sagReset (s : State) : Calm s (sagReset s) :=
  calm_ite (fun _ => (calm_coldReset ..).after <| calm_of_kept rfl) fun _ => calm_moduleReset ..

theorem calm_busReturns (s : State) : Calm s (busReturns s) :=
  (calm_sagReset ..).after <| (calm_pset ..).after <| (calm_when fun _ => calm_pset ..).after <| calm_measureBus ..

theorem calm_sagStart (s : State) : Calm s (sagStart s) := (calm_measureBus ..).after <| calm_powerOn _

theorem answers_execBusAtReturnThreshold (s : State) : Answers s (execBusAtReturnThreshold s) :=
  answers_next <| calm_ite (fun _ => calm_when fun _ => calm_busReturns _) fun _ => calm_when fun _ => calm_sagStart _

theorem calm_pinFrom (perst : Bool) (s : State) : Calm s (pinFrom perst s) := calm_rset ..

theorem answers_execModResetNAssert (s : State) : Answers s (execModResetNAssert s) :=
  answers_next <| calm_when fun _ => (calm_requestReset ..).after <| (calm_pinFrom ..).after <| calm_of_kept rfl

theorem answers_execModResetNRelease (s : State) : Answers s (execModResetNRelease s) := answers_next <| calm_of_kept rfl

theorem calm_managerOut (s : State) : Calm s (managerOut s) := by
  unfold managerOut
  dsimp only
  refine (calm_clearRings ..).after <| (calm_secDrop ..).after <| (calm_unsubscribe ..).after ?_
  generalize hu : forEach _ _ s = u
  refine Calm.after (t := u) (calm_of_kept rfl) ?_
  subst hu
  refine calm_each fun _ _ => ?_
  split
  · exact calm_iterStops ..
  · exact Calm.rfl

theorem calm_hostReset (s : State) : Calm s (hostReset s) :=
  (calm_each fun _ _ => calm_sliceResetStart ..).after <| (calm_managerOut ..).after <| calm_endpointReset _

theorem answers_execPerstNAssert (s : State) : Answers s (execPerstNAssert s) := by
  unfold execPerstNAssert
  refine answers_next ?_
  refine calm_when fun _ => ?_
  exact calm_ite (fun _ => (calm_when fun _ => calm_hostReset _).after <| (calm_pset ..).after <| calm_pinFrom ..)
    fun _ => (calm_requestReset ..).after <| calm_pinFrom ..

theorem answers_execFunctionLevelReset (s : State) : Answers s (execFunctionLevelReset s) :=
  answers_next <| calm_when fun _ => calm_hostReset _

theorem answers_execWatchdogExpiry (s : State) : Answers s (execWatchdogExpiry s) :=
  answers_next <| calm_when fun _ => calm_report ..

theorem calm_noteShed (s : State) : Calm s (noteShed s) := calm_rset ..

theorem calm_shedTo (most : Nat) : ∀ (l : List Nat) (s : State), Calm s (shedTo most l s)
  | [], _ => Calm.rfl
  | _ :: l, _ => calm_ite (fun _ => Calm.rfl) fun _ =>
    calm_ite (fun _ => (calm_shedTo most l _).after <| (calm_shedGroup ..).after <| calm_of_kept rfl) fun _ => calm_shedTo most l _

theorem answers_execThermShed (plate : Int) (s : State) : Answers s (execThermShed plate s) :=
  answers_next <| calm_when fun _ => (calm_report ..).after <| (calm_noteShed ..).after <| (calm_shedTo ..).after <|
    (calm_withPwr ..).after <| calm_setPlate ..

theorem calm_unshedGroup (g : Nat) (s : State) : Calm s (unshedGroup g s) :=
  (calm_when fun _ => calm_cagePins ..).after <| (calm_each fun _ _ => calm_portRelease ..).after <| calm_of_kept rfl

theorem calm_unshedTo (most : Nat) : ∀ (l : List Nat) (s : State), Calm s (unshedTo most l s)
  | [], _ => Calm.rfl
  | _ :: l, _ => calm_ite (fun _ => (calm_unshedTo most l _).after <| calm_unshedGroup ..) fun _ => Calm.rfl

theorem answers_execThermUnshed (plate : Int) (s : State) : Answers s (execThermUnshed plate s) := by
  unfold execThermUnshed
  refine answers_next ?_
  refine calm_when fun _ => ?_
  split
  · exact (calm_noteShed ..).after <| (calm_unshedTo ..).after <| (calm_withPwr ..).after <| calm_setPlate ..
  · exact Calm.rfl

theorem calm_thermTrip (u : Nat) (s : State) : Calm s (thermTrip u s) :=
  (calm_report ..).after <| calm_when fun _ => calm_of_kept rfl

theorem answers_execJunctionThermTrip (tile : Nat) (s : State) : Answers s (execJunctionThermTrip tile s) :=
  answers_next <| calm_when fun _ => calm_thermTrip ..

theorem answers_execPlateThermTrip (s : State) : Answers s (execPlateThermTrip s) :=
  answers_next <| calm_when fun _ => (calm_thermTrip ..).after <| (calm_advanceFree ..).after <| calm_setPlate ..

theorem answers_execThermHoldRelease (s : State) : Answers s (execThermHoldRelease s) :=
  answers_next <| calm_when fun _ => (calm_setPlate ..).after <| calm_of_kept rfl

/-! ## Start-up (R65 to R88) -/

theorem calm_stepEnds (share : Nat) (old s : State) : Calm s (stepEnds share old s) :=
  (calm_when fun _ => calm_report ..).after <| calm_of_kept rfl

theorem calm_unusedCage (c : Nat) (s : State) : Calm s (unusedCage c s) := calm_when fun _ => calm_cagePins ..

theorem calm_loadOptions (s : State) : Calm s (loadOptions s) :=
  (calm_each fun _ _ => calm_unusedCage ..).after <| (calm_setStage ..).after <| (calm_rput ..).after <| (calm_rput ..).after <|
    calm_of_kept rfl

theorem answers_execOptionsCommitted (s : State) : Answers s (execOptionsCommitted s) :=
  answers_next <| calm_when fun _ => calm_loadOptions _

theorem calm_reportSave (s : State) : Calm s (reportSave s) := (calm_rput ..).after <| calm_rput ..

theorem calm_releaseTime (s : State) : Calm s (releaseTime s) :=
  calm_ite (fun _ => Calm.rfl) fun _ => (calm_pset ..).after <| calm_timeZero s

theorem calm_fwStarts (b : Bool) (s : State) : Calm s (fwStarts b s) :=
  (calm_stepEnds ..).after <| (calm_checkKey ..).after <| (calm_loadDeviceKey ..).after <| (calm_releaseTime ..).after <|
    (calm_reportSave ..).after <| (calm_pset ..).after <| (calm_pset ..).after <| calm_setStage ..

theorem calm_clockGood (code : Nat) (s : State) : Calm s (clockGood code s) := calm_of_kept rfl

theorem calm_readClock (code : Nat) (s : State) : Calm s (readClock code s) :=
  calm_when fun _ => (calm_advanceFree ..).after <| calm_when fun _ => calm_clockGood ..

theorem calm_critClockGood (s : State) : Calm s (critClockGood s) := calm_of_kept rfl

theorem calm_clockAtStep3 (b : Bool) (s : State) : Calm s (clockAtStep3 b s) :=
  calm_ite (fun _ => (calm_fwStarts ..).after <| (calm_advanceFree ..).after <| calm_critClockGood _)
    fun _ => (calm_setStage ..).after <| (calm_advanceFree ..).after <| calm_pset ..

theorem answers_execFirmwareRunning (s : State) : Answers s (execFirmwareRunning s) := by
  unfold execFirmwareRunning
  refine answers_next ?_
  refine calm_when fun _ => ?_
  split
  · exact calm_setStage ..
  · exact calm_ite (fun _ => calm_clockAtStep3 ..) fun _ => calm_fwStarts ..

theorem calm_loadPatch (b : Bool) (p : PatchBlock) (s : State) : Calm s (loadPatch b p s) :=
  (calm_pset ..).after <| calm_of_kept rfl

theorem answers_execPatchesDone (s : State) : Answers s (execPatchesDone s) := by
  unfold execPatchesDone
  refine answers_next ?_
  refine calm_when fun _ => ?_
  refine (calm_stepEnds ..).after ?_
  split
  · exact (calm_loadPatch ..).after <| calm_setStage ..
  · exact (calm_report ..).after <| (calm_withPatch ..).after <| calm_setStage ..

theorem calm_marchFails (c phys : Nat) (s : State) : Calm s (marchFails c phys s) :=
  (calm_report ..).after <| (calm_withNvm ..).after <| calm_setChannel ..

theorem calm_trainAll (failed : List Nat) (s : State) : Calm s (trainAll failed s) :=
  (calm_each fun _ _ => calm_report ..).after <| calm_each fun _ _ => calm_setChannel ..

theorem calm_chooseSlot (s : State) : Calm s (chooseSlot s) := by
  unfold chooseSlot
  dsimp only
  split
  · exact (calm_setStage ..).after <| (calm_pset ..).after <| calm_examineSlots _
  · exact (calm_setStage ..).after <| calm_examineSlots _

theorem answers_execDramReady (failed : List Nat) (march : List (Nat × Nat)) (s : State) :
    Answers s (execDramReady failed march s) :=
  answers_next <| calm_when fun _ => (calm_stepEnds ..).after <| (calm_chooseSlot ..).after <| (calm_reseed ..).after <|
    (calm_each fun _ _ => calm_marchFails ..).after <| (calm_trainAll ..).after <| calm_each fun _ _ => calm_readClock ..

theorem calm_retryNow (s : State) : Calm s (retryNow s) := calm_when fun _ => (calm_chooseSlot ..).after <| calm_of_kept rfl

theorem answers_execRetryImage (s : State) : Answers s (execRetryImage s) := answers_next <| calm_when fun _ => calm_retryNow _

theorem calm_coldTest (failed : List (Nat × Nat)) (s : State) : Calm s (coldTest failed s) :=
  calm_each fun _ _ => calm_fenceSlabs ..

theorem answers_execImageInTiles (failed : List (Nat × Nat)) (s : State) : Answers s (execImageInTiles failed s) := by
  unfold execImageInTiles
  refine answers_next ?_
  refine calm_when fun _ => ?_
  split
  · exact (calm_stepEnds ..).after <| (calm_when fun _ => calm_coldTest ..).after <| (calm_loadImage ..).after <| calm_setStage ..
  · exact Calm.rfl

theorem calm_plaitJoin (s : State) : Calm s (plaitJoin s) :=
  calm_each fun _ _ => (calm_rset ..).after <| (calm_rset ..).after <| (calm_rset ..).after <| calm_closeStripes ..

theorem calm_setReady (t : Nat) (s : State) : Calm s (setReady t s) := calm_rset ..

theorem calm_tileClocks (t : Nat) (s : State) : Calm s (tileClocks t s) := calm_each fun _ _ => calm_readClock ..

theorem calm_tilesFail (failed : List Nat) (s : State) : Calm s (tilesFail failed s) := calm_each fun _ _ => calm_report ..

theorem calm_tilesUp (s : State) : Calm s (tilesUp s) :=
  (calm_each fun _ _ => calm_homeAdmin ..).after <| (calm_updateLimit ..).after <| (calm_plaitJoin ..).after <| (calm_each fun _ _
    => calm_resetEngine ..).after <| (calm_each fun _ _ => (calm_setReady ..).after <| calm_tileClocks ..).after <|
    calm_setStage ..

theorem answers_execTilesReady (failed : List Nat) (s : State) : Answers s (execTilesReady failed s) :=
  answers_next <| calm_when fun _ => (calm_stepEnds ..).after <| (calm_tilesUp ..).after <| calm_tilesFail ..

theorem calm_goTile (t : Nat) (s : State) : Calm s (goTile t s) :=
  (calm_rset ..).after <| (calm_each fun _ _ => calm_portRelease ..).after <| calm_rset ..

theorem calm_goWrite (mask : Nat) (s : State) : Calm s (goWrite mask s) :=
  calm_each fun _ _ => calm_ite (fun _ => calm_goTile ..) fun _ => calm_rset ..

theorem answers_execTileGo (mask : Nat) (s : State) : Answers s (execTileGo mask s) :=
  answers_next <| calm_when fun _ => calm_goWrite ..

theorem calm_allGo (s : State) : Calm s (allGo s) :=
  (calm_each fun _ _ => calm_cagePins ..).after <| calm_each fun _ _ => calm_goTile ..

theorem answers_execCalendarRunning (s : State) : Answers s (execCalendarRunning s) :=
  answers_next <| calm_when fun _ => (calm_allGo ..).after <| (calm_stepEnds ..).after <| calm_setStage ..

theorem calm_islandFails (u : Nat) (s : State) : Calm s (islandFails u s) :=
  calm_ite (fun _ => calm_report ..) fun _ => calm_takeFault ..

theorem answers_execIslandReleaseTimeout (unit : Nat) (s : State) : Answers s (execIslandReleaseTimeout unit s) :=
  answers_next <| calm_when fun _ => calm_islandFails ..

theorem calm_copyHits (t : Nat) (s : State) : Calm s (copyHits t s) := by
  unfold copyHits
  split
  · exact Calm.rfl
  · exact calm_of_kept rfl

theorem calm_restartGates (t : Nat) (s : State) : Calm s (restartGates t s) := calm_of_kept rfl

theorem calm_rejoin (t : Nat) (s : State) : Calm s (rejoin t s) := by
  unfold rejoin
  dsimp only
  refine (calm_each fun _ _ => calm_selectTile ..).after <| (calm_when fun _ => calm_goTile ..).after <|
    (calm_when fun _ => calm_scheduleSwap ..).after <| (calm_updateLimit ..).after <| (calm_plaitJoin ..).after <|
    (calm_resetEngine ..).after <| (calm_resetEngine ..).after ?_
  generalize hu : forEach (List.range 8) _ _ = u
  refine Calm.after (calm_withFab rfl) ?_
  subst hu
  exact (calm_each fun _ _ => calm_setChannel ..).after <| (calm_setBank ..).after <| (calm_loadRows ..).after <|
    (calm_tileRegs ..).after <| (calm_tileClocks ..).after <| (calm_restartGates ..).after <| (calm_setReady ..).after <|
    calm_copyHits ..

theorem answers_execTileRejoinDone (t : Nat) (s : State) : Answers s (execTileRejoinDone t s) :=
  answers_next <| calm_when fun _ => calm_rejoin ..

theorem calm_clkLost (code : Nat) (s : State) : Calm s (clkLost code s) :=
  calm_ite (fun _ => Calm.rfl) fun _ => (calm_pset ..).after <| calm_rset ..

theorem calm_stopRings (s : State) : Calm s (stopRings s) := calm_each fun _ _ => calm_disableRing ..

theorem calm_domainLost (code : Nat) (s : State) : Calm s (domainLost code s) := by
  unfold domainLost
  refine calm_ite (fun _ => calm_each fun _ _ => (calm_clearSas ..).after <| (calm_setPort ..).after <| (calm_adjLost ..).after <|
    calm_portHoldDown ..) fun _ => ?_
  refine calm_ite (fun _ => calm_each fun _ _ => calm_retireRank ..) fun _ => ?_
  exact calm_ite (fun _ => (calm_stopRings ..).after <| calm_endpointReset _) fun _ => Calm.rfl

theorem calm_timeLost (code : Nat) (s : State) : Calm s (timeLost code s) :=
  calm_when fun _ => (calm_pset ..).after <| (calm_timeZero _).after <| calm_ppsLow _

theorem calm_clockBad (code : Nat) (s : State) : Calm s (clockBad code s) := calm_of_kept rfl

theorem calm_clockFails (code : Nat) (s : State) : Calm s (clockFails code s) :=
  (calm_timeLost ..).after <| (calm_report ..).after <| (calm_domainLost ..).after <| (calm_clkLost ..).after <| calm_clockBad ..

theorem answers_execClockLoss (code : Nat) (s : State) : Answers s (execClockLoss code s) :=
  answers_next <| calm_when fun _ => calm_ite (fun _ => calm_clockFails ..) fun _ => calm_clockBad ..

theorem answers_execClockRequalified (s : State) : Answers s (execClockRequalified s) :=
  answers_next <| calm_when fun _ => (calm_setUnit ..).after <| calm_clockGood ..

theorem calm_askEngineReset (e : Nat) (s : State) : Calm s (askEngineReset e s) :=
  calm_ite (fun _ => calm_setEngine ..) fun _ => calm_engineReset ..

theorem calm_scopeReset (scope target : Nat) (s : State) : Calm s (scopeReset scope target s) := by
  unfold scopeReset
  split
  · exact calm_when fun _ => calm_tileReset ..
  · exact calm_sliceResetStart ..
  · exact calm_when fun _ => calm_portReset ..
  · exact calm_when fun _ => calm_askEngineReset ..
  · exact Calm.rfl

theorem calm_swReset (key scope target : Nat) (s : State) : Calm s (swReset key scope target s) :=
  calm_ite (fun _ => Calm.rfl) fun _ => calm_ite (fun _ => calm_leadReset ..) fun _ => calm_scopeReset ..

theorem answers_execSwResetCold (key : Nat) (s : State) : Answers s (execSwResetCold key s) :=
  answers_next <| calm_when fun _ => calm_swReset ..

theorem answers_execSwResetWarm (key : Nat) (s : State) : Answers s (execSwResetWarm key s) :=
  answers_next <| calm_when fun _ => calm_swReset ..

theorem answers_execSwResetTile (key tile : Nat) (s : State) : Answers s (execSwResetTile key tile s) :=
  answers_next <| calm_when fun _ => calm_swReset ..

theorem answers_execSwResetSlice (key slice : Nat) (s : State) : Answers s (execSwResetSlice key slice s) :=
  answers_next <| calm_when fun _ => calm_swReset ..

theorem answers_execSwResetPort (key port : Nat) (s : State) : Answers s (execSwResetPort key port s) :=
  answers_next <| calm_when fun _ => calm_swReset ..

theorem answers_execSwResetEngine (key e : Nat) (s : State) : Answers s (execSwResetEngine key e s) :=
  answers_next <| calm_when fun _ => calm_swReset ..

theorem calm_finUnless (c : Cmd) (cons : Nat) (s : State) : Calm s (finUnless c cons s) :=
  calm_ite (fun _ => calm_fin ..) fun _ => Calm.rfl

theorem calm_sysResetRun (c : Cmd) (s : State) : Calm s (sysResetRun c s) := by
  unfold sysResetRun
  refine calm_ite (fun _ => (calm_leadReset ..).after <| calm_fin ..) fun _ => ?_
  refine calm_ite (fun _ => calm_resetAndWait ..) fun _ => ?_
  exact calm_ite (fun _ => (calm_commandWaits ..).after <| calm_askEngineReset ..) fun _ => (calm_finUnless ..).after <|
    calm_scopeReset ..

theorem answers_execSysReset (c : Cmd) (s : State) : Answers s (execSysReset c s) :=
  answers_next <| calm_command fun _ => calm_sysResetRun ..

theorem calm_writeOptions (n : Nat) (l : List Byte) (s : State) : Calm s (writeOptions n l s) := calm_of_kept rfl

theorem calm_takeOptions (c : Cmd) (cut : Option Nat) (l : List Byte) (s : State) : Calm s (takeOptions c cut l s) := by
  unfold takeOptions
  split
  · exact calm_writeOptions ..
  · exact (calm_fin ..).after <| (calm_rset ..).after <| calm_writeOptions ..

theorem answers_execSysOptWr (c : Cmd) (s : State) : Answers s (execSysOptWr c s) := by
  unfold execSysOptWr
  refine answers_next ?_
  refine calm_command fun _ => ?_
  split
  · exact calm_fin ..
  · exact calm_ite (fun _ => calm_takeOptions ..) fun _ => calm_fin ..

theorem answers_execSysOptRd (c : Cmd) (s : State) : Answers s (execSysOptRd c s) :=
  answers_next <| calm_command fun _ => calm_ite (fun _ => (calm_fin ..).after <| calm_emitHost ..) fun _ => calm_fin ..

theorem calm_putFw (b : Bool) (x : Option FwImage) (s : State) : Calm s (putFw b x s) := calm_of_kept rfl

theorem calm_putPatch (b : Bool) (x : Option PatchBlock) (s : State) : Calm s (putPatch b x s) := calm_of_kept rfl

theorem calm_stageFw (c : Cmd) (fw : FwImage) (s : State) : Calm s (stageFw c fw s) := by
  unfold stageFw
  refine calm_ite (fun _ => (calm_fin ..).after <| calm_putFw ..) fun _ => ?_
  exact calm_ite (fun _ => (calm_fin ..).after <| (calm_putFw ..).after <| calm_putFw ..) fun _ => (calm_fin ..).after <|
    calm_putFw ..

theorem calm_stagePatch (c : Cmd) (p : PatchBlock) (s : State) : Calm s (stagePatch c p s) := by
  unfold stagePatch
  refine calm_ite (fun _ => (calm_fin ..).after <| calm_putPatch ..) fun _ => ?_
  exact calm_ite (fun _ => (calm_fin ..).after <| (calm_putPatch ..).after <| calm_putPatch ..) fun _ => (calm_fin ..).after <|
    calm_putPatch ..

theorem answers_execSysFwStage (c : Cmd) (fw : FwImage) (patch : PatchBlock) (s : State) :
    Answers s (execSysFwStage c fw patch s) := by
  unfold execSysFwStage
  refine answers_next ?_
  refine calm_command fun _ => ?_
  exact calm_ite (fun _ => calm_ite (fun _ => calm_putPatch ..) fun _ => calm_putFw ..) fun _ => calm_ite (fun _ =>
    calm_stagePatch ..) fun _ => calm_stageFw ..

theorem answers_execUartFwHeader (slotB : Bool) (length : Nat) (s : State) : Answers s (execUartFwHeader slotB length s) :=
  answers_next <| calm_when fun _ => (calm_putFw ..).after <| calm_of_kept rfl

theorem calm_uartEnds (b : Bool) (fw : FwImage) (s : State) : Calm s (uartEnds b fw s) :=
  calm_ite (fun _ => (calm_emit ..).after <| (calm_putFw ..).after <| calm_of_kept rfl) fun _ => (calm_emit ..).after <|
    calm_of_kept rfl

theorem answers_execUartFwBlock (crcOk : Bool) (fw : FwImage) (s : State) : Answers s (execUartFwBlock crcOk fw s) := by
  unfold execUartFwBlock
  refine answers_next ?_
  split
  · exact Calm.rfl
  · refine calm_ite (fun _ => calm_emit ..) fun _ => ?_
    exact calm_ite (fun _ => (calm_uartEnds ..).after <| (calm_emit ..).after <| calm_of_kept rfl)
      fun _ => (calm_emit ..).after <| calm_of_kept rfl

/-! ## Faults, resets and power states (R399 to R421) -/

theorem answers_execFaultReport (unit code info addr : Nat) (s : State) : Answers s (execFaultReport unit code info addr s) :=
  answers_next <| calm_when fun _ => calm_ite (fun _ => calm_thermTrip ..) fun _ => calm_report ..

theorem answers_execSafePolicyTimeout (s : State) : Answers s (execSafePolicyTimeout s) :=
  answers_next <| calm_when fun _ => calm_requestReset ..

theorem answers_execCollectorResetTimeout (s : State) : Answers s (execCollectorResetTimeout s) :=
  answers_next <| calm_when fun _ => calm_arbitrateAs ..

theorem calm_popFault (s : State) : Calm s (popFault s) :=
  ⟨rfl, rfl, rfl, id, fun h => Nat.le_trans (List.drop_sublist 1 s.flt.fifo).length_le h, id⟩

theorem answers_execFltPop (s : State) : Answers s (execFltPop s) := answers_next <| calm_when fun _ => calm_popFault _

theorem calm_safeWrite (key : Nat) (s : State) : Calm s (safeWrite key s) := calm_when fun _ => calm_enterSafe _

theorem answers_execEnterSafe (key : Nat) (s : State) : Answers s (execEnterSafe key s) :=
  answers_next <| calm_when fun _ => calm_safeWrite ..

theorem calm_setSens (t : Nat) (f : Sensors → Sensors) (s : State) : Calm s (setSens t f s) := calm_of_kept rfl

theorem answers_execPaceMonitorSample (tile : Nat) (margins : List (Nat × Int)) (s : State) :
    Answers s (execPaceMonitorSample tile margins s) :=
  answers_next <| calm_when fun _ => calm_setSens ..

theorem answers_execAvsLoop (tile : Nat) (s : State) : Answers s (execAvsLoop tile s) := by
  unfold execAvsLoop
  refine answers_next ?_
  split
  · exact calm_when fun _ => calm_setSens ..
  · exact Calm.rfl

theorem answers_execPaceLow (tile island : Nat) (s : State) : Answers s (execPaceLow tile island s) :=
  answers_next <| calm_when fun _ => calm_report ..

theorem answers_execPaceMargin (tile : Nat) (s : State) : Answers s (execPaceMargin tile s) :=
  answers_next <| calm_when fun _ => calm_report ..

theorem answers_execJunctionSample (tile : Nat) (temps : List Int) (s : State) : Answers s (execJunctionSample tile temps s) := by
  unfold execJunctionSample
  refine answers_next ?_
  split
  · exact Calm.rfl
  · exact calm_when fun _ => (calm_when fun _ => calm_report ..).after <| (calm_throttleRise ..).after <| calm_setSens ..

theorem calm_unitReturns (u : Nat) (s : State) : Calm s (unitReturns u s) := by
  unfold unitReturns
  dsimp only
  split
  · exact (calm_setUnit ..).after <| calm_of_kept rfl
  · exact calm_ite (fun _ => (calm_each fun _ _ => calm_portRelease ..).after <| (calm_setUnit ..).after <| calm_clockGood ..)
      fun _ => (calm_setUnit ..).after <| calm_clockGood ..
  · exact calm_of_kept rfl
  · exact Calm.rfl

theorem calm_clearUnit (s : State) : Calm s (clearUnit s) :=
  calm_ite (fun _ => calm_advanceFree _) fun _ => (calm_unitReturns ..).after <| (calm_advanceFree ..).after <| calm_setUnit ..

theorem answers_execFltUnitClear (s : State) : Answers s (execFltUnitClear s) :=
  answers_next <| calm_when fun _ => calm_clearUnit _

theorem calm_holdAll (s : State) : Calm s (holdAll s) :=
  (calm_each fun _ _ => calm_flushPort ..).after <| calm_each fun _ _ => calm_portHoldDown ..

theorem calm_leadEnds (l : Lead) (s : State) : Calm s (leadEnds l s) := by
  unfold leadEnds
  dsimp only
  split
  · exact (calm_arbitrate ..).after <| calm_of_kept rfl
  · exact (calm_dormantStep ..).after <| (calm_holdAll ..).after <| calm_of_kept rfl

theorem answers_execLeaveLeadExpiry (s : State) : Answers s (execLeaveLeadExpiry s) := by
  unfold execLeaveLeadExpiry
  refine answers_next ?_
  split
  · exact calm_leadEnds ..
  · exact Calm.rfl

theorem calm_dormantBegins (s : State) : Calm s (dormantBegins s) :=
  calm_when fun _ => (calm_startLead ..).after <| calm_of_kept rfl

theorem calm_wakeAll (s : State) : Calm s (wakeAll s) := calm_of_kept rfl

theorem calm_dormantEnds (s : State) : Calm s (dormantEnds s) := calm_when fun _ => calm_wakeAll _

theorem calm_pwrCtlWrite (val : Word) (s : State) : Calm s (pwrCtlWrite val s) :=
  calm_when fun _ => (calm_when fun _ => calm_dormantEnds _).after <| calm_when fun _ => calm_dormantBegins _

theorem answers_execDormantEntry (val : Word) (s : State) : Answers s (execDormantEntry val s) :=
  answers_next <| calm_when fun _ => calm_pwrCtlWrite ..

theorem answers_execDormantWake (val : Word) (s : State) : Answers s (execDormantWake val s) :=
  answers_next <| calm_when fun _ => calm_pwrCtlWrite ..

theorem answers_execDormantWindowStart (s : State) : Answers s (execDormantWindowStart s) :=
  answers_next <| calm_when fun _ => (calm_dormantBegins ..).after <| calm_of_kept rfl

theorem calm_windowEnds (s : State) : Calm s (windowEnds s) :=
  calm_ite (fun _ => (calm_withPwrCfbPs ..).after <| calm_of_kept rfl) fun _ => (calm_dormantEnds ..).after <| calm_of_kept rfl

theorem answers_execDormantWindowEnd (s : State) : Answers s (execDormantWindowEnd s) :=
  answers_next <| calm_when fun _ => calm_windowEnds _

theorem calm_govern (scope : PwrScope) (next : Nat) (s : State) : Calm s (govern scope next s) := by
  unfold govern
  split
  · exact calm_when fun _ => calm_of_kept rfl
  · exact calm_when fun _ => calm_of_kept rfl
  · exact Calm.rfl

theorem answers_execGovernorEvaluate (scope : PwrScope) (next : Nat) (s : State) :
    Answers s (execGovernorEvaluate scope next s) :=
  answers_next <| calm_when fun _ => calm_govern ..

theorem calm_startWake (scope : PwrScope) (s : State) : Calm s (startWake scope s) := by
  unfold startWake
  split
  · exact calm_when fun _ => calm_of_kept rfl
  · exact calm_of_kept rfl
  · exact calm_when fun _ => calm_dormantEnds _

theorem answers_execGovernorWake (scope : PwrScope) (s : State) : Answers s (execGovernorWake scope s) :=
  answers_next <| calm_when fun _ => calm_startWake ..

theorem calm_moduleAwake (s : State) : Calm s (moduleAwake s) :=
  (calm_each fun _ _ => calm_portRelease ..).after <| (calm_each fun _ _ => calm_closeStripes ..).after <| calm_of_kept rfl

theorem calm_scopeAwake (scope : PwrScope) (s : State) : Calm s (scopeAwake scope s) := by
  unfold scopeAwake
  split
  · exact calm_of_kept rfl
  · exact calm_of_kept rfl
  · exact calm_moduleAwake _

theorem answers_execIslandWakeDone (scope : PwrScope) (failed : List Nat) (s : State) :
    Answers s (execIslandWakeDone scope failed s) :=
  answers_next <| calm_when fun _ => (calm_each fun _ _ => calm_report ..).after <| calm_scopeAwake ..

theorem calm_governorOff (s : State) : Calm s (governorOff s) := (calm_wakeAll ..).after <| calm_pset ..

theorem answers_execGovernorDisable (s : State) : Answers s (execGovernorDisable s) :=
  answers_next <| calm_when fun _ => calm_governorOff _

theorem answers_execQuietWindowStart (tile : Nat) (s : State) : Answers s (execQuietWindowStart tile s) :=
  answers_next <| calm_when fun _ => calm_of_kept rfl

/-! ## Register accesses (R435 to R444) -/

theorem calm_readEffect (r : Reg) (t i : Nat) (s : State) : Calm s (readEffect r t i s) := by
  unfold readEffect
  split
  · exact calm_captureNow _
  · exact calm_advanceFree _
  · exact calm_rset ..
  · exact calm_rset ..
  · exact (calm_guardPeak ..).after <| calm_rset ..
  · exact Calm.rfl

theorem calm_bar0Read (a : Access) (s : State) : Calm s (bar0Read a s) := by
  unfold bar0Read
  split
  · exact (calm_emit ..).after <| calm_decodeErr ..
  · exact calm_ite (fun _ => calm_emit ..) fun _ => (calm_emit ..).after <| calm_readEffect ..

theorem calm_bar2Read (a : Access) (s : State) : Calm s (bar2Read a s) := by
  unfold bar2Read
  split
  · exact (calm_emit ..).after <| calm_decodeErr ..
  · exact calm_ite (fun _ => calm_emit ..) fun _ => calm_ite (fun _ => (calm_emit ..).after <| calm_decodeErr ..)
      fun _ => calm_emit ..

theorem calm_bar4Read (a : Access) (s : State) : Calm s (bar4Read a s) :=
  calm_ite (fun _ => calm_emit ..) fun _ => calm_ite (fun _ => calm_emit ..) fun _ => (calm_emit ..).after <| calm_decodeErr ..

theorem calm_hostRead (a : Access) (s : State) : Calm s (hostRead a s) := by
  unfold hostRead
  refine calm_ite (fun _ => (calm_emit ..).after <| calm_pasidReject _) fun _ => ?_
  exact calm_ite (fun _ => calm_bar0Read ..) fun _ => calm_ite (fun _ => calm_bar2Read ..) fun _ => calm_bar4Read ..

theorem answers_execRcFieldRead (off : Nat) (s : State) : Answers s (execRcFieldRead off s) :=
  answers_next <| calm_when fun _ => calm_readReaches fun _ => calm_hostRead ..

theorem answers_execUnmappedRead (a : Access) (s : State) : Answers s (execUnmappedRead a s) :=
  answers_next <| calm_when fun _ => calm_readReaches fun _ => calm_hostRead ..

theorem calm_plainWrite (r : Reg) (t i : Nat) (val : Word) (s : State) : Calm s (plainWrite r t i val s) := calm_rput ..

theorem calm_budgetWrite (t : Nat) (val : Word) (s : State) : Calm s (budgetWrite t val s) :=
  calm_ite (fun _ => (calm_reconsider ..).after <| calm_plainWrite ..) fun _ => calm_plainWrite ..

theorem calm_govWrite (val : Word) (s : State) : Calm s (govWrite val s) :=
  (calm_when fun _ => calm_governorOff _).after <| calm_plainWrite ..

theorem calm_timCmdWrite (val : Word) (s : State) : Calm s (timCmdWrite val s) := by
  unfold timCmdWrite
  refine calm_ite (fun _ => Calm.rfl) fun _ => ?_
  exact calm_ite (fun _ => calm_timSetCmd _) fun _ => calm_ite (fun _ => calm_timOffsetCmd _) fun _ => Calm.rfl

theorem calm_fltCtlWrite (val : Word) (s : State) : Calm s (fltCtlWrite val s) :=
  (calm_when fun _ => calm_safeWrite ..).after <| calm_when fun _ => calm_popFault _

theorem calm_secStatWrite (val : Word) (s : State) : Calm s (secStatWrite val s) :=
  (calm_advanceFree ..).after <| calm_clearCauses ..

theorem calm_bootCtlWrite (val : Word) (s : State) : Calm s (bootCtlWrite val s) :=
  (calm_goWrite ..).after <| calm_when fun _ => calm_retryNow _

theorem calm_regWrite (r : Reg) (t i : Nat) (val : Word) (s : State) : Calm s (regWrite r t i val s) := by
  unfold regWrite
  split
  · exact calm_swReset ..
  · exact calm_bootCtlWrite ..
  · exact calm_pwrCtlWrite ..
  · exact calm_govWrite ..
  · exact calm_timAdjSet ..
  · exact calm_timCmdWrite ..
  · exact calm_secStatWrite ..
  · exact calm_fltCtlWrite ..
  · exact calm_when fun _ => calm_clearUnit _
  · exact calm_budgetWrite ..
  · exact calm_ite (fun _ => calm_rset ..) fun _ => calm_plainWrite ..
  · exact calm_ite (fun _ => calm_plainWrite ..) fun _ => calm_rset ..
  · exact calm_bankSelWrite ..
  · exact (calm_debtsAtLimit ..).after <| calm_plainWrite ..
  · exact (calm_plainWrite ..).after <| calm_each fun _ _ => calm_settleMig ..
  · exact (calm_plainWrite ..).after <| calm_mcGive ..
  · exact calm_plainWrite ..

theorem calm_bar0Write (a : Access) (s : State) : Calm s (bar0Write a s) := by
  unfold bar0Write
  dsimp only
  split
  · exact (calm_decodeErr ..).after <| calm_when fun _ => calm_decodeErr ..
  · exact (calm_when fun _ => calm_regWrite ..).after <| calm_when fun _ => calm_decodeErr ..

theorem calm_ringCtlWrite (req r : Nat) (val : Word) (s : State) : Calm s (ringCtlWrite req r val s) :=
  calm_ite (fun _ => (calm_enableRing ..).after <| calm_setRing ..) fun _ => (calm_disableRing ..).after <| calm_setRing ..

theorem calm_ringSetup (req r : Nat) (f : Ring → Ring) (s : State) : Calm s (ringSetup req r f s) :=
  calm_when fun _ => calm_setRing ..

theorem calm_ringWrite (req r k : Nat) (val : Word) (s : State) : Calm s (ringWrite req r k val s) := by
  unfold ringWrite
  split
  · exact calm_doorbell ..
  · exact calm_ringCtlWrite ..
  · exact calm_setRing ..
  · exact calm_ringSetup ..
  · exact calm_ringSetup ..
  · exact calm_ringSetup ..
  · exact calm_setRing ..
  · exact Calm.rfl

theorem calm_bar2Write (a : Access) (s : State) : Calm s (bar2Write a s) := by
  unfold bar2Write
  split
  · exact (calm_decodeErr ..).after <| calm_when fun _ => calm_decodeErr ..
  · refine calm_when fun _ => ?_
    exact calm_ite (fun _ => (calm_decodeErr ..).after <| calm_when fun _ => calm_decodeErr ..) fun _ => (calm_when
      fun _ => calm_ringWrite ..).after <| calm_when fun _ => calm_decodeErr ..

theorem calm_hostWrites (a : Access) (s : State) : Calm s (hostWrites a s) := by
  unfold hostWrites
  refine calm_ite (fun _ => calm_pasidReject _) fun _ => ?_
  exact calm_ite (fun _ => calm_bar0Write ..) fun _ => calm_ite (fun _ => calm_bar2Write ..) fun _ => calm_bar4Effect ..

theorem answers_execRegisterWrite (a : Access) (s : State) : Answers s (execRegisterWrite a s) :=
  answers_next <| calm_when fun _ => calm_hostWrites ..

theorem calm_uartLine (s : State) : Calm s (uartLine s) := (calm_advanceFree ..).after <| calm_emit ..

theorem calm_nvmSend (area : NvmArea) (s : State) : Calm s (nvmSend area s) := by
  unfold nvmSend
  split
  · exact calm_each fun _ _ => calm_emit ..
  · exact calm_uartLine _

theorem calm_uartServe (u : UartCmd) (s : State) : Calm s (uartServe u s) := by
  unfold uartServe
  split
  · exact calm_uartLine _
  · exact calm_uartLine _
  · exact calm_ite (fun _ => calm_bar0Read ..) fun _ => Calm.rfl
  · exact calm_ite (fun _ => calm_bar0Write ..) fun _ => Calm.rfl
  · exact calm_ite (fun _ => calm_nvmSend ..) fun _ => Calm.rfl
  · exact calm_ite (fun _ => calm_of_kept rfl) fun _ => Calm.rfl

theorem answers_execServiceUartCommand (u : UartCmd) (s : State) : Answers s (execServiceUartCommand u s) :=
  answers_next <| calm_when fun _ => calm_uartServe ..

/-! ## Every command -/

theorem calm_idle (s : State) : Calm s (idle s) := calm_ite (fun _ => calm_tick _) fun _ => Calm.rfl

/-- What each command answers, one arm per constructor. -/
theorem answers_exec (s : State) : ∀ c : Instr, Answers s (exec c s)
  | .mainsLost => answers_execMainsLost s
  | .mainsReturn => answers_execMainsReturn s
  | .converterStop => answers_execConverterStop s
  | .converterFault => answers_execConverterFault s
  | .supplyGood => answers_execSupplyGood s
  | .plateColdHoldEnd => answers_execPlateColdHoldEnd s
  | .sagThresholdCrossing => answers_execSagThresholdCrossing s
  | .sagShedTick => answers_execSagShedTick s
  | .saveStart => answers_execSaveStart s
  | .saveWritten => answers_execSaveWritten s
  | .busBelow250v => answers_execBusBelow250v s
  | .busAtReturnThreshold => answers_execBusAtReturnThreshold s
  | .modResetNAssert => answers_execModResetNAssert s
  | .modResetNRelease => answers_execModResetNRelease s
  | .perstNAssert => answers_execPerstNAssert s
  | .functionLevelReset => answers_execFunctionLevelReset s
  | .watchdogExpiry => answers_execWatchdogExpiry s
  | .optionsCommitted => answers_execOptionsCommitted s
  | .firmwareRunning => answers_execFirmwareRunning s
  | .patchesDone => answers_execPatchesDone s
  | .dramReady failed march => answers_execDramReady failed march s
  | .imageInTiles failed => answers_execImageInTiles failed s
  | .tilesReady failed => answers_execTilesReady failed s
  | .calendarRunning => answers_execCalendarRunning s
  | .islandReleaseTimeout unit => answers_execIslandReleaseTimeout unit s
  | .tileRejoinDone t => answers_execTileRejoinDone t s
  | .clockLoss code => answers_execClockLoss code s
  | .clockRequalified => answers_execClockRequalified s
  | .safePolicyTimeout => answers_execSafePolicyTimeout s
  | .collectorResetTimeout => answers_execCollectorResetTimeout s
  | .thermShed plate => answers_execThermShed plate s
  | .thermUnshed plate => answers_execThermUnshed plate s
  | .pcsAlignmentHeld port => answers_execPcsAlignmentHeld port s
  | .portDownDetect port los => answers_execPortDownDetect port los s
  | .portHoldExpiry port => answers_execPortHoldExpiry port s
  | .fecWindowEnd port cw corr uncorr symbols => answers_execFecWindowEnd port cw corr uncorr symbols s
  | .cagePoll cage x => answers_execCagePoll cage x s
  | .cageReadyTimeout cage => answers_execCageReadyTimeout cage s
  | .i2cSdaStuck bus stuck => answers_execI2cSdaStuck bus stuck s
  | .timSet => answers_execTimSet s
  | .timOffset => answers_execTimOffset s
  | .timAdjWrite val => answers_execTimAdjWrite val s
  | .timNowCapture => answers_execTimNowCapture s
  | .slewEnd => answers_execSlewEnd s
  | .scheduleRealign sched => answers_execScheduleRealign sched s
  | .ppsOutEdge => answers_execPpsOutEdge s
  | .todLine => answers_execTodLine s
  | .ppsInEdge => answers_execPpsInEdge s
  | .freqInPhase ps => answers_execFreqInPhase ps s
  | .todRxByte bytes => answers_execTodRxByte bytes s
  | .frameArrival fid port f => answers_execFrameArrival fid port f s
  | .headerCellsPresent fid present x => answers_execHeaderCellsPresent fid present x s
  | .frameTail fid => answers_execFrameTail fid s
  | .expressLaunch fid => answers_execExpressLaunch fid s
  | .expressArrival src dst => answers_execExpressArrival src dst s
  | .cellSpread fid => answers_execCellSpread fid s
  | .cellArrival src dst crcOk => answers_execCellArrival src dst crcOk s
  | .spillWriteDone w => answers_execSpillWriteDone w s
  | .noticeReceive src dst crcOk => answers_execNoticeReceive src dst crcOk s
  | .pullReceive src dst crcOk => answers_execPullReceive src dst crcOk s
  | .returnSend tile dst => answers_execReturnSend tile dst s
  | .returnArrival src dst crcOk => answers_execReturnArrival src dst crcOk s
  | .reseqTimeout tile src leaf ssn pos => answers_execReseqTimeout tile src leaf ssn pos s
  | .reassemblyComplete tile src leaf ssn pos => answers_execReassemblyComplete tile src leaf ssn pos s
  | .frameTxStart port => answers_execFrameTxStart port s
  | .frameTxEnd port => answers_execFrameTxEnd port s
  | .evictReqReceive src dst crcOk => answers_execEvictReqReceive src dst crcOk s
  | .evictReceive src dst crcOk => answers_execEvictReceive src dst crcOk s
  | .evictNackReceive src dst crcOk => answers_execEvictNackReceive src dst crcOk s
  | .pushoutTimeout fid => answers_execPushoutTimeout fid s
  | .evictionFilterExpiry tile => answers_execEvictionFilterExpiry tile s
  | .portIdleSend tile => answers_execPortIdleSend tile s
  | .portIdleReceive src dst crcOk => answers_execPortIdleReceive src dst crcOk s
  | .linkDeclaredFailed rx tx => answers_execLinkDeclaredFailed rx tx s
  | .fenceReceive tile f => answers_execFenceReceive tile f s
  | .bankSwap => answers_execBankSwap s
  | .imgCommitSwap => answers_execImgCommitSwap s
  | .gateEntryChange port => answers_execGateEntryChange port s
  | .gateSwitch port => answers_execGateSwitch port s
  | .streamGateEntryChange g => answers_execStreamGateEntryChange g s
  | .streamGateSwitch g => answers_execStreamGateSwitch g s
  | .frerReset stream => answers_execFrerReset stream s
  | .depthSample tile => answers_execDepthSample tile s
  | .raceWindowClose tile table slice key => answers_execRaceWindowClose tile table slice key s
  | .filterHoldExpiry tile table slice key => answers_execFilterHoldExpiry tile table slice key s
  | .tableWordRepaired tile mem addr => answers_execTableWordRepaired tile mem addr s
  | .junctionSample tile temps => answers_execJunctionSample tile temps s
  | .throttleFall tile => answers_execThrottleFall tile s
  | .slabGroupAwake tile group => answers_execSlabGroupAwake tile group s
  | .slabSelfTestEnd tile failed => answers_execSlabSelfTestEnd tile failed s
  | .junctionThermTrip tile => answers_execJunctionThermTrip tile s
  | .plateThermTrip => answers_execPlateThermTrip s
  | .thermHoldRelease => answers_execThermHoldRelease s
  | .paceMonitorSample tile margins => answers_execPaceMonitorSample tile margins s
  | .avsLoop tile => answers_execAvsLoop tile s
  | .paceLow tile island => answers_execPaceLow tile island s
  | .paceMargin tile => answers_execPaceMargin tile s
  | .refreshDue ch rank busy => answers_execRefreshDue ch rank busy s
  | .refreshDebtPayment ch => answers_execRefreshDebtPayment ch s
  | .dramReadDone tile idx x => answers_execDramReadDone tile idx x s
  | .retirementRecordWritten ch => answers_execRetirementRecordWritten ch s
  | .migrationLastRow r => answers_execMigrationLastRow r s
  | .remapCommit ch => answers_execRemapCommit ch s
  | .rngReseed => answers_execRngReseed s
  | .migrationAbandon ch => answers_execMigrationAbandon ch s
  | .helloTimer port => answers_execHelloTimer port s
  | .helloReceive port h => answers_execHelloReceive port h s
  | .holdTimeExpiry port => answers_execHoldTimeExpiry port s
  | .managementFrameReceive port m => answers_execManagementFrameReceive port m s
  | .failAdvRepeat => answers_execFailAdvRepeat s
  | .repairStable port => answers_execRepairStable port s
  | .revertTime => answers_execRevertTime s
  | .leaveLeadExpiry => answers_execLeaveLeadExpiry s
  | .mgmtPortFrameRx bytes m => answers_execMgmtPortFrameRx bytes m s
  | .faultReport unit code info addr => answers_execFaultReport unit code info addr s
  | .engineFenceTimeout e => answers_execEngineFenceTimeout e s
  | .governorEvaluate scope next => answers_execGovernorEvaluate scope next s
  | .governorWake scope => answers_execGovernorWake scope s
  | .islandWakeDone scope failed => answers_execIslandWakeDone scope failed s
  | .dormantEntry val => answers_execDormantEntry val s
  | .dormantWake val => answers_execDormantWake val s
  | .dormantWindowEnd => answers_execDormantWindowEnd s
  | .governorDisable => answers_execGovernorDisable s
  | .dumpPeriod set => answers_execDumpPeriod set s
  | .engineSample e skid => answers_execEngineSample e skid s
  | .timerExpiry req timer => answers_execTimerExpiry req timer s
  | .ringDoorbell req ring idx => answers_execRingDoorbell req ring idx s
  | .descriptorFetchDone req ring entries micro => answers_execDescriptorFetchDone req ring entries micro s
  | .phaseRecheck req ring entry => answers_execPhaseRecheck req ring entry s
  | .ringEnable req ring => answers_execRingEnable req ring s
  | .ringDisable req ring => answers_execRingDisable req ring s
  | .msixHoldoffEnd req ring => answers_execMsixHoldoffEnd req ring s
  | .hostReadTimeout req ring ringMem => answers_execHostReadTimeout req ring ringMem s
  | .packetTxTake c => answers_execPacketTxTake c s
  | .sliceResetDone slice => answers_execSliceResetDone slice s
  | .secLockClaim id => answers_execSecLockClaim id s
  | .secMessageEnd => answers_execSecMessageEnd s
  | .urgentRequest level => answers_execUrgentRequest level s
  | .secAlarm cause => answers_execSecAlarm cause s
  | .secCauseClear mask persists => answers_execSecCauseClear mask persists s
  | .uartFwHeader slotB length => answers_execUartFwHeader slotB length s
  | .uartFwBlock crcOk fw => answers_execUartFwBlock crcOk fw s
  | .swResetCold key => answers_execSwResetCold key s
  | .swResetWarm key => answers_execSwResetWarm key s
  | .swResetTile key tile => answers_execSwResetTile key tile s
  | .swResetSlice key slice => answers_execSwResetSlice key slice s
  | .swResetPort key port => answers_execSwResetPort key port s
  | .swResetEngine key e => answers_execSwResetEngine key e s
  | .retryImage => answers_execRetryImage s
  | .tileGo mask => answers_execTileGo mask s
  | .tcmBankSelWrite tile val => answers_execTcmBankSelWrite tile val s
  | .fltPop => answers_execFltPop s
  | .enterSafe key => answers_execEnterSafe key s
  | .fltUnitClear => answers_execFltUnitClear s
  | .rcFieldRead off => answers_execRcFieldRead off s
  | .registerWrite a => answers_execRegisterWrite a s
  | .tblSrch c => answers_execTblSrch c s
  | .tblIns c => answers_execTblIns c s
  | .tblDel c => answers_execTblDel c s
  | .tblNext c => answers_execTblNext c s
  | .tblFlushp c => answers_execTblFlushp c s
  | .tblAge c raced => answers_execTblAge c raced s
  | .tblCkpt c => answers_execTblCkpt c s
  | .lpmIns c => answers_execLpmIns c s
  | .lpmDel c => answers_execLpmDel c s
  | .lpmSrch c => answers_execLpmSrch c s
  | .lpmLkup c => answers_execLpmLkup c s
  | .lpmNext c => answers_execLpmNext c s
  | .tcmWr c => answers_execTcmWr c s
  | .tcmVal c => answers_execTcmVal c s
  | .tcmAct c => answers_execTcmAct c s
  | .tcmRd c => answers_execTcmRd c s
  | .tcmBase c => answers_execTcmBase c s
  | .actNhWr c => answers_execActNhWr c s
  | .actNhRd c => answers_execActNhRd c s
  | .actGrpSet c => answers_execActGrpSet c s
  | .actBkt c => answers_execActBkt c s
  | .actBktRd c => answers_execActBktRd c s
  | .actMemAdd c => answers_execActMemAdd c s
  | .actMemDel c => answers_execActMemDel c s
  | .actMirSet c => answers_execActMirSet c s
  | .schNode c => answers_execSchNode c s
  | .schShape c => answers_execSchShape c s
  | .schLeaf c => answers_execSchLeaf c s
  | .schRd c => answers_execSchRd c s
  | .schFrer c => answers_execSchFrer c s
  | .schFrerRd c => answers_execSchFrerRd c s
  | .polSet c => answers_execPolSet c s
  | .polRd c => answers_execPolRd c s
  | .gateWr c => answers_execGateWr c s
  | .gateSgWr c => answers_execGateSgWr c s
  | .gateCommit c => answers_execGateCommit c s
  | .gateSgCommit c => answers_execGateSgCommit c s
  | .gateRd c => answers_execGateRd c s
  | .calTimer c => answers_execCalTimer c s
  | .calRd c => answers_execCalRd c s
  | .cntFrz c => answers_execCntFrz c s
  | .cntRd c => answers_execCntRd c s
  | .cntDump c => answers_execCntDump c s
  | .cntPer c => answers_execCntPer c s
  | .memRd c => answers_execMemRd c s
  | .memWr c => answers_execMemWr c s
  | .memAlloc c => answers_execMemAlloc c s
  | .memFree c => answers_execMemFree c s
  | .memMig c => answers_execMemMig c s
  | .memMapClr c => answers_execMemMapClr c s
  | .memSaveRd c => answers_execMemSaveRd c s
  | .portMode c => answers_execPortMode c s
  | .portSaAdd c => answers_execPortSaAdd c s
  | .portSaDel c => answers_execPortSaDel c s
  | .portSaTxAn c => answers_execPortSaTxAn c s
  | .portCmisRd c optic => answers_execPortCmisRd c optic s
  | .portCmisWr c optic => answers_execPortCmisWr c optic s
  | .ringCrt c => answers_execRingCrt c s
  | .ringDst c => answers_execRingDst c s
  | .ringBind c => answers_execRingBind c s
  | .ringUnbind c => answers_execRingUnbind c s
  | .slcRst c => answers_execSlcRst c s
  | .slcInfo c => answers_execSlcInfo c s
  | .imgStage c img => answers_execImgStage c img s
  | .imgCommit c late => answers_execImgCommit c late s
  | .imgCancel c => answers_execImgCancel c s
  | .imgDiscard c => answers_execImgDiscard c s
  | .imgInfo c => answers_execImgInfo c s
  | .imgKey c cert => answers_execImgKey c cert s
  | .secKeyLd c => answers_execSecKeyLd c s
  | .secKeyClr c => answers_execSecKeyClr c s
  | .secCmac c => answers_execSecCmac c s
  | .secCrypt c => answers_execSecCrypt c s
  | .fabAdmit c => answers_execFabAdmit c s
  | .fabEvict c => answers_execFabEvict c s
  | .fabRd c => answers_execFabRd c s
  | .sysNop c => answers_execSysNop c s
  | .sysFence c => answers_execSysFence c s
  | .sysReset c => answers_execSysReset c s
  | .sysOptWr c => answers_execSysOptWr c s
  | .sysOptRd c => answers_execSysOptRd c s
  | .sysFwStage c fw patch => answers_execSysFwStage c fw patch s
  | .pcsAlignmentAcquired port => answers_execPcsAlignmentAcquired port s
  | .shaperLeavesRed level node => answers_execShaperLeavesRed level node s
  | .gateLeadOpening port cls => answers_execGateLeadOpening port cls s
  | .mcLimiterRefill tile => answers_execMcLimiterRefill tile s
  | .dormantWindowStart => answers_execDormantWindowStart s
  | .quietWindowStart tile => answers_execQuietWindowStart tile s
  | .oscWarm => answers_execOscWarm s
  | .freqInOkChange ok => answers_execFreqInOkChange ok s
  | .ppsOutFall => answers_execPpsOutFall s
  | .serviceUartCommand u => answers_execServiceUartCommand u s
  | .unmappedRead a => answers_execUnmappedRead a s
  | .bar4Write a => answers_execBar4Write a s
  | .pcieLinkChange up speed width => answers_execPcieLinkChange up speed width s

theorem calm_exec {c : Instr} {s t : State} (h : exec c s = .next t) : Calm s t := answers_exec s c t h

theorem step_cons {s : State} {c : Instr} {rest : List Instr} (h : s.pending = c :: rest) :
    step s = exec c { s with pending := rest } := by
  unfold step
  rw [h]

theorem step_nil {s : State} (h : s.pending = []) : step s = .next (idle s) := by
  unfold step
  rw [h]

/-- A step is calm on the state without the command that it takes. -/
theorem calm_step {s t : State} (h : step s = .next t) : Calm { s with pending := s.pending.tail } t := by
  cases hp : s.pending with
  | nil =>
    rw [step_nil hp] at h
    obtain rfl := Host.Outcome.next.inj h
    rw [List.tail_nil, ← hp]
    exact calm_idle s
  | cons c rest =>
    rw [step_cons hp] at h
    exact calm_exec h

end Sys2Proof.Machine
end

section
/-! SUPPORT. The invariants that every command and every step keep. -/
namespace Sys2Proof.Machine

/-- Settles O39: every command is calm. -/
theorem everyCommandKeepsQueueAndIdentity : Obligations.EveryCommandKeepsQueueAndIdentity := fun _ _ _ h =>
  have calm := calm_exec h
  ⟨calm.pending, calm.serial, calm.ident⟩

/-- Settles O40: a step is calm, and taking a command off the queue leaves the stores. -/
theorem everyStepKeepsStoresCanonical : Obligations.EveryStepKeepsStoresCanonical := fun _ _ canon h => (calm_step h).canon canon

/-- Settles O41: a step is calm, and taking a command off the queue leaves module time. -/
theorem everyStepKeepsTimeLegal : Obligations.EveryStepKeepsTimeLegal := fun _ _ legal h => (calm_step h).time legal

end Sys2Proof.Machine
end

section
namespace Sys2Proof.Machine

/-! ## Field types of a register write (R9) -/

/-- No bit of a register is both RW and RW1C, or both RW1C and RW1S. -/
theorem regRow_types_disjoint (r : Reg) :
    (regRow r).rw &&& (regRow r).rw1c = 0 ∧ (regRow r).rw1c &&& (regRow r).rw1s = 0 := by
  cases r <;> decide

/-- A write on 32-bit words: the written RW bits replace the old ones, a 1 clears in an RW1C field and sets in an RW1S field. -/
theorem typedWrite_eq (w : RegRow) (old val : Word) :
    typedWrite w old val =
      let o := old ^^^ (old &&& word w.rw) ||| (val &&& word w.rw)
      (o ^^^ (o &&& (val &&& word w.rw1c))) ||| (val &&& word w.rw1s) := by
  have disjoint : (old ^^^ (old &&& word w.rw)) &&& (val &&& word w.rw) = 0#32 := by
    ext i
    simp only [BitVec.getElem_and, BitVec.getElem_xor, BitVec.getElem_zero]
    grind
  have onNat : typedWrite w old val =
      word ((((old.toNat ^^^ (old.toNat &&& w.rw)) + (val.toNat &&& w.rw)) ^^^
        (((old.toNat ^^^ (old.toNat &&& w.rw)) + (val.toNat &&& w.rw)) &&& (val.toNat &&& w.rw1c))) ||| (val.toNat &&& w.rw1s)) := rfl
  rw [onNat, ← BitVec.add_eq_or_of_and_eq_zero _ _ disjoint]
  simp only [word, BitVec.ofNat_or, BitVec.ofNat_xor, BitVec.ofNat_and, BitVec.ofNat_add, BitVec.ofNat_toNat, BitVec.setWidth_eq]

/-- A bit below 32 of a word. -/
theorem word_getLsbD (n b : Nat) (h : b < 32) : (word n).getLsbD b = n.testBit b := by
  simp only [word, BitVec.getLsbD_ofNat, h, decide_true, Bool.true_and]

/-- One bit, by its type: at most one of clearing and the two other types applies (`rw`, `clr`, `set`: the bit's types). -/
theorem writtenBit_by_type : ∀ rw clr set old val : Bool, (rw && clr) = false → (clr && set) = false →
    ((((old ^^ (old && rw)) || (val && rw)) ^^ (((old ^^ (old && rw)) || (val && rw)) && (val && clr))) || (val && set)) =
      if rw then val else if clr then old && !val else if set then old || val else old := by
  decide

/-- Each bit of what a write stores follows its field's type. -/
theorem typedWrite_getLsbD (r : Reg) (old val : Word) (b : Nat) (h : b < 32) :
    (typedWrite (regRow r) old val).getLsbD b = bitWritten (regRow r) old val b := by
  obtain ⟨clearApart, setApart⟩ := regRow_types_disjoint r
  have notBoth : ((regRow r).rw.testBit b && (regRow r).rw1c.testBit b) = false := by
    rw [← Nat.testBit_and, clearApart, Nat.zero_testBit]
  have clearOrSet : ((regRow r).rw1c.testBit b && (regRow r).rw1s.testBit b) = false := by
    rw [← Nat.testBit_and, setApart, Nat.zero_testBit]
  rw [typedWrite_eq]
  simp only [BitVec.getLsbD_or, BitVec.getLsbD_xor, BitVec.getLsbD_and, word_getLsbD _ b h, bitWritten]
  exact writtenBit_by_type _ _ _ _ _ notBoth clearOrSet

/-- Settles O45: the rules for one bit of a written register, and reads back through the register file. -/
theorem fieldTypesOfAWrite : Obligations.FieldTypesOfAWrite := by
  refine ⟨fun r old val b h => typedWrite_getLsbD r old val b h, fun r q t i u j val s ⟨_, hregs, _⟩ => ⟨?_, fun hne => ?_⟩⟩
  · exact rget_rput_same r t i _ hregs
  · exact rget_rput_other r q t i u j _ hregs hne
end Sys2Proof.Machine
end

section
namespace Sys2Proof.Machine

/-! ## Handles (R13) and the reset state (R67, R435) -/

/-- Settles O53: a handle is pool, tile and index in a mixed radix, so arithmetic takes it apart and puts it together. -/
theorem handleLayout : Obligations.HandleLayout := by
  unfold Obligations.HandleLayout handleOf handlePool handleTile
  refine ⟨fun k t i hk ht hi => ?fields, fun h hh => ?handle, rfl⟩
  case fields => omega
  case handle => omega

/-- Settles O43: the empty stores are canonical, and every register of the list evaluates to its reset value. -/
theorem resetStateIsSound : Obligations.ResetStateIsSound := by
  refine ⟨⟨reset_memory_wf, by decide, rfl, rfl⟩, reset_time_legal, Nat.zero_le 64, rfl, rfl, ?registers⟩
  case registers => decide

end Sys2Proof.Machine
end

section
namespace Sys2Proof.Machine

/-! ## Cold and warm resets (R66 to R70): what they end and keep -/

/-- Reading a table filtered by its keys. -/
theorem tget_filter {α : Type} [Inhabited α] [DecidableEq α] (P : Nat → Bool) (key : Nat) : ∀ {t : Tab α}, Tab.wf t = true →
    tget (t.filter fun x => P x.1) key = if P key then tget t key else default
  | [], _ => by simp only [List.filter_nil, tget, ite_self]
  | (k, v) :: r, h => by
    simp only [Tab.wf, Bool.and_eq_true] at h
    obtain ⟨⟨-, above⟩, hr⟩ := h
    have rest := tget_filter P key hr
    have below (hle : key ≤ k) : tget (r.filter fun x => P x.1) key = default := tget_below (keysAbove_filter _ above) hle
    rw [List.filter_cons]
    rcases Nat.lt_trichotomy key k with hlt | rfl | hgt
    · have hne : key ≠ k := Nat.ne_of_lt hlt
      cases P k <;> simp only [tget, hne, hlt, below (Nat.le_of_lt hlt), if_true, if_false, ite_self, Bool.false_eq_true]
    · cases P key
      · simp only [Bool.false_eq_true, if_false, below (Nat.le_refl _)]
      · simp only [tget, if_true]
    · have hne : key ≠ k := Nat.ne_of_gt hgt
      have hnlt : ¬ key < k := Nat.not_lt_of_gt hgt
      cases P k <;> simp only [tget, hne, hnlt, rest, if_true, if_false, Bool.false_eq_true]

/-- Reading a memory filtered by its addresses. -/
theorem memByte_filter (P : Nat → Bool) (a : Nat) : ∀ {m : List Host.Cell}, Memory.wf m = true →
    memByte (m.filter fun x => P x.1) a = if P a then memByte m a else 0
  | [], _ => by simp only [List.filter_nil, memByte, ite_self]
  | (k, v) :: r, h => by
    simp only [Memory.wf, Bool.and_eq_true] at h
    obtain ⟨⟨-, above⟩, hr⟩ := h
    have rest := memByte_filter P a hr
    have below (hle : a ≤ k) : memByte (r.filter fun x => P x.1) a = 0 :=
      memByte_below (keysAbove_filter (α := Byte) _ above) hle
    rw [List.filter_cons]
    rcases Nat.lt_trichotomy a k with hlt | rfl | hgt
    · have hne : a ≠ k := Nat.ne_of_lt hlt
      cases P k <;> simp only [memByte, hne, hlt, below (Nat.le_of_lt hlt), if_true, if_false, ite_self, Bool.false_eq_true]
    · cases P a
      · simp only [Bool.false_eq_true, if_false, below (Nat.le_refl _)]
      · simp only [memByte, if_true]
    · have hne : a ≠ k := Nat.ne_of_gt hgt
      have hnlt : ¬ a < k := Nat.not_lt_of_gt hgt
      cases P k <;> simp only [memByte, hne, hnlt, rest, if_true, if_false, Bool.false_eq_true]

/-- A canonical register file that gives a register a value. -/
def Reads (r : Reg) (t i : Nat) (w : Word) (s : State) : Prop := Tab.wf s.regs = true ∧ rget s r t i = w

/-- A write of another register leaves what a register reads. -/
theorem reads_rput {q r : Reg} {t i u j : Nat} {v w : Word} {s : State} (hne : regOff q u j ≠ regOff r t i)
    (h : Reads q u j v s) : Reads q u j v (rput r t i w s) :=
  ⟨tput_wf _ _ h.1, (rget_rput_other r q t i u j w h.1 hne).trans h.2⟩

/-- The same for a write of one of the other register's fields. -/
theorem reads_rset {q r : Reg} {t i u j hi lo x : Nat} {v : Word} {s : State} (hne : regOff q u j ≠ regOff r t i)
    (h : Reads q u j v s) : Reads q u j v (rset r t i hi lo x s) := reads_rput hne h

/-- The reset of the endpoint writes PCIe fields of HIF_STAT only. -/
theorem reads_endpointReset {q : Reg} {u j : Nat} {v : Word} {s : State} (hne : regOff q u j ≠ regOff .hifStat 0 0)
    (h : Reads q u j v s) : Reads q u j v (endpointReset s) := by
  have same : Reads q u j v { s with hif := { s.hif with msixTab := [], msixPend := [] } } := h
  exact reads_rset hne (reads_rset hne (reads_rset hne same))

/-- After a reset that keeps some registers, a register reads as before or as at reset. -/
theorem reads_of_filter {r : Reg} {t i : Nat} {P : Nat → Bool} {s u : State} (h : Tab.wf s.regs = true)
    (hu : u.regs = s.regs.filter fun x => P x.1) :
    Reads r t i (if P (regOff r t i) then rget s r t i else regReset r i) u := by
  refine ⟨hu ▸ Tab_wf_filter _ h, ?_⟩
  unfold rget
  rw [hu, tget_filter P _ h]
  cases P (regOff r t i) <;> rfl

/-- The fall of PPS_OUT is all that a reset of the time base says. -/
theorem ppsLow_eq (s : State) : ∃ high out, ppsLow s = { s with tim := { s.tim with ppsHigh := high }, out := out } := by
  unfold ppsLow iff_
  split
  · exact ⟨false, _, rfl⟩
  · exact ⟨_, _, rfl⟩

/-- Operations that each change only DRAM channels and the outputs do so together. -/
theorem forEach_dram {β : Type} {f : β → State → State} (hf : ∀ b s, ∃ d o, f b s = { s with dram := d, out := o }) :
    ∀ (l : List β) (s : State), ∃ d o, forEach l f s = { s with dram := d, out := o }
  | [], s => ⟨_, _, rfl⟩
  | b :: l, s => by
    obtain ⟨d, o, hb⟩ := hf b s
    obtain ⟨d', o', hl⟩ := forEach_dram hf l (f b s)
    exact ⟨d', o', by rw [forEach_cons, hl, hb]⟩

/-- The refreshes that pay a debt change only the channel and the outputs. -/
theorem payDebt_eq (ch : Nat) (s : State) : ∃ d o, payDebt ch s = { s with dram := d, out := o } := by
  have paid := forEach_dram (f := fun x : Nat × Nat => refreshes ch x.1 x.2) (fun x s => forEach_dram (fun _ s => ⟨_, _, rfl⟩) _ s)
  obtain ⟨d, o, h⟩ := paid (channel s ch).debt (setChannel ch (fun c => { c with debt := [] }) s)
  exact ⟨d, o, h⟩

/-- So do those of all channels. -/
theorem payDebts_eq (l : List Nat) (s : State) : ∃ d o, forEach l payDebt s = { s with dram := d, out := o } :=
  forEach_dram payDebt_eq l s

/-- The registers of a cold reset, but the four that it writes. -/
theorem coldReset_reads {s : State} (h : Tab.wf s.regs = true) {r : Reg} {t i : Nat}
    (hne : ∀ q ∈ [Reg.pltRstInfo, .pwrTherm, .pwrStat, .fltStat], regOff r t i ≠ regOff q 0 0) :
    Reads r t i (if regKept (fun c => c = .cold || c = .warm || c = .tile) none (regOff r t i) then rget s r t i else regReset r i)
      (coldReset s) := by
  obtain ⟨high, out, low⟩ := ppsLow_eq s
  unfold coldReset measured freezeFifo pset
  rw [low]
  have h1 := hne .pltRstInfo (by decide)
  have h2 := hne .pwrTherm (by decide)
  have h3 := hne .pwrStat (by decide)
  have h4 := hne .fltStat (by decide)
  exact reads_rput h1 (reads_rput h2 (reads_rput h3 (reads_rset h4 (reads_of_filter h rfl))))

/-- The registers of a warm reset, but the six that it writes. -/
theorem warmReset_reads {s : State} (h : Tab.wf s.regs = true) {r : Reg} {t i : Nat}
    (hne : ∀ q ∈ [Reg.pltRstInfo, .hifStat, .timStat, .pwrTherm, .pwrStat, .fltStat], regOff r t i ≠ regOff q 0 0) :
    Reads r t i (if regKept (fun c => c = .warm || c = .tile) none (regOff r t i) then rget s r t i else regReset r i)
      (warmReset s) := by
  obtain ⟨d, out, paid⟩ := payDebts_eq (List.range 64) s
  unfold warmReset freezeFifo pset
  rw [paid]
  have h1 := hne .pltRstInfo (by decide)
  have h2 := hne .hifStat (by decide)
  have h3 := hne .timStat (by decide)
  have h4 := hne .pwrTherm (by decide)
  have h5 := hne .pwrStat (by decide)
  have h6 := hne .fltStat (by decide)
  exact reads_rput h1 (reads_endpointReset h2 (reads_rset h3 (reads_rset h4 (reads_rset h5 (reads_rset h6 (reads_rset h6
    (reads_of_filter h rfl)))))))

/-- A warm reset keeps packet memory below the buffers and ends the rest. -/
theorem warmReset_mem (s : State) : (warmReset s).mem = s.mem.filter fun x => x.1 < bufAddr 0 0 := by
  obtain ⟨d, out, paid⟩ := payDebts_eq (List.range 64) s
  rw [warmReset, paid]
  rfl

theorem coldReset_keeps {s t : State} (hs : s.Canonical) (ht : t = coldReset s) :
    stage t = 0 ∧ t.exm = {} ∧ t.lpm = [] ∧ t.trie = {} ∧ t.tblBad = [] ∧ t.tcm = {} ∧ t.act = {} ∧ t.frames = [] ∧
    t.fab = {} ∧ t.mem = [] ∧ t.hif = {} ∧ t.tim = {} ∧ t.flt = { (default : Collector) with clkBad := s.flt.clkBad } ∧ t.sas = [] ∧
    t.sec = {} ∧ t.dram = [] ∧ t.tel = {} ∧ t.ident = s.ident ∧ t.serial = s.serial ∧
    rget t .pltRstCause 0 0 = rget s .pltRstCause 0 0 ∧
    t.nvm = { s.nvm with dram := s.nvm.dram.filter fun x => !x.2.clearNext } := by
  obtain ⟨-, hregs, -⟩ := hs
  obtain ⟨high, out, low⟩ := ppsLow_eq s
  subst ht
  have fresh : rget (coldReset s) .pltBootStat 0 0 = 0 := (coldReset_reads hregs (by decide)).2
  have cause : rget (coldReset s) .pltRstCause 0 0 = rget s .pltRstCause 0 0 := (coldReset_reads hregs (by decide)).2
  refine ⟨by rw [stage, rfld, fresh]; rfl, rfl, rfl, rfl, rfl, rfl, rfl, rfl, rfl, rfl, rfl, rfl, ?_, rfl, rfl, rfl,
    rfl, ?_, ?_, cause, ?_⟩
  all_goals rw [coldReset, low]; rfl

theorem warmReset_keeps {s t : State} (hs : s.Canonical) (ht : t = warmReset s) :
    stage t = 0 ∧ t.exm = {} ∧ t.lpm = [] ∧ t.trie = {} ∧ t.tblBad = [] ∧ t.tcm = {} ∧ t.act = {} ∧ t.frames = [] ∧
    t.fab = {} ∧ t.hif = {} ∧ t.sas = [] ∧ t.chans = [] ∧ t.sec = {} ∧ t.flt.clkBad = s.flt.clkBad ∧
    t.tim.now = s.tim.now ∧ t.tim.frc = s.tim.frc ∧ t.tim.acc = s.tim.acc ∧ t.tim.slewLeft = s.tim.slewLeft ∧ t.nvm = s.nvm ∧
    t.ident = s.ident ∧ t.serial = s.serial ∧ rget t .pltRstCause 0 0 = rget s .pltRstCause 0 0 ∧
    t.flt.fifo = (if s.flt.collectorReset then [] else s.flt.fifo) ∧
    (∀ a, a < bufAddr 0 0 → memByte t.mem a = memByte s.mem a) ∧ (∀ a, bufAddr 0 0 ≤ a → memByte t.mem a = 0) := by
  obtain ⟨hmem, hregs, -⟩ := hs
  subst ht
  have fresh : rget (warmReset s) .pltBootStat 0 0 = 0 := (warmReset_reads hregs (by decide)).2
  have cause : rget (warmReset s) .pltRstCause 0 0 = rget s .pltRstCause 0 0 := (warmReset_reads hregs (by decide)).2
  have memory (a : Nat) : memByte (warmReset s).mem a = if decide (a < bufAddr 0 0) then memByte s.mem a else 0 := by
    rw [warmReset_mem, memByte_filter (fun a => decide (a < bufAddr 0 0)) a hmem]
  obtain ⟨d, out, paid⟩ := payDebts_eq (List.range 64) s
  refine ⟨by rw [stage, rfld, fresh]; rfl, rfl, rfl, rfl, rfl, rfl, rfl, rfl, rfl, rfl, rfl, rfl, rfl, ?_, ?_, ?_, ?_, ?_, ?_, ?_, ?_,
    cause, ?_, fun a ha => by rw [memory, if_pos (decide_eq_true ha)], fun a ha => by rw [memory, if_neg (by simpa using ha)]⟩
  all_goals
    rw [warmReset, paid]
    simp only [endpointReset, freezeFifo, rput_flt, rset_flt, pset_flt, rput_tim, rset_tim, pset_tim, rput_nvm, rset_nvm, pset_nvm,
      rput_ident, rset_ident, pset_ident, rput_serial, rset_serial, pset_serial]

/-- Settles O57: every module field of the new state is written out by the reset; the registers and the memory are filtered. -/
theorem coldAndWarmResetKeep : Obligations.ColdAndWarmResetKeep :=
  ⟨fun _ _ => coldReset_keeps, fun _ _ => warmReset_keeps⟩

end Sys2Proof.Machine
end

section
namespace Sys2Proof.Machine

/-! ## Module time (R111 to R116) -/

/-- An operation under a condition that holds is made. -/
theorem iff_of {c : Bool} (f : State → State) (s : State) (h : c = true) : iff_ c f s = f s := by rw [h, iff_true]

/-- A read reaches its block once the platform serves the host. -/
theorem readReaches_up (f : State → State) {s : State} (h : hifUp s = true) : readReaches f s = f s := if_pos h

/-! ### Commands that change the time (R113) -/

/-- TIM_CMD SET and OFFSET act once the platform serves the host and module time runs. -/
theorem execTimSet_up {s : State} (hup : hifUp s = true) (hrun : timeRuns s = true) : execTimSet s = .next (timSetCmd s) :=
  congrArg _ (iff_of _ _ (by rw [hup, hrun]; rfl))

theorem execTimOffset_up {s : State} (hup : hifUp s = true) (hrun : timeRuns s = true) :
    execTimOffset s = .next (timOffsetCmd s) :=
  congrArg _ (iff_of _ _ (by rw [hup, hrun]; rfl))

theorem timSetCmd_bad {s : State} (h : 999999999 < (rget s .timSetNs 0 0).toNat) : timSetCmd s = badTime s := if_pos h

theorem timSetCmd_good {s : State} (h : (rget s .timSetNs 0 0).toNat ≤ 999999999) :
    timSetCmd s = newTime (((rget s .timSetSecLo 0 0).toNat + rfld s .timSetSecHi 0 0 15 0 * 4294967296) * 1000000000 +
      (rget s .timSetNs 0 0).toNat) s := if_neg (by omega)

/-- An OFFSET to an instant of module time's range. -/
theorem timOffsetCmd_good {n : Nat} {s : State} (hn : (n : Int) = (nowNs s : Int) + sext 32 (rget s .timSetNs 0 0).toNat)
    (hmax : n ≤ maxNs) : timOffsetCmd s = newTime n s := by
  have inRange : ¬((decide ((n : Int) < 0) || decide ((maxNs : Int) < n)) = true) := by
    simp only [Bool.or_eq_true, decide_eq_true_eq]
    omega
  unfold timOffsetCmd
  rw [← hn]
  exact if_neg inRange

/-- A change within the step limit, other than to the same time, is slewed. -/
theorem newTime_slews {n : Nat} {d : Int} {s : State} (hd : d = (n : Int) - (nowNs s : Int)) (hne : d ≠ 0)
    (hlim : d.natAbs ≤ stepLimit s) :
    newTime n s = pset .timStat 4 true { s with tim := { s.tim with slewLeft := d * 10000 } } := by
  unfold newTime
  rw [← hd, if_pos hlim, decide_eq_true hne]

theorem timAdjSet_within {v : Word} {s : State} (hlow : -109951163 ≤ sext 32 v.toNat) (hhigh : sext 32 v.toNat ≤ 109951163) :
    timAdjSet v s = rput .timAdj 0 0 v s := by
  unfold timAdjSet
  rw [if_neg (by omega), if_neg (by omega)]

theorem timAdjSet_above {v : Word} {s : State} (h : 109951163 < sext 32 v.toNat) :
    timAdjSet v s = badTime (rput .timAdj 0 0 (word (twos 32 109951163)) s) := if_pos h

theorem timAdjSet_below {v : Word} {s : State} (h : sext 32 v.toNat < -109951163) :
    timAdjSet v s = badTime (rput .timAdj 0 0 (word (twos 32 (-109951163))) s) := by
  unfold timAdjSet
  rw [if_neg (by omega), if_pos h]

/-- An edge of PPS_OUT while module time runs and no step makes it be skipped (R115). -/
theorem execPpsOutEdge_drives {s : State} (hrun : timeRuns s = true) (hskip : edgeSkipped s = false) :
    execPpsOutEdge s = .next (emit (.ppsOut true) { s with tim := { s.tim with
      ppsHigh := true, ppsStep := false, lastPps := some s.tim.frc, ppsSec := edgeSecond s } }) := by
  unfold execPpsOutEdge
  simp only [hrun, hskip, Bool.not_true, Bool.false_eq_true, if_false]

/-- Settles O19: each row is its operation once its condition holds. -/
theorem timeRowsComplete : Obligations.TimeRowsComplete := by
  refine ⟨?setBad, ?set, ?offset, ?slew, ?adj, ?adjAbove, ?adjBelow, ?capture, ?slewEnd, ?realign, ?edge, ?fall, ?line, ?ppsIn,
    ?phase, ?tod⟩
  case setBad => exact fun s hup hrun h => (execTimSet_up hup hrun).trans (congrArg _ (timSetCmd_bad h))
  case set => exact fun sec s hup hrun h hsec => hsec ▸ (execTimSet_up hup hrun).trans (congrArg _ (timSetCmd_good h))
  case offset => exact fun n s hn hmax hup hrun => (execTimOffset_up hup hrun).trans (congrArg _ (timOffsetCmd_good hn hmax))
  case slew => exact fun n d s => newTime_slews
  case adj => exact fun v s hup hlow hhigh => congrArg _ ((iff_of _ _ hup).trans (timAdjSet_within hlow hhigh))
  case adjAbove => exact fun v s hup h => congrArg _ ((iff_of _ _ hup).trans (timAdjSet_above h))
  case adjBelow => exact fun v s hup h => congrArg _ ((iff_of _ _ hup).trans (timAdjSet_below h))
  case capture => exact fun s hup => congrArg _ (readReaches_up _ hup)
  case slewEnd => exact fun s h => congrArg _ (iff_of _ _ h)
  case realign => exact fun k s h => congrArg _ (iff_of _ _ (List.contains_iff_mem.mpr h))
  case edge => exact fun s => execPpsOutEdge_drives
  case fall => exact fun s h => congrArg _ (iff_of _ _ h)
  case line => exact fun s hrun hpps => congrArg _ (iff_of _ _ (by rw [hrun, hpps]; rfl))
  case ppsIn => exact fun s h => congrArg _ (iff_of _ _ h)
  case phase => exact fun ps s hrun hok => congrArg _ (iff_of _ _ (by rw [hrun, hok]; rfl))
  case tod => exact fun bytes s h => congrArg _ (iff_of _ _ h)

end Sys2Proof.Machine
end

section
namespace Sys2Proof.Machine

/-! ## RING and SLC commands (R366, R376, R377): what each does once it runs -/

/-- The checks of RING.CRT. -/
abbrev crtChecks (c : Cmd) (s : State) : List (Bool × Nat) :=
  [(crtBad c s, stBAD_OPERAND), (opb c 4 23 && c.req ≠ mgr, stNO_PERMISSION), ((crtHome c s).isNone, stFENCED_UNIT)]

theorem execRingCrt_new {c : Cmd} {e : Nat} {s u : State} (runs : Runs c 0x301 .adminRing (crtChecks c s) s) (hu : u = noteCmd c s)
    (hnew : ringExists u c.req (crtRing c) = false) (home : crtHome c u = some e) :
    execRingCrt c s = .next (fin c stOK [] (setRing c.req (crtRing c) (fun _ => crtNew c e) (takeFlags c u))) := by
  subst hu
  unfold execRingCrt
  rw [runCmd_runs _ runs]
  simp only [hnew, home, Bool.false_eq_true, if_false, Option.getD_some]

theorem execRingCrt_exists {c : Cmd} {s u : State} (runs : Runs c 0x301 .adminRing (crtChecks c s) s) (hu : u = noteCmd c s)
    (hex : ringExists u c.req (crtRing c) = true) : execRingCrt c s = .next (fin c stEXISTS [] u) := by
  subst hu
  unfold execRingCrt
  rw [runCmd_runs _ runs, if_pos hex]

/-- What RING.DST does to a ring that exists: it ends once the disabled ring is idle, else it waits. -/
theorem execRingDst_exists {c : Cmd} {r : Nat} {s u : State} (hr : r = crtRing c)
    (runs : Runs c 0x302 .adminRing [(r = 0, stBAD_OPERAND)] s) (hu : u = noteCmd c s) (hex : ringExists u c.req r = true) :
    execRingDst c s = .next (if ringIdle (ringSt (disableRing c.req r u) c.req r) then
      fin c stOK [] (destroyRing c.req r (disableRing c.req r u)) else commandWaits c (disableRing c.req r u)) := by
  subst hu hr
  refine (congrArg _ (runCmd_runs _ runs)).trans (congrArg _ (if_neg ?_))
  rw [hex]
  exact Bool.false_ne_true

theorem execRingDst_missing {c : Cmd} {r : Nat} {s u : State} (hr : r = crtRing c)
    (runs : Runs c 0x302 .adminRing [(r = 0, stBAD_OPERAND)] s) (hu : u = noteCmd c s) (hex : ringExists u c.req r = false) :
    execRingDst c s = .next (fin c stNOT_FOUND [] u) := by
  subst hu hr
  refine (congrArg _ (runCmd_runs _ runs)).trans (congrArg _ (if_pos ?_))
  rw [hex]
  rfl

/-- What RING.BIND does: a bound slice or a PASID in use is EXISTS. -/
theorem execRingBind_runs {c : Cmd} {sl p : Nat} {s u : State} (hsl : sl = opf c 4 3 0) (hp : p = opf c 5 19 0)
    (runs : Runs c 0x303 .manager [(!sliceOn s sl || p = 0, stBAD_OPERAND)] s) (hu : u = noteCmd c s) :
    execRingBind c s = .next (
      if (boundPasid u sl).isSome || (List.range 16).any (fun x => boundPasid u x = some p) then fin c stEXISTS [] u
      else fin c stOK [] (rput .hifBind 0 sl (pack [(31, 31, 1), (19, 0, p)]) u)) := by
  subst hu hsl hp
  exact congrArg _ (runCmd_runs _ runs)

/-- A command that resets a slice, and does not already wait for the end of that reset. -/
theorem resetAndWait_runs {c : Cmd} {op sl : Nat} {s u : State} (runs : Runs c op .manager [(!sliceOn s sl, stBAD_OPERAND)] s)
    (hu : u = noteCmd c s) (hnew : u.hif.slcWait.contains (sl, c) = false) :
    runCmd c op .manager [(!sliceOn s sl, stBAD_OPERAND)] (resetAndWait c sl) s =
      (let v := commandWaits c (sliceResetStart sl u)
      { v with hif := { v.hif with slcWait := v.hif.slcWait ++ [(sl, c)] } }) := by
  subst hu
  refine (runCmd_runs _ runs).trans (if_neg ?_)
  rw [hnew]
  exact Bool.false_ne_true

/-- Settles O34: each command in its frame (`runCmd_runs`), then the branch that its hypotheses name. -/
theorem ringAndSliceCommandsComplete : Obligations.RingAndSliceCommandsComplete := by
  refine ⟨?create, ?createTwice, ?destroy, ?bind, ?unbind, ?reset, ?info, ?destroyMissing, ?destroyBusy, ?bindTwice⟩
  case create => exact fun c e s u => execRingCrt_new
  case createTwice => exact fun c s u => execRingCrt_exists
  case destroy =>
    exact fun c r s u hr runs hu hex hidle => (execRingDst_exists hr runs hu hex).trans (congrArg _ (if_pos hidle))
  case bind =>
    intro c sl p s u hsl hp runs hu hfree hunused
    refine (execRingBind_runs hsl hp runs hu).trans (congrArg _ (if_neg ?_))
    rw [hfree, hunused]
    exact Bool.false_ne_true
  case unbind =>
    intro c sl s u hsl runs hu hnew
    subst hsl
    exact congrArg _ (resetAndWait_runs runs hu hnew)
  case reset =>
    intro c sl s u hsl runs hu hnew
    subst hsl
    exact congrArg _ (resetAndWait_runs runs hu hnew)
  case info =>
    intro c sl n s u hsl hn runs hu
    subst hn hu hsl
    exact congrArg _ (runCmd_runs _ runs)
  case destroyMissing => exact fun c r s u => execRingDst_missing
  case destroyBusy =>
    intro c r s u hr runs hu hex hbusy
    refine (execRingDst_exists hr runs hu hex).trans (congrArg _ (if_neg ?_))
    rw [hbusy]
    exact Bool.false_ne_true
  case bindTwice =>
    exact fun c sl p s u hsl hp runs hu hused => (execRingBind_runs hsl hp runs hu).trans (congrArg _ (if_pos hused))

end Sys2Proof.Machine
end

section
namespace Sys2Proof.Machine

/-! ## Accesses of the host and of the service UART (R81, R365, R438, R442) -/

/-! ### The service UART -/

/-- A block whose CRC is bad is refused; a good one is counted, and the last one ends the upload (R79). -/
theorem execUartFwBlock_bad {fw : FwImage} {x : Bool × Nat × Nat} {s : State} (h : s.pwr.uart = some x) :
    execUartFwBlock false fw s = .next (emit (.uartByte 0x15) s) := by
  unfold execUartFwBlock
  rw [h]
  rfl

theorem execUartFwBlock_good {fw : FwImage} {b : Bool} {n k : Nat} {s : State} (h : s.pwr.uart = some (b, n, k)) :
    execUartFwBlock true fw s = .next (
      let u := emit (.uartByte 0x06) { s with pwr := { s.pwr with uart := some (b, n, k + 1024) } }
      if n ≤ k + 1024 then uartEnds b fw u else u) := by
  unfold execUartFwBlock
  rw [h]
  rfl

/-- With DEBUG_LOCK unlocked a register access of the UART is that of the host. -/
theorem uartServe_regRead {off : Nat} {s : State} (h : debugOpen s = true) :
    uartServe (.regRead off) s = bar0Read { off := off } s := if_pos h

/-! ### Reads -/

/-- A request without PASID is the manager's: it is not rejected. -/
theorem pasidRejected_none {a : Access} {s : State} (h : a.pasid = none) : pasidRejected s a = false := by
  unfold pasidRejected
  rw [h]

/-- An offset of BAR0. -/
theorem inBar_zero {a : Access} (hbar : a.bar = 0) (hoff : a.off < 0x4000000) : inBar a = true := by
  simp only [inBar, hbar, hoff, decide_true, Bool.true_and, Bool.true_or]

/-- A read of BAR0 by the manager. -/
theorem hostRead_bar0 {a : Access} {s : State} (hbar : a.bar = 0) (hpasid : a.pasid = none) : hostRead a s = bar0Read a s := by
  unfold hostRead
  rw [if_neg (by rw [pasidRejected_none hpasid]; exact Bool.false_ne_true), if_pos hbar]

/-- A host read within a BAR, once the platform serves the host. -/
theorem hostRead_reaches {a : Access} {s : State} (hup : hifUp s = true) (hin : inBar a = true) :
    iff_ (inBar a) (readReaches (hostRead a)) s = hostRead a s := (iff_of _ _ hin).trans (readReaches_up _ hup)

/-- A read of a register of a block that answers. -/
theorem bar0Read_register {a : Access} {r : Reg} {t i : Nat} {s : State} (hdec : decodeBar0 a.off = some (r, t, i))
    (hpasid : a.pasid = none) (hsilent : blockSilent s r t = false) :
    bar0Read a s = emit (.readData (regRead s r t i)) (readEffect r t i s) := by
  unfold bar0Read
  simp only [hdec, hsilent, hpasid, Option.isSome_none, Bool.false_and, Bool.or_self, Bool.false_eq_true, if_false]

theorem bar0Read_unassigned {a : Access} {s : State} (hdec : decodeBar0 a.off = none) :
    bar0Read a s = emit (.readData 0) (decodeErr 30 0 a.off s) := by
  unfold bar0Read
  simp only [hdec]

/-! ### Writes -/

/-- A write of BAR0 by the manager. -/
theorem execRegisterWrite_bar0 {a : Access} {s : State} (hup : hifUp s = true) (hbar : a.bar = 0) (hoff : a.off < 0x4000000)
    (hpasid : a.pasid = none) : execRegisterWrite a s = .next (bar0Write a s) := by
  have reaches : (hifUp s && inBar a) = true := by rw [hup, inBar_zero hbar hoff]; rfl
  refine congrArg _ ((iff_of _ _ reaches).trans ?_)
  unfold hostWrites
  rw [if_neg (by rw [pasidRejected_none hpasid]; exact Bool.false_ne_true), if_pos hbar]

/-- A whole write to a register of a block that takes writes. -/
theorem bar0Write_whole {a : Access} {r : Reg} {t i : Nat} {s : State} (hbe : a.be = 15)
    (hdec : decodeBar0 a.off = some (r, t, i)) (hpasid : a.pasid = none) (hshut : blockShut s r t = false) :
    bar0Write a s = regWrite r t i a.val s := by
  unfold bar0Write
  simp only [hbe, hdec, hpasid, hshut, Nat.reduceMod, ne_eq, not_true_eq_false, decide_false, iff_false, decide_true,
    Option.isNone_none, Bool.not_false, Bool.and_self, iff_true]

/-- A partial write changes no register but HIF_DECODE. -/
theorem bar0Write_partial {a : Access} {r : Reg} {t i : Nat} {s : State} (hbe : a.be < 15)
    (hdec : decodeBar0 a.off = some (r, t, i)) : bar0Write a s = decodeErr 31 0 a.off s := by
  have hne : a.be % 16 ≠ 15 := by omega
  unfold bar0Write
  simp only [hne, hdec, ne_eq, not_false_eq_true, decide_true, iff_true, decide_false, Bool.false_and, iff_false]

/-- A whole write of the MSI-X table by the manager. -/
theorem execBar4Write_table {a : Access} {s : State} (hup : hifUp s = true) (hbar : a.bar = 4) (hoff : a.off < 0x8000)
    (hpasid : a.pasid = none) (hbe : a.be = 15) : execBar4Write a s = .next (msixWrite (a.off / 4) a.val s) := by
  have hwin : a.off < 65536 := by omega
  unfold execBar4Write bar4Effect
  simp only [hup, hbar, hoff, hwin, hbe, pasidRejected_none hpasid, Nat.reduceMod, decide_true, Bool.and_self, iff_true,
    Bool.false_eq_true, if_false, if_true]

/-- A change to a link that the options allow. -/
theorem execPcieLinkChange_up {speed width : Nat} {s : State} (hup : hifUp s = true) (hspeed : 1 ≤ speed) (hgen : speed ≤ pcieGen s)
    (hwidth : width ∈ [1, 2, 4, 8]) (hlanes : width ≤ pcieLanes s) :
    execPcieLinkChange true speed width s = .next (rput .hifStat 0 0
      (setBit (setFld (setFld (rget s .hifStat 0 0) 19 16 speed) 11 8 width) 0 true) s) := by
  refine congrArg _ (iff_of _ _ ?_)
  rw [hup, decide_eq_true hspeed, decide_eq_true hgen, List.contains_iff_mem.mpr hwidth, decide_eq_true hlanes]
  rfl

/-- Settles O26: each row is its operation once its condition holds. -/
theorem hostAccessRowsComplete : Obligations.HostAccessRowsComplete := by
  refine ⟨?header, ?blockBad, ?block, ?lastBlock, ?status, ?uartRead, ?read, ?unassigned, ?write, ?partialWrite, ?msix, ?linkUp,
    ?linkDown⟩
  case header =>
    intro b n s hstage hpos hmax
    exact congrArg _ (iff_of _ _ (by rw [decide_eq_true hstage, decide_eq_true hpos, decide_eq_true hmax]; rfl))
  case blockBad => exact fun fw x s => execUartFwBlock_bad
  case block => exact fun fw b n k s h hmore => (execUartFwBlock_good h).trans (congrArg _ (if_neg (by omega)))
  case lastBlock => exact fun fw b n k s h hlast => (execUartFwBlock_good h).trans (congrArg _ (if_pos hlast))
  case status => exact fun s h => congrArg _ (iff_of _ _ (decide_eq_true h))
  case uartRead => exact fun off s h hopen => congrArg _ ((iff_of _ _ (decide_eq_true h)).trans (uartServe_regRead hopen))
  case read =>
    intro off t i r s hup hoff hdec hsilent
    have access := hostRead_reaches (a := { off := off }) hup (inBar_zero rfl hoff)
    exact congrArg _ (access.trans ((hostRead_bar0 rfl rfl).trans (bar0Read_register hdec rfl hsilent)))
  case unassigned =>
    intro a s hup hbar hoff hpasid hdec
    have access := hostRead_reaches hup (inBar_zero hbar hoff)
    exact congrArg _ (access.trans ((hostRead_bar0 hbar hpasid).trans (bar0Read_unassigned hdec)))
  case write =>
    intro a t i r s hup hbar hoff hpasid hbe hdec hshut
    exact (execRegisterWrite_bar0 hup hbar hoff hpasid).trans (congrArg _ (bar0Write_whole hbe hdec hpasid hshut))
  case partialWrite =>
    intro a t i r s hup hbar hoff hpasid hbe hdec
    exact (execRegisterWrite_bar0 hup hbar hoff hpasid).trans (congrArg _ (bar0Write_partial hbe hdec))
  case msix => exact fun a s => execBar4Write_table
  case linkUp => exact fun speed width s => execPcieLinkChange_up
  case linkDown => exact fun speed width s hup => congrArg _ (iff_of _ _ (by rw [hup]; rfl))

end Sys2Proof.Machine
end

section
namespace Sys2Proof.Machine

/-! ## Frames in their source tile (R92, R96, R128, R131, R237, R309) -/

/-! ### Arrival -/

/-- A quarantined port discards and counts what CFB does not take (R309). -/
theorem execFrameArrival_quarantined {fid p : Nat} {f : RxFrame} {s : State} (hp : p < 512) (hcfb : cfbTakes s p f.bytes = false)
    (hquar : quarantined s p = true) (haligned : (port s p).aligned = true) :
    execFrameArrival fid p f s = .next (fabCnt p 7 s) := by
  unfold execFrameArrival
  simp only [hp, hcfb, hquar, haligned, decide_true, Bool.and_false, Bool.and_self, Bool.false_eq_true, if_false, if_true]

/-- A new frame that CFB does not take arrives on a port that is up. -/
theorem execFrameArrival_arrives {fid p : Nat} {f : RxFrame} {s : State} (hp : p < 512) (hcfb : cfbTakes s p f.bytes = false)
    (hquar : quarantined s p = false) (hup : portUp s p = true) (hnew : frame? s fid = none) (hfid : fid < 4294967296) :
    execFrameArrival fid p f s = .next (arrive fid p f s) := by
  unfold execFrameArrival
  simp only [hp, hcfb, hquar, hup, hnew, hfid, decide_true, Bool.and_false, Bool.and_true, Bool.false_and, Option.isNone_none,
    Bool.false_eq_true, if_false, iff_true]

/-- Without MACsec a frame needs no association (R100). -/
theorem macsecCheck_off {s : State} {p : Nat} (f : RxFrame) (hoff : macsecMode s p = 0) : macsecCheck s p f = .ok none := if_pos hoff

/-- A frame of a port without MACsec that finds a free landing cell is recorded in it (R237). -/
theorem arrive_recorded {fid p : Nat} {f : RxFrame} {s : State} (hoff : macsecMode (wakePipe (p / 8) s) p = 0)
    (hdata : macControl f = false) (hroom : landingUsed (wakePipe (p / 8) s) (p / 8) < 2048) :
    arrive fid p f s = { wakePipe (p / 8) s with
      frames := (wakePipe (p / 8) s).frames ++ [newFrame (wakePipe (p / 8) s) fid p f none] } := by
  unfold arrive
  simp only [macsecCheck_off f hoff, hdata, Nat.not_le_of_lt hroom, Bool.false_and, Bool.false_eq_true, if_false]

/-- A MAC control frame without a SecTAG is counted and dropped (R92). -/
theorem arrive_macControl {fid p : Nat} {f : RxFrame} {s : State} (hcontrol : macControl f = true) (htag : f.secTag = none) :
    arrive fid p f s = arrivesDropped 8 (newFrame (wakePipe (p / 8) s) fid p f none) (wakePipe (p / 8) s) := by
  unfold arrive
  simp only [hcontrol, htag, Option.isNone_none, Bool.and_self, if_true]

/-- What the MAC records of a frame of a port without MACsec. -/
theorem newFrame_clear {fid p : Nat} {f : RxFrame} {s : State} (hp : p < 512) (hoff : macsecMode s p = 0) :
    newFrame s fid p f none = {
      fid := fid, port := p, tile := p / 64, pipe := p / 8, bytes := f.bytes, fcsGood := f.fcsGood, codeErr := f.codeErr,
      icvGood := f.icvGood, ts := s.tim.now, landing := 1, carry := { frcIn := s.tim.frc } } := by
  unfold newFrame portTile
  rw [if_pos hp, hoff]
  rfl

/-! ### The parser -/

/-- A frame that the pipeline can parse is lost at a parity error of the graph (R131; log 117). -/
theorem execHeaderCellsPresent_graphErr {fid present n : Nat} {x : Findings} {f : Frame} {s : State} (hf : frame? s fid = some f)
    (hn : n = if f.tailSeen then f.bytes.length else present) (hparse : canParse s f n = true)
    (hfits : overflows s f (cellsOf n) = false) (herr : x.graphErr = true) :
    execHeaderCellsPresent fid present x s = .next (pipeCnt f.pipe 6 1 (gone f (report (unitId 2 f.pipe) 0x0204 0 0
      (rset .parStat f.tile 0 (8 + f.pipe % 8) (8 + f.pipe % 8) 1 s)))) := by
  unfold execHeaderCellsPresent
  simp only [hf, ← hn, hparse, hfits, herr, Bool.not_true, Bool.false_eq_true, if_false, if_true]

/-- No exception code is active in an empty set of them. -/
theorem actingExc_zero : actingExc 0 = none := by decide

/-- A frame parsed without an exception is counted and forwarded (R131). -/
theorem execHeaderCellsPresent_forwards {fid present n : Nat} {x : Findings} {f : Frame} {s : State} (hf : frame? s fid = some f)
    (hn : n = if f.tailSeen then f.bytes.length else present) (hparse : canParse s f n = true)
    (hfits : overflows s f (cellsOf n) = false) (hgraph : x.graphErr = false)
    (hexc : (parseFrame s f.tile (profileOf s f.port) n f.bytes).exc = 0) :
    execHeaderCellsPresent fid present x s = .next (
      let r := parseFrame s f.tile (profileOf s f.port) n f.bytes
      let g := { f with parseEnd := r.parseEnd, present := n, landing := max f.landing (cellsOf n) }
      forwardFrame g r (parsedMeta s f n r) x (countParse g r (setFrame fid (fun _ => g) s))) := by
  unfold execHeaderCellsPresent
  simp only [hf, ← hn, hparse, hfits, hgraph, hexc, actingExc_zero, Option.map_none, Bool.not_true, Bool.false_eq_true, if_false]

/-! ### The tail -/

/-- The first tail of a frame. -/
theorem execFrameTail_first {fid : Nat} {f : Frame} {s : State} (hf : frame? s fid = some f) (hfirst : f.tailSeen = false) :
    execFrameTail fid s = .next (tailOf f s) := by
  unfold execFrameTail
  simp only [hf, hfirst, Bool.not_false, iff_true]

/-- A frame that the MAC finds bad at its tail is counted and purged (R96). -/
theorem tailOf_bad {f : Frame} {s : State} {i : Nat} (hparsed : shortTail f = false) (hbad : tailFault f = some i) :
    tailOf f s = forTail f.fid tailBad (portCnt f.port i 1 (rxCount f s)) := by
  unfold tailOf
  simp only [hparsed, hbad, iff_false]

/-- A good frame that fits its landing buffer is released (R96, R237). -/
theorem tailOf_good {f : Frame} {s : State} (hgood : tailFault f = none) (hparsed : shortTail f = false)
    (hclear : f.secured = false) (hfits : overflows (rxCount f s) f (landingNeed f) = false) :
    tailOf f s = forTail f.fid tailGood (setFrame f.fid (fun g => { g with landing := landingKept g })
      (portCnt f.port (castIdx 2 f.bytes) 1 (rxCount f s))) := by
  unfold tailOf
  simp only [hgood, hparsed, hclear, hfits, iff_false, Bool.false_eq_true, if_false]

/-- Settles O13: each row's branch, then what the operation on that branch does. -/
theorem ingressFramesComplete : Obligations.IngressFramesComplete := by
  refine ⟨?quarantine, ?recorded, ?macControl, ?graphErr, ?forward, ?badTail, ?goodTail⟩
  case quarantine => exact fun fid p f s => execFrameArrival_quarantined
  case recorded =>
    intro fid p f s hp hcfb hquar hup hnew hfid hoff htype hroom
    have arrives := execFrameArrival_arrives hp hcfb hquar hup hnew hfid
    refine arrives.trans (congrArg _ ?_)
    rw [arrive_recorded hoff (decide_eq_false htype) hroom, newFrame_clear hp hoff]
  case macControl =>
    intro fid p f s hp hcfb hquar hup hnew hfid htag htype
    have arrives := execFrameArrival_arrives hp hcfb hquar hup hnew hfid
    exact arrives.trans (congrArg _ (arrive_macControl (decide_eq_true htype) htag))
  case graphErr => exact fun fid present n x f s => execHeaderCellsPresent_graphErr
  case forward => exact fun fid present n x f s => execHeaderCellsPresent_forwards
  case badTail =>
    intro fid i f s hf hfid hfirst hparsed hbad
    subst hfid
    exact (execFrameTail_first hf hfirst).trans (congrArg _ (tailOf_bad hparsed hbad))
  case goodTail =>
    intro fid f s hf hfid hfirst hgood hparsed hclear hfits
    subst hfid
    exact (execFrameTail_first hf hfirst).trans (congrArg _ (tailOf_good hgood hparsed hclear hfits))

end Sys2Proof.Machine
end

section
namespace Sys2Proof.Machine

/-! ## Express frames on their links (R220, R221, R222) -/

/-- The first word leaves once no sag runs, both tiles run, two slots have passed and the link has a slot (R222). -/
theorem execExpressLaunch_launches {fid : Nat} {f : Frame} {s : State} (hf : frame? s fid = some f) (hsag : s.pwr.sagStep = 0)
    (hphase : f.phase = .express) (hsrc : tileRunning s f.tile = true) (hdst : tileRunning s f.dst = true)
    (hslots : 2048 ≤ (s.tim.frc - f.carry.frcEnq) * 1000)
    (hlink : canSend s f.tile f.dst kindExpress (min 16 (expWords f)) = true) :
    execExpressLaunch fid s = .next (send f.tile f.dst (.express (expressSlot f) f.egress (expWords f))
      (setFrame fid (fun g => { g with phase := .launched, landing := 0 })
        (useLink f.tile f.dst kindExpress (min 16 (expWords f)) s))) := by
  have ready : twoSlotsOn s f = true := decide_eq_true hslots
  unfold execExpressLaunch
  simp only [hf, hsag, hphase, hsrc, hdst, ready, hlink, decide_true, Bool.and_self, if_true]

/-- What is taken off a link is the oldest of its kind there. -/
theorem takeWire_oldest {src dst : Nat} {k : Msg → Bool} {s v : State} {w : Wire} (h : takeWire src dst k s = some (w, v)) :
    s.fab.wires.find? (fun w => w.src = src && w.dst = dst && k w.msg) = some w := by
  simp only [takeWire] at h
  split at h
  case h_1 => cases h
  case h_2 found => cases h; exact found

/-- An express frame received whole arrives, once no earlier NOTICE is on its way to its tile (R222). -/
theorem execExpressArrival_received {src dst p n : Nat} {sl : Slot} {w : Wire} {s u : State} (h : Received src dst isExpress w s u)
    (hmsg : w.msg = .express sl p n) (hnotice : noticeComes s dst sl = false) :
    execExpressArrival ⟨src, true⟩ dst s = .next (arriveExpress dst (.express sl p n) u) := by
  obtain ⟨-, -, -, v, taken, -⟩ := id h
  unfold execExpressArrival
  simp only [takeWire_oldest taken, hmsg, hnotice, Bool.and_false, Bool.false_eq_true, if_false]
  rw [receiveOr_received _ _ h, hmsg]

/-- An express frame at a free transmitter starts, where R223 serves no other frame of its leaf first (R221). -/
theorem arriveExpress_starts {dst p n : Nat} {sl : Slot} {s v : State}
    (hv : v = setPort p (fun q => { q with reserved := false }) (endLaunched sl.fid s)) (hup : portUp v p = true)
    (hfree : (port v p).tx = none) (hfirst : leafEarlier v sl p = false) :
    arriveExpress dst (.express sl p n) s = selectPort p (startTx p sl v) := by
  subst hv
  unfold arriveExpress
  simp only [hup, hfree, hfirst, Option.isNone_none, Bool.not_true, Bool.not_false, Bool.and_self, Bool.false_eq_true, if_false, if_true]

/-- Settles O14: the launch in its one branch; an arrival is received, then starts. -/
theorem expressFramesComplete : Obligations.ExpressFramesComplete := by
  refine ⟨?launch, ?arrival⟩
  case launch => exact fun fid f s => execExpressLaunch_launches
  case arrival =>
    intro src dst p n sl w s u received hmsg hnotice hup hfree hfirst
    exact (execExpressArrival_received received hmsg hnotice).trans (congrArg _ (arriveExpress_starts rfl hup hfree hfirst))

end Sys2Proof.Machine
end

section
namespace Sys2Proof.Machine

/-! ## Frames at their destination (R226, R254, R285, R382, R383) -/

/-- Where parity gives nothing back, no charge is corrected. -/
theorem lateFirst_unbroken {a : Asm} (s : State) (hwhole : recovered a = []) : lateFirst a s = s := by
  unfold lateFirst
  rw [hwhole]
  rfl

/-- A done assembly that needed no parity, lost no data and is not to be dropped is delivered (R224, R226). -/
theorem execReassemblyComplete_delivers {t src leaf ssn pos : Nat} {a : Asm} {s : State}
    (ha : s.fab.asms.find? (fun a =>
      a.tile = t && a.note.src = src && a.note.leaf = leaf && a.note.ssn = ssn && a.note.pos = pos) = some a)
    (hdone : asmDone s a = true) (hrun : tileRunning s t = true) (hwhole : recovered a = []) (hkept : asmLost a = false)
    (hdrop : a.drop = false) :
    execReassemblyComplete t src leaf ssn pos s = .next (afterAsm a (deliverAsm a (orderedCells a) s)) := by
  unfold execReassemblyComplete
  simp only [ha, hdone, hrun, lateFirst_unbroken _ hwhole, hwhole, hkept, hdrop, List.isEmpty_nil, Bool.and_self, Bool.not_true,
    iff_false, Bool.false_eq_true, if_false]

/-- A free transmitter takes the highest class whose whole frame can leave before its gate closes (R285). -/
theorem execFrameTxStart_starts {p c : Nat} {sl : Slot} {s : State} (hfree : txFree s p = true)
    (hclass : (List.range 8).reverse.find? (canFinish (countWaits p s) p) = some c)
    (hslot : slotOf (countWaits p s) p c = some sl) :
    execFrameTxStart p s = .next (selectPort p (startTx p sl
      (setPort p (fun q => { q with slots := tput q.slots c none }) (countWaits p s)))) := by
  unfold execFrameTxStart
  rw [iff_of _ _ hfree]
  simp only [hclass, hslot]

/-- Without MACsec an egress frame leaves as it is (R102). -/
theorem macsecTx_off {p : Nat} {s : State} (an : Nat) (injected : Bool) (bs : List Byte) (hoff : macsecMode s p = 0) :
    macsecTx p an injected bs s = (none, s) := if_pos hoff

/-- The end of a whole frame at an Ethernet port without MACsec (R98, R254). -/
theorem execFrameTxEnd_ethernet {p : Nat} {sl : Slot} {s : State} (hp : p < 512) (htx : (port s p).tx = some sl)
    (hready : sl.ready = true) (hoff : macsecMode s p = 0) :
    execFrameTxEnd p s = .next (endTx p sl (txStamp sl true (txCount p sl (wireBytes s p sl)
      (emit (.frame p (wireBytes s p sl ++ fcsOf (wireBytes s p sl))) s)))) := by
  unfold execFrameTxEnd
  simp only [htx, hready, Nat.not_le_of_lt hp, macsecTx_off _ _ _ hoff, Bool.not_true, Bool.false_eq_true, if_false]

/-- The end of a whole frame at a host port: its packet RX ring takes it (R383). -/
theorem execFrameTxEnd_host {p : Nat} {sl : Slot} {s : State} (hp : 512 ≤ p) (htx : (port s p).tx = some sl)
    (hready : sl.ready = true) :
    execFrameTxEnd p s = .next (endTx p sl (txStamp sl true
      (toHost p sl (wireBytes s p sl) (txCount p sl (wireBytes s p sl) s)))) := by
  unfold execFrameTxEnd
  simp only [htx, hready, hp, Bool.not_true, Bool.false_eq_true, if_false, if_true]

/-- Settles O16: each row is the branch that its hypotheses name. -/
theorem egressFramesComplete : Obligations.EgressFramesComplete := by
  refine ⟨?delivered, ?started, ?ethernet, ?host⟩
  case delivered => exact fun t src leaf ssn pos a s => execReassemblyComplete_delivers
  case started => exact fun p c sl s => execFrameTxStart_starts
  case ethernet => exact fun p sl s => execFrameTxEnd_ethernet
  case host => exact fun p sl s => execFrameTxEnd_host

end Sys2Proof.Machine
end

section
namespace Sys2Proof.Machine

/-! ## Conditions, registers and their fields -/

/-- An operation under a condition that fails is not made. -/
theorem iff_off {c : Bool} (f : State → State) (s : State) (h : c = false) : iff_ c f s = s := by rw [h, iff_false]

/-- A number whose digits between P and P * N are replaced by u: the part above, the new digits, the part below. -/
theorem replace_digits (n P N u : Nat) : n - n / P % N * P + u * P = P * (N * (n / P / N) + u) + n % P := by
  have whole := Nat.div_add_mod n P
  have upper : P * (n / P) = P * (N * (n / P / N)) + n / P % N * P := by
    rw [Nat.mul_comm _ P, ← Nat.mul_add, Nat.div_add_mod]
  rw [Nat.mul_add, Nat.mul_comm u P]
  omega

/-- A word with field [hi:lo] replaced by v, as a number. -/
theorem setFld_toNat (w : Word) (hi lo v : Nat) :
    (setFld w hi lo v).toNat = (2 ^ lo * (2 ^ (hi + 1 - lo) * (w.toNat / 2 ^ lo / 2 ^ (hi + 1 - lo)) + v % 2 ^ (hi + 1 - lo)) +
      w.toNat % 2 ^ lo) % 2 ^ 32 := by
  rw [setFld, fld, Nat.shiftRight_eq_div_pow, Nat.shiftLeft_eq, Nat.shiftLeft_eq, BitVec.toNat_ofNat, replace_digits]

/-- A bit of a one-bit field just written. -/
theorem bit_setFld_same (w : Word) {b : Nat} (h : b < 32) (v : Bool) : bit (setFld w b b v.toNat) b = v := by
  have shape : (setFld w b b v.toNat).toNat = _ := setFld_toNat w b b v.toNat
  rw [bit, shape, Nat.testBit_mod_two_pow, Nat.testBit_two_pow_mul_add _ (Nat.mod_lt _ (Nat.two_pow_pos b))]
  have one : b + 1 - b = 1 := by omega
  simp only [h, decide_true, Bool.true_and, Nat.lt_irrefl, if_false, Nat.sub_self, one, Nat.pow_one, Nat.testBit_zero,
    Nat.mul_add_mod, Nat.mod_mod]
  cases v <;> rfl

/-- A bit below the field that a write replaces. -/
theorem bit_setFld_below (w : Word) {lo b : Nat} (hb : b < lo) (hi v : Nat) : bit (setFld w hi lo v) b = bit w b := by
  by_cases hw : b < 32
  · rw [bit, setFld_toNat w hi lo v, Nat.testBit_mod_two_pow, Nat.testBit_two_pow_mul_add _ (Nat.mod_lt _ (Nat.two_pow_pos lo)),
      if_pos hb, Nat.testBit_mod_two_pow, decide_eq_true hw, decide_eq_true hb, Bool.true_and, Bool.true_and]
    rfl
  · have beyond (x : Word) : bit x b = false :=
      Nat.testBit_lt_two_pow (Nat.lt_of_lt_of_le x.isLt (Nat.pow_le_pow_right (by decide) (Nat.not_lt.mp hw)))
    rw [beyond, beyond]

/-- A field of one bit, read as a number. -/
theorem fld_one_iff (w : Word) (b : Nat) : fld w b b = 1 ↔ bit w b = true := by
  have one : b + 1 - b = 1 := by omega
  rw [fld, bit, one, Nat.testBit_eq_decide_div_mod_eq, Nat.shiftRight_eq_div_pow, Nat.pow_one, decide_eq_true_eq]

/-- A bit of a platform register after its own write. -/
theorem pbit_pset_same {s : State} (hregs : Tab.wf s.regs = true) (r : Reg) {b : Nat} (h : b < 32) (v : Bool) :
    pbit (pset r b v s) r b = v := by
  rw [pbit, pset, rset, rget_rput_same _ _ _ _ hregs, bit_setFld_same _ h]

/-- A lower bit of a platform register after the write of a bit. -/
theorem pbit_pset_below {s : State} (hregs : Tab.wf s.regs = true) (r : Reg) {b c : Nat} (h : b < c) (v : Bool) :
    pbit (pset r c v s) r b = pbit s r b := by
  rw [pbit, pset, rset, rget_rput_same _ _ _ _ hregs, bit_setFld_below _ h, pbit]

/-- The stage of start-up after a write of a field of another register. -/
theorem stage_rset {r : Reg} {t i : Nat} (hne : regOff .pltBootStat 0 0 ≠ regOff r t i) {s : State}
    (hregs : Tab.wf s.regs = true) (hi lo v : Nat) : stage (rset r t i hi lo v s) = stage s := by
  rw [stage, rfld, rset, rget_rput_other _ _ _ _ _ _ _ hregs hne]
  rfl

/-- A write of a field keeps the register file canonical. -/
theorem rset_wf (r : Reg) (t i hi lo v : Nat) {s : State} (hregs : Tab.wf s.regs = true) :
    Tab.wf (rset r t i hi lo v s).regs = true := tput_wf _ _ hregs

end Sys2Proof.Machine
end

section
namespace Sys2Proof.Machine

/-! ## Mains, converter, supply and bus (R44, R56, R57, R59, R60, R66) -/

/-- With mains present and the converter running, the supply's return measures the bus: of a powered module that only shows it, or of
one that starts. -/
theorem execSupplyGood_supplied {s : State} (hmains : pbit s .pwrStat 1 = true) (hconv : s.pwr.convRunning = true) :
    execSupplyGood s = .next (measureBus (fun v => max (if s.pwr.powered then 760 else startBus s) (v % 1024))
      (if s.pwr.powered then pset .pwrStat 0 true s else powerOn s)) :=
  congrArg _ (iff_of _ _ (by rw [hmains, hconv]; rfl))

theorem execSupplyGood_unsupplied {s : State} (h : pbit s .pwrStat 1 = false ∨ s.pwr.convRunning = false) :
    execSupplyGood s = .next s :=
  congrArg _ (iff_off _ _ (Bool.and_eq_false_iff.mpr h))

/-- Settles O1: each event is its operation where its condition holds, and nothing where it does not. -/
theorem powerEventsComplete : Obligations.PowerEventsComplete := by
  refine ⟨?mainsLostPowered, ?mainsLostUnpowered, ?mainsReturn, ?converterStop, ?faultPowered, ?faultUnpowered, ?supplyPowered,
    ?supplyUnpowered, ?noSupply, ?busLow, ?busHeld⟩
  case mainsLostPowered => exact fun s hp => congrArg (fun u => Host.Outcome.next (pset .pwrStat 1 false u)) (iff_of _ _ hp)
  case mainsLostUnpowered => exact fun s hp => congrArg (fun u => Host.Outcome.next (pset .pwrStat 1 false u)) (iff_off _ _ hp)
  case mainsReturn => exact fun s => rfl
  case converterStop => exact fun s => rfl
  case faultPowered => exact fun s hp => congrArg _ (iff_of _ _ hp)
  case faultUnpowered => exact fun s hp => congrArg _ (iff_off _ _ hp)
  case supplyPowered =>
    intro s hmains hconv hp
    refine (execSupplyGood_supplied hmains hconv).trans ?_
    simp only [hp, if_true]
  case supplyUnpowered =>
    intro s hmains hconv hp
    refine (execSupplyGood_supplied hmains hconv).trans ?_
    simp only [hp, Bool.false_eq_true, if_false]
  case noSupply => exact fun s => execSupplyGood_unsupplied
  case busLow => exact fun s hconv => congrArg _ (iff_of _ _ (by rw [hconv]; rfl))
  case busHeld => exact fun s hconv => congrArg _ (iff_off _ _ (by rw [hconv]; rfl))

end Sys2Proof.Machine
end

section
namespace Sys2Proof.Machine

/-! ## The sag sequence (R58 to R63) -/

/-- The module at a crossing of the sag threshold: supply good is gone and the bus reads below the threshold. -/
abbrev sagMeasured (s : State) : State := measureBus (fun v => v % sagThreshold s) (pset .pwrStat 0 false s)

/-- A first crossing of a powered module: the steward begins the sequence, or without it everything is held in reset (R59, R61). -/
theorem execSagThresholdCrossing_powered {s : State} (hp : s.pwr.powered = true) (hfirst : s.pwr.sagStep = 0) :
    execSagThresholdCrossing s =
      .next (if stewardRuns (sagMeasured s) then sagBegins (sagMeasured s) else sagEarly (sagMeasured s)) := by
  unfold execSagThresholdCrossing
  simp only [hp, hfirst, Bool.not_true, Bool.false_eq_true, if_false, decide_true, iff_true]

/-- The steps in which the sequence sheds lane groups. -/
theorem sheds_of_step {s : State} (h : s.pwr.sagStep = 1 ∨ s.pwr.sagStep = 2) :
    (decide (s.pwr.sagStep = 1) || decide (s.pwr.sagStep = 2)) = true := by
  simpa only [Bool.or_eq_true, decide_eq_true_eq] using h

/-- The engines are done once no engine holds a command (R59). -/
theorem enginesDone_of_idle {s : State} (h : ∀ x ∈ s.engines, x.2.cmd = none) : enginesDone s = true :=
  List.all_eq_true.mpr fun x hx => by rw [h x hx]; rfl

/-- The bus returns to a powered module: after an early sag or the save, the sag ends in its reset (R59, R60, R61). -/
theorem execBusAtReturnThreshold_powered {s : State} (hp : s.pwr.powered = true)
    (hsag : s.pwr.earlyHold = true ∨ s.pwr.sagStep = 5) : execBusAtReturnThreshold s = .next (busReturns s) := by
  have ends : (s.pwr.earlyHold || decide (s.pwr.sagStep = 5)) = true := by
    simpa only [Bool.or_eq_true, decide_eq_true_eq] using hsag
  exact congrArg _ ((if_pos hp).trans (iff_of _ _ ends))

/-- The bus returns to an unpowered module that an early sag holds (R61). -/
theorem execBusAtReturnThreshold_unpowered {s : State} (hp : s.pwr.powered = false) (hearly : s.pwr.earlyHold = true)
    (hmains : pbit s .pwrStat 1 = true) (hconv : s.pwr.convRunning = true) :
    execBusAtReturnThreshold s = .next (sagStart s) :=
  congrArg _ ((if_neg (Bool.eq_false_iff.mp hp)).trans (iff_of _ _ (by rw [hearly, hmains, hconv]; rfl)))

/-- Settles O2: each row is the branch of its event that its hypotheses name. -/
theorem sagSequenceCompletes : Obligations.SagSequenceCompletes := by
  refine ⟨?crossing, ?early, ?shedTick, ?unpowered, ?save, ?written, ?returns, ?starts⟩
  case crossing =>
    exact fun s hp hfirst _ hsteward => (execSagThresholdCrossing_powered hp hfirst).trans (congrArg _ (if_pos hsteward))
  case early =>
    exact fun s hp hfirst _ hnone =>
      (execSagThresholdCrossing_powered hp hfirst).trans (congrArg _ (if_neg (Bool.eq_false_iff.mp hnone)))
  case shedTick => exact fun s hstep => congrArg _ (iff_of _ _ (sheds_of_step hstep))
  case unpowered => exact fun s hp => congrArg _ (if_pos (by rw [hp]; rfl))
  case save =>
    intro s hstep hleft hidle
    refine congrArg _ (iff_of _ _ ?_)
    rw [sheds_of_step hstep, hleft, enginesDone_of_idle hidle]
    rfl
  case written => exact fun s hstep => congrArg _ (iff_of _ _ (decide_eq_true hstep))
  case returns => exact fun s => execBusAtReturnThreshold_powered
  case starts => exact fun s => execBusAtReturnThreshold_unpowered

end Sys2Proof.Machine
end

section
namespace Sys2Proof.Machine

/-! ## Reset pins, function-level reset and PLT_SW_RST (R51, R66 to R70, R363) -/

/-- PERST_N of a powered module: under PERST_POLICY 1 the host interface only, else a warm reset (R68). -/
theorem execPerstNAssert_powered {s : State} (hp : s.pwr.powered = true) :
    execPerstNAssert s = .next (if optByte s 9 = 1
      then iff_ (hifReleased (pinFrom true s) && !sagRunning s) hostReset (pset .pltRstCause 2 true (pinFrom true s))
      else requestReset 2 false (pinFrom true s)) :=
  congrArg _ (iff_of _ _ hp)

/-- The pin is noted in a register that does not hold the stage. -/
theorem hifReleased_pinFrom {s : State} (hregs : Tab.wf s.regs = true) (perst : Bool) :
    hifReleased (pinFrom perst s) = hifReleased s := by
  rw [hifReleased, pinFrom, stage_rset (by decide) hregs, hifReleased]

/-- A software reset whose key is wrong does nothing. -/
theorem swReset_badKey {key : Nat} (h : key ≠ 0xC1EA) (scope target : Nat) (s : State) : swReset key scope target s = s :=
  if_pos (by rw [decide_eq_true h, Bool.true_or])

/-- A software reset of a smaller scope than the module, of a target that exists. -/
theorem swReset_target {scope target : Nat} {s : State} (hscope : 2 ≤ scope) (h : targetOk s scope target = true) :
    swReset 0xC1EA scope target s = scopeReset scope target s := by
  unfold swReset
  rw [h, if_neg (by decide), if_neg (by omega)]

/-- A reset of a tile that start-up has released. -/
theorem scopeReset_tile {t : Nat} {s : State} (hlow : 7 ≤ stage s) (hhigh : stage s ≤ 9) : scopeReset 2 t s = tileReset t mgr s :=
  iff_of _ _ (by rw [decide_eq_true hlow, decide_eq_true hhigh]; rfl)

/-- A reset of a port of a released tile. -/
theorem scopeReset_port {p : Nat} {s : State} (hrel : unitReleased s (p / 64) = true) : scopeReset 4 p s = portReset p mgr s :=
  iff_of _ _ hrel

/-- An engine of a released tile is reset at once, or at the next boundary of the microcode that it runs (R360). -/
theorem execSwResetEngine_released {e : Nat} {s : State} (hup : hifUp s = true) (he : e < 16)
    (hrel : unitReleased s (e / 2) = true) : execSwResetEngine 0xC1EA e s = .next (askEngineReset e s) := by
  have target : targetOk s 5 e = true := decide_eq_true he
  exact congrArg _ ((iff_of _ _ hup).trans ((swReset_target (by decide) target).trans (iff_of _ _ hrel)))

/-- Settles O3: each source in its condition; a software reset acts on a target that exists. -/
theorem resetSourcesComplete : Obligations.ResetSourcesComplete := by
  refine ⟨?pin, ?pinRelease, ?perstWarm, ?perstHost, ?flr, ?watchdog, ?cold, ?warm, ?tile, ?badKey, ?slice, ?port, ?engine,
    ?engineBusy⟩
  case pin => exact fun s hp => congrArg _ (iff_of _ _ hp)
  case pinRelease => exact fun s => rfl
  case perstWarm => exact fun s hp hpolicy => (execPerstNAssert_powered hp).trans (congrArg _ (if_neg hpolicy))
  case perstHost =>
    intro s hp hpolicy hregs hrel hsag
    refine (execPerstNAssert_powered hp).trans (congrArg _ ((if_pos hpolicy).trans (iff_of _ _ ?_)))
    rw [hifReleased_pinFrom hregs, hrel, hsag]
    rfl
  case flr => exact fun s hup hsag => congrArg _ (iff_of _ _ (by rw [hup, hsag]; rfl))
  case watchdog => exact fun s hruns => congrArg _ (iff_of _ _ hruns)
  case cold => exact fun s hup => congrArg _ (iff_of _ _ hup)
  case warm => exact fun s hup => congrArg _ (iff_of _ _ hup)
  case tile =>
    intro t s hup ht hlow hhigh
    have target : targetOk s 2 t = true := decide_eq_true ht
    refine congrArg Host.Outcome.next ((iff_of _ _ hup).trans ?_)
    rw [swReset_target (by decide) target, scopeReset_tile hlow hhigh]
  case badKey =>
    intro key t s hkey
    refine congrArg Host.Outcome.next ?_
    rw [iff_, swReset_badKey hkey, ite_self]
  case slice =>
    intro i s hup hi hon
    have target : targetOk s 3 i = true := by rw [targetOk, hon, decide_eq_true hi]; rfl
    exact congrArg _ ((iff_of _ _ hup).trans (swReset_target (by decide) target))
  case port =>
    intro p s hup hp hexists hrel
    have target : targetOk s 4 p = true := by rw [targetOk, hexists, decide_eq_true hp]; rfl
    refine congrArg Host.Outcome.next ((iff_of _ _ hup).trans ?_)
    rw [swReset_target (by decide) target, scopeReset_port hrel]
  case engine =>
    intro e s hup he hrel hidle
    refine (execSwResetEngine_released hup he hrel).trans (congrArg _ (if_neg ?_))
    rw [hidle]
    exact Bool.false_ne_true
  case engineBusy => exact fun e s hup he hrel hbusy => (execSwResetEngine_released hup he hrel).trans (congrArg _ (if_pos hbusy))

end Sys2Proof.Machine
end

section
namespace Sys2Proof.Machine

/-! ## Plate, junctions and throttle (R39 to R41, R183, R415, R416) -/

/-- More lane groups are enabled than the plate's band allows: a screened module sheds (R40). -/
theorem execThermShed_sheds {plate : Int} {s : State} (hscr : screened s = true) (hrun : calRuns s = true)
    (hmore : bandAllows (plateBand plate) < enabledCount s) :
    execThermShed plate s = .next (report (unitId 0 0) 0x0101 0 0 (noteShed (shedTo (bandAllows (plateBand plate)) (img s).shedOrder
      { setPlate plate s with pwr := { s.pwr with appliedBand := plateBand plate } }))) :=
  congrArg _ (iff_of _ _ (by rw [hscr, hrun, decide_eq_true hmore]; rfl))

/-- In a cooler band a screened module unsheds what it shed (R41). -/
theorem execThermUnshed_unsheds {plate : Int} {b : Nat} {s : State} (hscr : screened s = true) (hrun : calRuns s = true)
    (hshed : s.pwr.thermShed ≠ []) (hband : coolerBand s plate = some b) :
    execThermUnshed plate s = .next (noteShed (unshedTo (bandAllows b) s.pwr.thermShed.reverse
      { setPlate plate s with pwr := { s.pwr with appliedBand := b } })) := by
  unfold execThermUnshed
  rw [iff_of _ _ (by rw [hscr, hrun, List.isEmpty_eq_false_iff.mpr hshed]; rfl), hband]

/-- A junction sample of a tile of the powered module (R183, R415). -/
theorem execJunctionSample_hottest {t : Nat} {x : Int} {temps : List Int} {s : State} (hp : s.pwr.powered = true) (ht : t < 8)
    (hx : hottest temps = some x) :
    execJunctionSample t temps s = .next (iff_ (tooHot x) (report (unitId 6 t) 0x010B 0 0)
      (throttleRise t x (setSens t (fun y => { y with junction := x }) s))) := by
  unfold execJunctionSample
  simp only [hx, hp, ht, decide_true, Bool.and_self, iff_true]

/-- The throttle falls a level once the junction is below the level's threshold less 4 degrees C (R183). -/
theorem execThrottleFall_falls {t lvl : Nat} {s : State} (ht : t < 8) (hlvl : rfld s .tcmThrottle t 0 25 24 = lvl) (hpos : 0 < lvl)
    (hcool : (tget s.sens t).junction < (rfld s .tcmThrottle t 0 (lvl * 8 - 1) (lvl * 8 - 8) : Nat) * 8 - 32) :
    execThrottleFall t s = .next (
      let u := rset .tcmThrottle t 0 25 24 (lvl - 1) s
      { u with tcm := { u.tcm with waking := (t * 4 + (4 - lvl)) :: u.tcm.waking } }) := by
  subst hlvl
  exact congrArg _ (iff_of _ _ (by rw [decide_eq_true ht, decide_eq_true hpos, decide_eq_true hcool]; rfl))

/-- Settles O7: each row is its operation once its condition holds. -/
theorem thermalEventsComplete : Obligations.ThermalEventsComplete := by
  refine ⟨?coldHold, ?shed, ?unshed, ?junctionTrip, ?plateTrip, ?release, ?sample, ?fall⟩
  case coldHold => exact fun s hcold => congrArg _ (iff_of _ _ (decide_eq_true hcold))
  case shed => exact fun plate s => execThermShed_sheds
  case unshed => exact fun plate b s => execThermUnshed_unsheds
  case junctionTrip =>
    exact fun t s hp hstage ht htrip => congrArg _ (iff_of _ _ (by
      rw [hp, decide_eq_true hstage, decide_eq_true ht, decide_eq_true htrip]; rfl))
  case plateTrip => exact fun s hp hstage => congrArg _ (iff_of _ _ (by rw [hp, decide_eq_true hstage]; rfl))
  case release => exact fun s hhold => congrArg _ (iff_of _ _ hhold)
  case sample => exact fun t x temps s => execJunctionSample_hottest
  case fall => exact fun t lvl s => execThrottleFall_falls

end Sys2Proof.Machine
end

section
namespace Sys2Proof.Machine

/-! ## Open-drain outputs (R50, R59, R405, R410) -/

theorem heldFault_iff {s : State} :
    heldFault s = true ↔ ∃ x ∈ s.flt.units, x.2.held = true ∧ (x.2.cls = 1 ∨ x.2.cls = 2) := by
  simp only [heldFault, List.any_eq_true, Bool.and_eq_true, Bool.or_eq_true, decide_eq_true_eq]

theorem startStopped_iff {s : State} : startStopped s = true ↔ stage s = 0x80 ∨ stage s = 0x81 ∨ stage s = 0x82 := by
  simp only [startStopped, Bool.or_eq_true, decide_eq_true_eq, or_assoc]

theorem modFaultPin_iff {s : State} (hp : s.pwr.powered = true) :
    modFaultPin s = true ↔ heldFault s = true ∨ inSafe s = true ∨ startStopped s = true := by
  rw [modFaultPin, hp, Bool.true_and, Bool.or_eq_true, Bool.or_eq_true, or_assoc]

theorem sagPin_iff {s : State} (hp : s.pwr.powered = true) : sagPin s = true ↔ rfld s .pwrStat 0 0 3 3 = 1 := by
  rw [sagPin, hp, Bool.true_and, pbit, rfld, fld_one_iff]

/-! ### What ends the commands of a sag leaves the rest of the block -/

/-- Only what serves commands has changed: rings and interrupts, outputs, counters, DRAM channels and the security engine. -/
def ServiceOnly (s t : State) : Prop := ∃ h o n d x, t = { s with hif := h, out := o, tel := n, dram := d, sec := x }

theorem ServiceOnly.refl (s : State) : ServiceOnly s s := ⟨_, _, _, _, _, rfl⟩

theorem ServiceOnly.trans {s t u : State} (a : ServiceOnly s t) (b : ServiceOnly t u) : ServiceOnly s u := by
  obtain ⟨_, _, _, _, _, rfl⟩ := a
  obtain ⟨_, _, _, _, _, rfl⟩ := b
  exact ⟨_, _, _, _, _, rfl⟩

theorem ServiceOnly.pwr {s t : State} (h : ServiceOnly s t) : t.pwr = s.pwr := by
  obtain ⟨_, _, _, _, _, rfl⟩ := h
  rfl

theorem ServiceOnly.sagPin {s t : State} (h : ServiceOnly s t) : sagPin t = sagPin s := by
  obtain ⟨_, _, _, _, _, rfl⟩ := h
  rfl

theorem serviceOnly_ite {c : Prop} [Decidable c] {s t u : State} (ht : ServiceOnly s t) (hu : ServiceOnly s u) :
    ServiceOnly s (if c then t else u) := by
  split
  · exact ht
  · exact hu

theorem serviceOnly_forEach {β : Type} {f : β → State → State} (h : ∀ b s, ServiceOnly s (f b s)) :
    ∀ (l : List β) (s : State), ServiceOnly s (forEach l f s)
  | [], s => .refl s
  | b :: l, s => (h b s).trans (serviceOnly_forEach h l (f b s))

theorem serviceOnly_setRing (q r : Nat) (f : Ring → Ring) (s : State) : ServiceOnly s (setRing q r f s) := ⟨_, _, _, _, _, rfl⟩

theorem serviceOnly_count (k i n : Nat) (s : State) : ServiceOnly s (count k i n s) := ⟨_, _, _, _, _, rfl⟩

theorem serviceOnly_setSec (f : Sec → Sec) (s : State) : ServiceOnly s (setSec f s) := ⟨_, _, _, _, _, rfl⟩

theorem serviceOnly_emitHost (o : Out) (s : State) : ServiceOnly s (emitHost o s) := by
  unfold emitHost iff_
  exact serviceOnly_ite ⟨_, _, _, _, _, rfl⟩ (.refl s)

theorem serviceOnly_sendVector (v : Nat) (s : State) : ServiceOnly s (sendVector v s) := by
  unfold sendVector
  exact serviceOnly_ite ⟨_, _, _, _, _, rfl⟩ (serviceOnly_emitHost ..)

theorem serviceOnly_ringIrq (q r : Nat) (s : State) : ServiceOnly s (ringIrq q r s) := by
  have sent (v : Nat) (f : Ring → Ring) : ServiceOnly s (sendVector v (setRing q r f s)) :=
    (serviceOnly_setRing ..).trans (serviceOnly_sendVector ..)
  unfold ringIrq
  refine serviceOnly_ite ?_ (.refl s)
  split
  · exact serviceOnly_ite (serviceOnly_setRing ..) (sent ..)
  · exact sent ..

theorem serviceOnly_pushEntry (q r : Nat) (ws : List Word) (s : State) : ServiceOnly s (pushEntry q r ws s) :=
  (((serviceOnly_emitHost _ s).trans (serviceOnly_setRing ..)).trans (serviceOnly_count ..)).trans (serviceOnly_ringIrq ..)

theorem serviceOnly_postTo (q r typ src : Nat) (tag : Word) (t : Time80) (body : List Word) (s : State) :
    ServiceOnly s (postTo q r typ src tag t body s) := by
  unfold postTo
  exact serviceOnly_ite ((serviceOnly_setRing ..).trans (serviceOnly_count ..)) (serviceOnly_pushEntry ..)

theorem serviceOnly_completeWith (q r : Nat) (desc : List Word) (st : Nat) (ret : List (Nat × Word)) (s : State) :
    ServiceOnly s (completeWith q r desc st ret s) := by
  have written (o : Out) : ServiceOnly s (ringIrq q r (ringCnt q r 0 1 (setRing q r ringAdvance (emitHost o s)))) :=
    ((serviceOnly_emitHost o s).trans (serviceOnly_setRing ..)).trans ((serviceOnly_count ..).trans (serviceOnly_ringIrq ..))
  unfold completeWith
  refine serviceOnly_ite ?_ (written _)
  split
  · exact (written _).trans (serviceOnly_postTo ..)
  · exact (written _).trans (serviceOnly_count ..)

theorem serviceOnly_iterStops (d : List Word) (s : State) : ServiceOnly s (iterStops d s) := by
  unfold iterStops
  exact serviceOnly_ite ⟨_, _, _, _, _, rfl⟩ (.refl s)

theorem serviceOnly_endPartial (q r : Nat) (s : State) : ServiceOnly s (endPartial q r s) := by
  unfold endPartial
  split
  · exact (serviceOnly_completeWith ..).trans (serviceOnly_iterStops ..)
  · exact .refl s

theorem serviceOnly_endBusy (q r st : Nat) (ret : List (Nat × Word)) (s : State) : ServiceOnly s (endBusy q r st ret s) := by
  unfold endBusy
  split
  · exact serviceOnly_completeWith ..
  · exact .refl s

theorem serviceOnly_secUrgent (level : Nat) (s : State) : ServiceOnly s (secUrgent level s) := by
  unfold secUrgent
  refine serviceOnly_ite (.refl s) (serviceOnly_ite (.trans ?_ (serviceOnly_setSec ..)) ?_)
  all_goals
    split
    · exact serviceOnly_setSec ..
    · exact serviceOnly_ite (serviceOnly_setSec ..) (serviceOnly_setSec ..)

/-! ### The crossing asserts SAG_N -/

/-- The sag sequence enters its step 1. -/
abbrev sagEntered (s : State) : State :=
  { s with pwr := { s.pwr with sagStep := 1, sagTime := s.tim.now, mainsReturned := false, sagShed := [] } }

/-- SAG and SAG_SEEN are set with it (R59). -/
abbrev sagNoted (s : State) : State := pset .pwrStat 4 true (pset .pwrStat 3 true (sagEntered s))

/-- After that the sequence's begin only ends commands and claims the security engine. -/
theorem serviceOnly_sagBegins (s : State) : ServiceOnly (sagNoted s) (sagBegins s) :=
  ((serviceOnly_secUrgent ..).trans (serviceOnly_forEach (fun _ => serviceOnly_endPartial _ _) ..)).trans
    (serviceOnly_forEach (fun _ => serviceOnly_endBusy _ _ _ _) ..)

theorem sagPin_sagBegins {s : State} (hregs : Tab.wf s.regs = true) (hp : s.pwr.powered = true) : sagPin (sagBegins s) = true := by
  have shown : pbit (pset .pwrStat 3 true (sagEntered s)) .pwrStat 3 = true := pbit_pset_same hregs _ (by decide) true
  have noted : Tab.wf (pset .pwrStat 3 true (sagEntered s)).regs = true := rset_wf _ _ _ _ _ _ hregs
  rw [(serviceOnly_sagBegins s).sagPin, sagPin, pbit_pset_below noted _ (by decide), shown]
  simp only [pset_pwr, hp, Bool.and_self]

/-- A measure of the bus leaves the stage of start-up and keeps the register file canonical. -/
theorem stage_measureBus (f : Nat → Nat) {s : State} (hregs : Tab.wf s.regs = true) : stage (measureBus f s) = stage s :=
  stage_rset (r := .pwrStat) (t := 0) (i := 0) (by decide) hregs 21 12 (f (drawn s))

theorem measureBus_wf (f : Nat → Nat) {s : State} (hregs : Tab.wf s.regs = true) : Tab.wf (measureBus f s).regs = true :=
  rset_wf .pwrStat 0 0 21 12 (f (drawn s)) hregs

/-- The crossing's measure finds the steward as it was. -/
theorem stewardRuns_sagMeasured {s : State} (hregs : Tab.wf s.regs = true) : stewardRuns (sagMeasured s) = stewardRuns s := by
  have cleared : Tab.wf (pset .pwrStat 0 false s).regs = true := rset_wf _ _ _ _ _ _ hregs
  rw [stewardRuns, stage_measureBus _ cleared, pset, stage_rset (by decide) hregs, stewardRuns]

/-- Settles O59: the pins are read off their definitions; the sag sequence begins by setting SAG and ends commands only. -/
theorem openDrainOutputs : Obligations.OpenDrainOutputs := by
  refine ⟨?fault, ?safeAndSag, ?unpowered, ?crossing⟩
  case fault => exact fun s hp => by rw [modFaultPin_iff hp, heldFault_iff, startStopped_iff]
  case safeAndSag => exact fun s hp => ⟨by rw [modSafePin, hp, Bool.true_and], sagPin_iff hp⟩
  case unpowered =>
    intro s hp
    refine ⟨?_, ?_, ?_⟩
    · rw [modFaultPin, hp, Bool.false_and]
    · rw [modSafePin, hp, Bool.false_and]
    · rw [sagPin, hp, Bool.false_and]
  case crossing =>
    intro s ⟨_, hregs, _⟩ hp hfirst hsteward
    have measured : Tab.wf (sagMeasured s).regs = true := measureBus_wf _ (rset_wf _ _ _ _ _ _ hregs)
    refine ⟨sagBegins (sagMeasured s), ?begins, sagPin_sagBegins measured hp, ?step⟩
    case begins =>
      refine (execSagThresholdCrossing_powered hp hfirst).trans (congrArg _ (if_pos ?_))
      rw [stewardRuns_sagMeasured hregs, hsteward]
    case step =>
      rw [(serviceOnly_sagBegins _).pwr]
      rfl

end Sys2Proof.Machine
end

section
namespace Sys2Proof.Machine

/-! ## CNT and MEM commands (R62, R253, R254, R273, R334, R425, R427, R428): what each does once it runs -/

/-- CNT.DUMP at its beginning: the ring subscribes and the first step runs. -/
theorem execCntDump_begins {c : Cmd} {s u : State}
    (runs : Runs c 0x243 .any [((setShape (cntSet c)).isNone || !dumpCursorOk c || !dumpRingOk s c.req (dumpRing c), stBAD_OPERAND),
      (!readsSet c.req (cntSet c), stNO_PERMISSION)] s)
    (hu : u = noteCmd c s) (hnew : iterating c s = false) (hstill : iterating c u = false) :
    execCntDump c s = .next (iterRun c (if opCursor c = startCursor then dumpCursor (cntSet c) 0 else opCursor c) (dumpStep c)
      (subscribe c.req (cntSet c) (dumpRing c) u)) := by
  subst hu
  unfold execCntDump iterChecks
  simp only [hnew, Bool.false_eq_true, if_false]
  rw [runCmd_runs _ runs]
  simp only [hstill, Bool.not_false, iff_true]

/-- CNT.PER sets the period; another than 0 begins the first dump. -/
theorem execCntPer_runs {c : Cmd} {s u : State}
    (runs : Runs c 0x244 .manager [((setShape (cntSet c)).isNone || 1000 < opf c 5 9 0, stBAD_OPERAND)] s) (hu : u = noteCmd c s) :
    execCntPer c s = .next (iff_ (opf c 5 9 0 ≠ 0) (periodBegins (cntSet c))
      (fin c stOK [] (rset .telDumpPer 0 (cntSet c) 9 0 (opf c 5 9 0) u))) := by
  subst hu
  exact congrArg _ (runCmd_runs _ runs)

/-- MEM.ALLOC takes a buffer of the named pool that is not exhausted. -/
theorem execMemAlloc_runs {c : Cmd} {t k : Nat} {s u : State} (ht : t = opf c 4 6 4) (hk : k = opf c 4 1 0)
    (runs : Runs c 0x283 .any [(tileDown s t, stFENCED_UNIT)] s) (hu : u = noteCmd c s) :
    execMemAlloc c s = .next (if exhausted u t k (reqUser c.req) then fin c stTABLE_FULL [] u
      else fin c stOK [(2, word (takeBuf t k 1 (ringTag c.req c.ring) u).2)] (takeBuf t k 1 (ringTag c.req c.ring) u).1) := by
  subst hu ht hk
  exact congrArg _ (runCmd_runs _ runs)

/-- The checks of MEM.FREE. -/
abbrev freeChecks (s : State) (h : Nat) : List (Bool × Nat) :=
  [(!handleOk s h, stBAD_OPERAND), (tileDown s (handleTile h), stFENCED_UNIT)]

/-- MEM.FREE of a buffer that the ring owns. -/
theorem execMemFree_own {c : Cmd} {h : Nat} {s u : State} (hh : h = (opw c 5).toNat) (runs : Runs c 0x284 .any (freeChecks s h) s)
    (hu : u = noteCmd c s) (hown : claimFails u h (ringTag c.req c.ring) = none) :
    execMemFree c s = .next (fin c stOK [] (retryWaits (handleTile h) (bufRelease h u))) := by
  subst hu hh
  refine congrArg Host.Outcome.next ((runCmd_runs _ runs).trans ?_)
  simp only [hown]

/-- MEM.FREE of another buffer has the effect of its refusal. -/
theorem execMemFree_refused {c : Cmd} {h st : Nat} {f : State → State} {s u : State} (hh : h = (opw c 5).toNat)
    (runs : Runs c 0x284 .any (freeChecks s h) s) (hu : u = noteCmd c s)
    (hfails : claimFails u h (ringTag c.req c.ring) = some (st, f)) : execMemFree c s = .next (fin c st [] (f u)) := by
  subst hu hh
  refine congrArg Host.Outcome.next ((runCmd_runs _ runs).trans ?_)
  simp only [hfails]

/-- A client owns an allocated buffer that bears its tag. -/
theorem claimFails_own {s : State} {h tag : Nat} (halloc : (buf s h).alloc = true) (htag : (buf s h).tag = tag) :
    claimFails s h tag = none := by
  unfold claimFails
  rw [halloc, if_neg (by decide), if_neg (not_not_intro htag)]

theorem claimFails_free {s : State} {h tag : Nat} (halloc : (buf s h).alloc = false) :
    claimFails s h tag = some (stNOT_FOUND, freeTwice h tag) :=
  if_pos (by rw [halloc]; rfl)

theorem claimFails_foreign {s : State} {h tag : Nat} (halloc : (buf s h).alloc = true) (htag : (buf s h).tag ≠ tag) :
    claimFails s h tag = some (stNO_PERMISSION, freeForeign h tag) := by
  unfold claimFails
  rw [halloc, if_neg (by decide), if_pos htag]

/-- MEM.RD while its channel's queue has room. -/
theorem execMemRd_runs {c : Cmd} {s u : State} (hroom : memWaits c s = false) (runs : Runs c 0x281 .any (memChecks c s) s)
    (hu : u = noteCmd c s) :
    execMemRd c s = .next (
      let got := patchBytes (bytesOf ((List.range 8).map fun i => opw c (8 + i))) 0 (memFetch c c.dram u).1
      fin c stOK ((List.range 8).map fun i => (8 + i, (wordsOf 8 got).getD i 0)) (memFetch c c.dram u).2) := by
  subst hu
  exact congrArg _ ((if_neg (Bool.eq_false_iff.mp hroom)).trans (runCmd_runs _ runs))

/-- MEM.WR while its channel's queue has room. -/
theorem execMemWr_runs {c : Cmd} {s u : State} (hroom : memWaits c s = false) (runs : Runs c 0x282 .any (memChecks c s) s)
    (hu : u = noteCmd c s) :
    execMemWr c s = .next (fin c stOK []
      (memStore c c.dram ((bytesOf ((List.range 8).map fun i => opw c (8 + i))).take (memLen c)) u)) := by
  subst hu
  exact congrArg _ ((if_neg (Bool.eq_false_iff.mp hroom)).trans (runCmd_runs _ runs))

/-- Bytes written to a buffer show in the frames held in it. -/
theorem memStore_buffer {c : Cmd} (hbuf : memDram c = false) (x : EccFinding) (bs : List Byte) (s : State) :
    memStore c x bs s = bufWritten (memName c) (memOff c) bs (writeMem (memAt c) bs s) :=
  if_neg (Bool.eq_false_iff.mp hbuf)

/-- MEM.MIG with a free spare: mirroring starts and one step runs. -/
theorem execMemMig_begins {c : Cmd} {s u : State} (runs : Runs c 0x285 .manager (migChecks c s) s) (hu : u = noteCmd c s)
    (hnew : iterating c u = false) (hspare : spareFree (channel u (migCh c)) = true) :
    execMemMig c s = .next (
      let v := migBegin c u
      migAfter c (iterRun c (migCursor (channel v (migCh c)).migPos (channel v (migCh c)).gen) (migStep c c.rowErrs) v)) := by
  subst hu
  unfold execMemMig
  rw [runCmd_runs _ runs]
  simp only [hnew, hspare, Bool.not_true, Bool.and_false, Bool.false_eq_true, if_false]

/-- Settles O32: each command in its frame (`runCmd_runs`), then the branch that its hypotheses name. -/
theorem counterAndMemoryCommandsComplete : Obligations.CounterAndMemoryCommandsComplete := by
  refine ⟨?freeze, ?cntRead, ?dump, ?period, ?alloc, ?allocFull, ?free, ?memRead, ?fetch, ?write, ?writeDram, ?migrate, ?mapClear,
    ?saveRead, ?periodEnds, ?freeTwice, ?freeForeign⟩
  case freeze =>
    intro c s u runs hu
    subst hu
    exact congrArg _ (runCmd_runs _ runs)
  case cntRead =>
    intro c s u runs hu
    subst hu
    exact congrArg _ (runCmd_runs _ runs)
  case dump => exact fun c s u => execCntDump_begins
  case period =>
    exact fun c s u runs hu hms => (execCntPer_runs runs hu).trans (congrArg _ (iff_of _ _ (decide_eq_true hms)))
  case alloc =>
    exact fun c t k s u ht hk runs hu hroom =>
      (execMemAlloc_runs ht hk runs hu).trans (congrArg _ (if_neg (Bool.eq_false_iff.mp hroom)))
  case allocFull =>
    exact fun c t k s u ht hk runs hu hfull => (execMemAlloc_runs ht hk runs hu).trans (congrArg _ (if_pos hfull))
  case free => exact fun c h s u hh runs hu halloc htag => execMemFree_own hh runs hu (claimFails_own halloc htag)
  case memRead => exact fun c s u => execMemRd_runs
  case fetch => exact fun c s hbuf => if_neg (Bool.eq_false_iff.mp hbuf)
  case write =>
    intro c s u hroom hbuf runs hu
    refine (execMemWr_runs hroom runs hu).trans ?_
    rw [memStore_buffer hbuf]
  case writeDram => exact fun c s u hroom _ runs hu => execMemWr_runs hroom runs hu
  case migrate => exact fun c s u => execMemMig_begins
  case mapClear =>
    intro c s u runs hu
    subst hu
    exact congrArg _ (runCmd_runs _ runs)
  case saveRead =>
    intro c o s u ho runs hu
    subst hu ho
    exact congrArg _ (runCmd_runs _ runs)
  case periodEnds =>
    intro c s u runs hu hms
    refine (execCntPer_runs runs hu).trans (congrArg _ ((iff_off _ _ (decide_eq_false (not_not_intro hms))).trans ?_))
    rw [hms]
  case freeTwice => exact fun c h s u hh runs hu halloc => execMemFree_refused hh runs hu (claimFails_free halloc)
  case freeForeign =>
    exact fun c h s u hh runs hu halloc htag => execMemFree_refused hh runs hu (claimFails_foreign halloc htag)

end Sys2Proof.Machine
end

section
namespace Sys2Proof.Machine

/-! ## Start-up steps 2 to 5 (R76 to R85) -/

/-- At the end of step 2 the ROM starts the firmware slot that it picks, unless a CRITICAL clock was lost (R74, R80). -/
theorem execFirmwareRunning_starts {b : Bool} {s : State} (hstage : stage s = 2) (hslot : fwPick s.nvm = some b) :
    execFirmwareRunning s = .next (if critClockBad s then clockAtStep3 b s else fwStarts b s) := by
  unfold execFirmwareRunning
  rw [iff_of _ _ (decide_eq_true hstage), hslot]

/-- Without a valid firmware slot the ROM enters recovery (R80). -/
theorem execFirmwareRunning_recovers {s : State} (hstage : stage s = 2) (hslot : fwPick s.nvm = none) :
    execFirmwareRunning s = .next (setStage 0x80 s) := by
  unfold execFirmwareRunning
  rw [iff_of _ _ (decide_eq_true hstage), hslot]

/-- A patch copy that passes is loaded and locked (R82). -/
theorem execPatchesDone_loads {b : Bool} {p : PatchBlock} {s : State} (hstage : stage s = 3)
    (hpick : patchPick (setStage 4 s) = some (b, p)) :
    execPatchesDone s = .next (stepEnds 50000000 s (loadPatch b p (setStage 4 s))) := by
  unfold execPatchesDone
  rw [iff_of _ _ (decide_eq_true hstage)]
  simp only [hpick]

/-- Without one the patch RAM is empty and PATCH_REJECTED is reported. -/
theorem execPatchesDone_rejects {s : State} (hstage : stage s = 3) (hpick : patchPick (setStage 4 s) = none) :
    execPatchesDone s = .next (stepEnds 50000000 s (report (unitId 0 0) 0x0103 0 0 { setStage 4 s with patch := {} })) := by
  unfold execPatchesDone
  rw [iff_of _ _ (decide_eq_true hstage)]
  simp only [hpick]

/-- A change that leaves the state as it is, for every member of a list, leaves it after the list. -/
theorem forEach_fixed {β : Type} {f : β → State → State} {s : State} (h : ∀ a, f a s = s) : ∀ l : List β, forEach l f s = s
  | [] => rfl
  | a :: l => by rw [forEach_cons, h a, forEach_fixed h l]

/-- Only a clock that was lost is read again (R73). -/
theorem readClock_good {code : Nat} {s : State} (h : s.flt.clkBad.contains code = false) : readClock code s = s := iff_off _ _ h

/-- With every clock good no channel is without one. -/
theorem unclocked_of_good {s : State} (h : s.flt.clkBad = []) : unclocked s = [] := by
  unfold unclocked
  rw [h]
  exact List.filter_eq_nil_iff.mpr fun _ _ => Bool.false_ne_true

/-- Step 5 with every clock good: only the channels that the event names fail to train (R84). -/
theorem execDramReady_clocked {failed : List Nat} {march : List (Nat × Nat)} {s : State} (hstage : stage s = 4)
    (hclk : s.flt.clkBad = []) :
    execDramReady failed march s = .next (stepEnds (bootShare s 2500 200) s (
      let t := trainAll failed s
      chooseSlot (reseed (forEach (if coldStart t then march.filter (fun x => x.1 < 64 && x.2 < 9) else [])
        (fun x => marchFails x.1 x.2) t)))) := by
  have clocks : forEach (List.range 64) (fun c => readClock (0x40 + c)) s = s :=
    forEach_fixed (fun c => readClock_good (by rw [hclk]; rfl)) _
  unfold execDramReady
  rw [iff_of _ _ (decide_eq_true hstage), clocks]
  simp only [unclocked_of_good hclk, List.filter_nil, List.append_nil]

/-- Settles O4: each step ends in its STAGE; the branch is the pick that its hypotheses name. -/
theorem earlyStartUpCompletes : Obligations.EarlyStartUpCompletes := by
  refine ⟨?options, ?recovery, ?clockLost, ?firmware, ?patch, ?noPatch, ?dram, ?retry⟩
  case options => exact fun s hstage hfree => congrArg _ (iff_of _ _ (by rw [decide_eq_true hstage, hfree]; rfl))
  case recovery => exact fun s => execFirmwareRunning_recovers
  case clockLost =>
    exact fun b s hstage hslot hbad => (execFirmwareRunning_starts hstage hslot).trans (congrArg _ (if_pos hbad))
  case firmware =>
    exact fun b s hstage hslot hgood =>
      (execFirmwareRunning_starts hstage hslot).trans (congrArg _ (if_neg (Bool.eq_false_iff.mp hgood)))
  case patch => exact fun b p s => execPatchesDone_loads
  case noPatch => exact fun s => execPatchesDone_rejects
  case dram => exact fun failed march s => execDramReady_clocked
  case retry => exact fun s hup hstage => congrArg _ ((iff_of _ _ hup).trans (iff_of _ _ (decide_eq_true hstage)))

end Sys2Proof.Machine
end

section
namespace Sys2Proof.Machine

/-! ## Start-up steps 6 to 9 and tile rejoin (R71, R75, R86 to R88) -/

/-- The image of the chosen slot goes into the tiles; a cold start tests every slab (R86). -/
theorem execImageInTiles_loads {failed : List (Nat × Nat)} {i : Image} {s : State} (hstage : stage s = 5)
    (himg : imgIn s (imgSlot s) = some i) :
    execImageInTiles failed s =
      .next (stepEnds (bootShare s 3000 900) s (iff_ (coldStart s) (coldTest failed) (loadImage i (setStage 6 s)))) := by
  unfold execImageInTiles
  rw [iff_of _ _ (decide_eq_true hstage), himg]

/-- The units that a self-timed island is fenced as (R75): a pipeline, an engine or, for a plait endpoint, its tile. -/
abbrev HasIsland (unit : Nat) : Prop :=
  unit / 4096 = 2 ∧ unit % 4096 < 64 ∨ unit / 4096 = 4 ∧ unit % 4096 < 16 ∨ unit / 4096 = 6 ∧ unit % 4096 < 8

/-- An island of such a unit that does not release during or after the release of the tiles. -/
theorem execIslandReleaseTimeout_fails {unit : Nat} {s : State} (hlow : 6 ≤ stage s) (hhigh : stage s ≤ 9)
    (hunit : HasIsland unit) : execIslandReleaseTimeout unit s = .next (islandFails unit s) := by
  refine congrArg _ (iff_of _ _ ?_)
  simpa only [Bool.and_eq_true, Bool.or_eq_true, decide_eq_true_eq, or_assoc] using And.intro ⟨hlow, hhigh⟩ hunit

/-- Settles O5: each row is its operation once its condition holds. -/
theorem lateStartUpCompletes : Obligations.LateStartUpCompletes := by
  refine ⟨?image, ?tiles, ?go, ?calendar, ?island, ?rejoin⟩
  case image => exact fun failed i s => execImageInTiles_loads
  case tiles => exact fun failed s hstage => congrArg _ (iff_of _ _ (decide_eq_true hstage))
  case go => exact fun mask s hup => congrArg _ (iff_of _ _ hup)
  case calendar => exact fun s hstage hsafe => congrArg _ (iff_of _ _ (by rw [decide_eq_true hstage, hsafe]; rfl))
  case island => exact fun unit s => execIslandReleaseTimeout_fails
  case rejoin =>
    exact fun t s ht hlow hhigh hready hfence => congrArg _ (iff_of _ _ (by
      rw [decide_eq_true ht, decide_eq_true hlow, decide_eq_true hhigh, hready, hfence]; rfl))

end Sys2Proof.Machine
end

section
namespace Sys2Proof.Machine

/-! ## Clocks (R73, R74, R111) -/

/-- The loss of a monitored clock that was good: of a released domain it has its consequences, of another it is only noted. -/
theorem execClockLoss_good {code : Nat} {s : State} (hp : s.pwr.powered = true) (hcode : code ≤ 0x82)
    (hgood : code ∉ s.flt.clkBad) :
    execClockLoss code s = .next (if domainUp s code then clockFails code s else clockBad code s) := by
  have good : s.flt.clkBad.contains code = false := Bool.eq_false_iff.mpr (hgood ∘ List.contains_iff_mem.mp)
  exact congrArg _ (iff_of _ _ (by rw [hp, decide_eq_true hcode, good]; rfl))

/-- The loss of another clock than the time base's leaves the time base running. -/
theorem timeLost_other {code : Nat} (h : code ≠ 0x81) (s : State) : timeLost code s = s := iff_off _ _ (decide_eq_false h)

/-- The loss of the time base's clock clears module time and the free-running count (R111). -/
theorem timeLost_tim (s : State) : (timeLost 0x81 s).tim = {} := by
  unfold timeLost
  rw [iff_of _ _ (decide_eq_true rfl), pset_tim]

/-- Settles O6: the loss of a good clock by whether its domain is released; the other rows once their condition holds. -/
theorem clockEventsComplete : Obligations.ClockEventsComplete := by
  refine ⟨?released, ?unreleased, ?timeBase, ?requalified, ?osc, ?freq⟩
  case released =>
    intro code s hp hup hgood hother hcode
    refine (execClockLoss_good hp hcode hgood).trans (congrArg _ ((if_pos hup).trans ?_))
    exact timeLost_other hother _
  case unreleased =>
    exact fun code s hp hdown hgood hcode =>
      (execClockLoss_good hp hcode hgood).trans (congrArg _ (if_neg (Bool.eq_false_iff.mp hdown)))
  case timeBase =>
    exact fun s hp hup hgood =>
      ⟨clockFails 0x81 s, (execClockLoss_good hp (by decide) hgood).trans (congrArg _ (if_pos hup)), timeLost_tim _⟩
  case requalified => exact fun s hlost => congrArg _ (iff_of _ _ (List.contains_iff_mem.mpr hlost))
  case osc => exact fun s hp => congrArg _ (iff_of _ _ hp)
  case freq => exact fun ok s hp => congrArg _ (iff_of _ _ hp)

end Sys2Proof.Machine
end

section
namespace Sys2Proof.Machine

/-! ## IMG and SYS commands (R79, R83, R325, R328, R335): what each does once it runs -/

/-- A command that runs answers what its execution makes of the state after its engine has noted it. -/
theorem next_runCmd {c : Cmd} {op : Nat} {w : Who} {checks : List (Bool × Nat)} {s u : State} (f : State → State)
    (runs : Runs c op w checks s) (hu : u = noteCmd c s) : (.next (runCmd c op w checks f s) : Res) = .next (f u) :=
  hu ▸ congrArg _ (runCmd_runs f runs)

/-- The checks of IMG.STAGE. -/
abbrev stageChecks (c : Cmd) (s : State) : List (Bool × Nat) :=
  [((opw c 6).toNat < minImage || slotSize < (opw c 6).toNat, stBAD_OPERAND), (commitPending s, stLOCK_BUSY)]

/-- IMG.STAGE whose bytes all come: the idle slot is erased, takes them and is checked. -/
theorem execImgStage_whole {c : Cmd} {img : Option Image} {bs : List Byte} {s u : State} (hcut : c.cut = none)
    (hdata : c.data = some bs) (runs : Runs c 0x381 .manager (stageChecks c s) s) (hu : u = noteCmd c s) :
    execImgStage c img s = .next (stageImage c (img.getD {}) (eraseIdle u)) := by
  refine (next_runCmd _ runs hu).trans ?_
  simp only [hcut, hdata, Option.isSome_none, Bool.false_eq_true, if_false]

/-- The checks of IMG.COMMIT. -/
abbrev commitChecks (c : Cmd) (s : State) : List (Bool × Nat) :=
  [(!timeOk (opTime c 4) || (opTime c 4).toNs % 16000 ≠ 0, stBAD_OPERAND), (commitPending s || gatePending s, stLOCK_BUSY),
    (timePassed s (opTime c 4), stTIME_PASSED)]

/-- IMG.COMMIT in time, of a staged image that bears the running boot digest. -/
theorem execImgCommit_schedules {c : Cmd} {i : Image} {s u : State} (runs : Runs c 0x382 .manager (commitChecks c s) s)
    (hu : u = noteCmd c s) (hstaged : stagedImage u = some i) (hboot : i.bootDigest = (img u).bootDigest) :
    execImgCommit c false s = .next (schedule c i u) := by
  refine (next_runCmd _ runs hu).trans ?_
  simp only [hstaged]
  rw [if_neg (not_not_intro hboot), if_neg Bool.false_ne_true]

theorem execImgCommit_unstaged {c : Cmd} {late : Bool} {s u : State} (runs : Runs c 0x382 .manager (commitChecks c s) s)
    (hu : u = noteCmd c s) (hstaged : stagedImage u = none) : execImgCommit c late s = .next (fin c stNOT_FOUND [] u) := by
  refine (next_runCmd _ runs hu).trans ?_
  simp only [hstaged]

/-- IMG.CANCEL before the cycle of the pending commit. -/
theorem execImgCancel_drops {c : Cmd} {s u : State} (runs : Runs c 0x383 .manager [] s) (hu : u = noteCmd c s)
    (hpend : commitPending u = true) (hearly : inThisCycle u = false) : execImgCancel c s = .next (fin c stOK [] (dropCommit u)) := by
  refine (next_runCmd _ runs hu).trans ?_
  simp only [hpend, hearly, Bool.not_true, Bool.false_eq_true, if_false]

/-- IMG.INFO whose write to host memory succeeds. -/
theorem execImgInfo_writes {c : Cmd} {r : Nat} {s u : State} (runs : Runs c 0x385 .manager [] s) (hu : u = noteCmd c s)
    (hwr : c.wrOk = true) (hr : r = slotReason u (imgIn u (opb c 4 0))) :
    execImgInfo c s = .next (fin c stOK [(2, pack [(0, 0, (decide (r = 0)).toNat), (15, 8, r)])]
      (emitHost (.hostWrite c.req (opAddr c 6) (slotHeader (imgIn u (opb c 4 0)))) u)) := by
  subst hr
  exact (next_runCmd _ runs hu).trans (congrArg _ (if_pos hwr))

/-- IMG.KEY whose bytes come: a certificate that verifies replaces the key (R324). -/
theorem execImgKey_read {c : Cmd} {bs : List Byte} {cert : Option (Option Nat)} {s u : State} (runs : Runs c 0x386 .manager [] s)
    (hu : u = noteCmd c s) (hdata : c.data = some bs) :
    execImgKey c cert s = .next (if cert.any (certOk u) then fin c stOK [] (checkKey { u with nvm := { u.nvm with imgKey := cert } })
      else fin c stAUTH_FAIL [] u) := by
  refine (next_runCmd _ runs hu).trans ?_
  simp only [hdata]

/-! ### SYS.RESET (R66, R69, R335) -/

/-- The checks of SYS.RESET. -/
abbrev sysResetChecks (c : Cmd) (s : State) : List (Bool × Nat) :=
  [(stage s = 0x80 && 2 ≤ opf c 4 2 0, stFENCED_UNIT), (!targetOk s (opf c 4 2 0) (opf c 5 9 0), stBAD_OPERAND)]

theorem execSysReset_runs {c : Cmd} {s u : State} (runs : Runs c 0x443 .manager (sysResetChecks c s) s) (hu : u = noteCmd c s) :
    execSysReset c s = .next (sysResetRun c u) := next_runCmd _ runs hu

/-- Cold and warm scope: the command completes, then the module resets. -/
theorem sysResetRun_module {c : Cmd} (hscope : opf c 4 2 0 ≤ 1) (s : State) :
    sysResetRun c s = leadReset 8 (opf c 4 2 0 = 0) (fin c stOK [] s) := if_pos hscope

/-- Slice scope: the command waits for the end of the slice's reset. -/
theorem sysResetRun_slice {c : Cmd} (hscope : opf c 4 2 0 = 3) (s : State) : sysResetRun c s = resetAndWait c (opf c 5 9 0) s :=
  (if_neg (by omega)).trans (if_pos hscope)

/-- Engine scope, of an engine that runs a command: the reset is taken at the next boundary of its microcode (R360). -/
theorem sysResetRun_busyEngine {c : Cmd} {s : State} (hscope : opf c 4 2 0 = 5)
    (hbusy : (unitReleased s (opf c 5 9 0 / 2) && (engine s (opf c 5 9 0)).cmd.isSome) = true) :
    sysResetRun c s = commandWaits c (setEngine (opf c 5 9 0) (fun g => { g with resetReq := true }) s) := by
  have asked : askEngineReset (opf c 5 9 0) s = setEngine (opf c 5 9 0) (fun g => { g with resetReq := true }) s :=
    if_pos (Bool.and_eq_true_iff.mp hbusy).2
  unfold sysResetRun
  rw [if_neg (by omega), if_neg (by omega), if_pos (by rw [Bool.and_assoc, hbusy, decide_eq_true hscope]; rfl), asked]

/-- Any other reset of a smaller scope is made at once. -/
theorem sysResetRun_atOnce {c : Cmd} {s : State} (hscope : 2 ≤ opf c 4 2 0) (hslice : opf c 4 2 0 ≠ 3)
    (hidle : opf c 4 2 0 = 5 → (unitReleased s (opf c 5 9 0 / 2) && (engine s (opf c 5 9 0)).cmd.isSome) = false) :
    sysResetRun c s = finUnless c (ringSt s c.req c.ring).cons (scopeReset (opf c 4 2 0) (opf c 5 9 0) s) := by
  have atOnce : ¬((decide (opf c 4 2 0 = 5) && unitReleased s (opf c 5 9 0 / 2) && (engine s (opf c 5 9 0)).cmd.isSome) = true) := by
    rw [Bool.and_assoc, Bool.and_eq_true_iff, decide_eq_true_eq]
    exact fun ⟨hengine, hbusy⟩ => Bool.false_ne_true ((hidle hengine).symm.trans hbusy)
  unfold sysResetRun
  rw [if_neg (by omega), if_neg hslice, if_neg atOnce]

/-! ### SYS.OPT_WR and SYS.FW_STAGE (R79, R83) -/

/-- SYS.OPT_WR of valid options. -/
theorem execSysOptWr_takes {c : Cmd} {bs : List Byte} {s u : State} (runs : Runs c 0x444 .manager [] s) (hu : u = noteCmd c s)
    (hdata : c.data = some bs) (hok : optOk bs = true) : execSysOptWr c s = .next (takeOptions c c.cut bs u) := by
  refine (next_runCmd _ runs hu).trans ?_
  simp only [hdata, hok, if_true]

/-- The checks of SYS.FW_STAGE, of either kind. -/
abbrev fwChecks (c : Cmd) (s : State) : List (Bool × Nat) :=
  [(stage s = 0x80 && opb c 4 0, stFENCED_UNIT), ((if opb c 4 0 then 65536 else 8388608) < (opw c 8).toNat, stBAD_OPERAND)]

/-- The checks of firmware: its area's length only, as the ROM serves firmware too. -/
theorem firstFail_firmware {c : Cmd} (hkind : opb c 4 0 = false) (s : State) :
    firstFail (fwChecks c s) = firstFail [(8388608 < (opw c 8).toNat, stBAD_OPERAND)] := by
  rw [fwChecks, hkind, Bool.and_false]
  rfl

/-- The checks of a patch block. -/
theorem firstFail_patch {c : Cmd} (hkind : opb c 4 0 = true) (s : State) :
    firstFail (fwChecks c s) = firstFail [(stage s = 0x80, stFENCED_UNIT), (65536 < (opw c 8).toNat, stBAD_OPERAND)] := by
  rw [fwChecks, hkind, Bool.and_true]
  rfl

/-- SYS.FW_STAGE that is not cut off. -/
theorem execSysFwStage_whole {c : Cmd} {fw : FwImage} {p : PatchBlock} {s u : State} (hcut : c.cut = none)
    (runs : Runs c 0x446 .manager (fwChecks c s) s) (hu : u = noteCmd c s) :
    execSysFwStage c fw p s = .next (if opb c 4 0 then stagePatch c p u else stageFw c fw u) := by
  refine (next_runCmd _ runs hu).trans (congrArg _ (if_neg ?_))
  rw [hcut]
  exact Bool.false_ne_true

/-- Settles O35: each command in its frame (`next_runCmd`), then the branch that its hypotheses name. -/
theorem imageAndSystemCommandsComplete : Obligations.ImageAndSystemCommandsComplete := by
  refine ⟨?stage, ?commit, ?cancel, ?discard, ?info, ?key, ?nop, ?fence, ?fenceWaits, ?resetModule, ?resetTileOrPort, ?optWrite,
    ?optRead, ?firmware, ?patch, ?resetSlice, ?resetEngine, ?resetBusyEngine, ?commitUnstaged, ?keyRefused⟩
  case stage => exact fun c img bs s u runs hu hcut hdata => execImgStage_whole hcut hdata runs hu
  case commit => exact fun c i s u => execImgCommit_schedules
  case cancel => exact fun c s u => execImgCancel_drops
  case discard => exact fun c s u => next_runCmd _
  case info => exact fun c r s u => execImgInfo_writes
  case key => exact fun c bs cert s u runs hu hdata hok => (execImgKey_read runs hu hdata).trans (congrArg _ (if_pos hok))
  case nop => exact fun c s u => next_runCmd _
  case fence => exact fun c s u runs hu hclear => (next_runCmd _ runs hu).trans (congrArg _ (if_pos hclear))
  case fenceWaits =>
    exact fun c s u runs hu hbusy => (next_runCmd _ runs hu).trans (congrArg _ (if_neg (Bool.eq_false_iff.mp hbusy)))
  case resetModule =>
    exact fun c s u runs hu hscope => (execSysReset_runs runs hu).trans (congrArg _ (sysResetRun_module hscope u))
  case resetTileOrPort =>
    intro c s u runs hu hscope
    have notEngine : opf c 4 2 0 ≠ 5 := by omega
    exact (execSysReset_runs runs hu).trans (congrArg _ (sysResetRun_atOnce (by omega) (by omega) (absurd · notEngine)))
  case optWrite => exact fun c bs s u => execSysOptWr_takes
  case optRead => exact fun c s u runs hu hwr => (next_runCmd _ runs hu).trans (congrArg _ (if_pos hwr))
  case firmware =>
    intro c fw p s u hcut hkind ⟨served, allowed, passed⟩ hu
    have runs : Runs c 0x446 .manager (fwChecks c s) s := ⟨served, allowed, (firstFail_firmware hkind s).trans passed⟩
    exact (execSysFwStage_whole hcut runs hu).trans (congrArg _ (if_neg (Bool.eq_false_iff.mp hkind)))
  case patch =>
    intro c fw p s u hcut hkind ⟨served, allowed, passed⟩ hu
    have runs : Runs c 0x446 .manager (fwChecks c s) s := ⟨served, allowed, (firstFail_patch hkind s).trans passed⟩
    exact (execSysFwStage_whole hcut runs hu).trans (congrArg _ (if_pos hkind))
  case resetSlice =>
    exact fun c s u runs hu hscope => (execSysReset_runs runs hu).trans (congrArg _ (sysResetRun_slice hscope u))
  case resetEngine =>
    intro c s u runs hu hscope hidle
    refine (execSysReset_runs runs hu).trans (congrArg _ ?_)
    rw [sysResetRun_atOnce (by omega) (by omega) fun _ => hidle, hscope]
  case resetBusyEngine =>
    exact fun c s u runs hu hscope hbusy => (execSysReset_runs runs hu).trans (congrArg _ (sysResetRun_busyEngine hscope hbusy))
  case commitUnstaged => exact fun c late s u => execImgCommit_unstaged
  case keyRefused =>
    exact fun c bs cert s u runs hu hdata hbad =>
      (execImgKey_read runs hu hdata).trans (congrArg _ (if_neg (Bool.eq_false_iff.mp hbad)))

end Sys2Proof.Machine
end

section
namespace Sys2Proof.Machine

/-! ## The idle step: one nanosecond of the oscillator (R111, R113) -/

theorem addUnits_now (u : Int) (s : State) : (addUnits u s).tim.now =
    Time80.ofNs (min maxNs ((nowNs s : Int) + (s.tim.acc + u).ediv nsUnits).toNat) := rfl

theorem addUnits_acc (u : Int) (s : State) : (addUnits u s).tim.acc = (s.tim.acc + u).emod nsUnits := rfl

theorem addUnits_frc (u : Int) (s : State) : (addUnits u s).tim.frc = s.tim.frc := rfl

theorem addUnits_slewLeft (u : Int) (s : State) : (addUnits u s).tim.slewLeft = s.tim.slewLeft := rfl

/-- A whole nanosecond moves module time by one, up to its last instant, and leaves the fraction. -/
theorem addUnits_nanosecond {s : State} (hlow : 0 ≤ s.tim.acc) (hhigh : s.tim.acc < nsUnits) :
    (addUnits nsUnits s).tim.now = Time80.ofNs (min maxNs (nowNs s + 1)) ∧ (addUnits nsUnits s).tim.acc = s.tim.acc := by
  have whole : (s.tim.acc + nsUnits).ediv nsUnits = 1 := by
    have carry := Int.add_ediv_of_dvd_right (a := s.tim.acc) (Int.dvd_refl nsUnits)
    rwa [Int.ediv_eq_zero_of_lt hlow hhigh, Int.ediv_self (by decide), Int.zero_add] at carry
  have rest : (s.tim.acc + nsUnits).emod nsUnits = s.tim.acc :=
    (Int.add_emod_right s.tim.acc nsUnits).trans (Int.emod_eq_of_lt hlow hhigh)
  rw [addUnits_now, addUnits_acc, whole, rest]
  exact ⟨rfl, rfl⟩

theorem iff_pset_tim (c : Bool) (r : Reg) (b : Nat) (v : Bool) (s : State) : (iff_ c (pset r b v) s).tim = s.tim := by
  cases c
  · exact congrArg State.tim (iff_false _ s)
  · exact pset_tim s r b v

/-- Of the time base, FREQ_OUT's edge only sets its age. -/
theorem freqStep_eq (before : Nat) (s : State) : ∃ age, freqStep before s = { s with tim := { s.tim with freqAge := age } } := ⟨_, rfl⟩

/-- The fine units of a nanosecond: the oscillator's rate with its correction, and the part that a slew takes (R113). -/
def tickUnits (s : State) : Int := (1099511627776 + freqAdj s) * 10000 + slewPart s.tim.slewLeft * 1099511627776

/-- Without slew and correction a nanosecond has its plain units. -/
theorem tickUnits_plain {s : State} (hslew : s.tim.slewLeft = 0) (hadj : freqAdj s = 0) : tickUnits s = nsUnits := by
  rw [tickUnits, hslew, hadj]
  decide

/-- The time base after a tick. -/
theorem tick_tim (s : State) : ∃ age, (tick s).tim = { (addUnits (tickUnits s) s).tim with
    frc := s.tim.frc + 1, slewLeft := s.tim.slewLeft - slewPart s.tim.slewLeft, freqAge := age } := by
  obtain ⟨age, aged⟩ := freqStep_eq (nowNs s) (addUnits (tickUnits s) s)
  rw [tickUnits] at aged ⊢
  refine ⟨age, ?_⟩
  simp only [tick, iff_pset_tim, aged, addUnits_frc, addUnits_slewLeft]

theorem tick_frc (s : State) : (tick s).tim.frc = s.tim.frc + 1 := by
  obtain ⟨age, after⟩ := tick_tim s
  rw [after]

/-- A tick leaves the waiting commands. -/
theorem tick_pending (s : State) : (tick s).pending = s.pending := (calm_tick s).pending

/-- Without slew and correction a tick is one nanosecond of module time. -/
theorem tick_nanosecond {s : State} (hslew : s.tim.slewLeft = 0) (hadj : freqAdj s = 0) (hlow : 0 ≤ s.tim.acc)
    (hhigh : s.tim.acc < nsUnits) :
    (tick s).tim.now = Time80.ofNs (min maxNs (nowNs s + 1)) ∧ (tick s).tim.acc = s.tim.acc ∧ (tick s).tim.slewLeft = 0 := by
  obtain ⟨age, after⟩ := tick_tim s
  obtain ⟨now, acc⟩ := addUnits_nanosecond hlow hhigh
  rw [after, tickUnits_plain hslew hadj, hslew]
  exact ⟨now, acc, rfl⟩

theorem step_idle_stopped {s : State} (hempty : s.pending = []) (hstop : timeRuns s = false) : step s = .next s :=
  (step_nil hempty).trans (congrArg _ (if_neg (Bool.eq_false_iff.mp hstop)))

theorem step_idle_runs {s : State} (hempty : s.pending = []) (hrun : timeRuns s = true) : step s = .next (tick s) :=
  (step_nil hempty).trans (congrArg _ (if_pos hrun))

/-- Settles O38: an empty queue answers the idle state, and a running time base makes that a tick. -/
theorem emptyQueueRunsOscillator : Obligations.EmptyQueueRunsOscillator := by
  refine ⟨?stopped, ?runs, ?nanosecond⟩
  case stopped => exact fun s => step_idle_stopped
  case runs =>
    exact fun s hempty hrun =>
      ⟨tick s, step_idle_runs hempty hrun, tick_frc s, (tick_pending s).trans hempty⟩
  case nanosecond =>
    exact fun s hempty hrun hslew hadj hlow hhigh =>
      ⟨tick s, step_idle_runs hempty hrun, tick_nanosecond hslew hadj hlow hhigh⟩

end Sys2Proof.Machine
end

section
namespace Sys2Proof.Machine

/-! ## Link events of a port (R93 to R95, R257, R258) -/

/-- An aligned or up Ethernet port is declared down: it loses alignment, and where it was up it goes down with its cause. -/
theorem execPortDownDetect_down {p : Nat} (los : Bool) {s : State} (hp : p < 512)
    (hlink : ((port s p).up || (port s p).aligned) = true) :
    execPortDownDetect p los s = .next (adjLost p (iff_ (port s p).up
      (fun s => setPort p (fun q => { q with remoteFault := true }) (portGoDown p false (portCnt p (if los then 37 else 38) 1 s)))
      (setPort p (fun q => { q with aligned := false, alignHeld := false, signal := !los }) s))) :=
  congrArg _ (iff_of _ _ (by rw [decide_eq_true hp, hlink]; rfl))

/-- Settles O10: each row is its operation once its condition holds; a port declared down by whether it was up. -/
theorem portEventsComplete : Obligations.PortEventsComplete := by
  refine ⟨?held, ?acquired, ?wentDown, ?lostAlignment, ?holdEnd, ?fecWindow⟩
  case held => exact fun p s hallowed haligned => congrArg _ (iff_of _ _ (by rw [hallowed, haligned]; rfl))
  case acquired =>
    exact fun p s hp hexists hrun => congrArg _ (iff_of _ _ (by rw [decide_eq_true hp, hexists, hrun]; rfl))
  case wentDown =>
    intro p los s hp hup
    have link : ((port s p).up || (port s p).aligned) = true := by rw [hup, Bool.true_or]
    exact (execPortDownDetect_down los hp link).trans (congrArg (Host.Outcome.next ∘ adjLost p) (iff_of _ _ hup))
  case lostAlignment =>
    intro p los s hp hdown haligned
    have link : ((port s p).up || (port s p).aligned) = true := by rw [haligned, Bool.or_true]
    exact (execPortDownDetect_down los hp link).trans (congrArg (Host.Outcome.next ∘ adjLost p) (iff_off _ _ hdown))
  case holdEnd => exact fun p s hhold hdown => congrArg _ (iff_of _ _ (by rw [hhold, hdown]; rfl))
  case fecWindow =>
    exact fun p cw corr uncorr symbols s hp hexists haligned =>
      congrArg _ (iff_of _ _ (by rw [decide_eq_true hp, hexists, haligned]; rfl))

end Sys2Proof.Machine
end

section
namespace Sys2Proof.Machine

/-! ## Cages and their I2C buses (R104 to R110) -/

/-- A poll whose presence differs from the cage's for the second sample in a row inserts or removes the optic. -/
theorem execCagePoll_changes {c : Nat} {x : CageSample} {s : State} (hpolled : cagePolled s c = true)
    (hdiff : x.present ≠ (cage s c).present) (hlast : (cage s c).lastSample = x.present) :
    execCagePoll c x s = .next (
      let t := setCage c (fun y => { y with lastSample := x.present }) s
      if x.present then insertCage c t else removeCage c t) :=
  have change : (decide (x.present ≠ (cage s c).present) && decide ((cage s c).lastSample = x.present)) = true := by
    rw [decide_eq_true hdiff, decide_eq_true hlast]
    rfl
  congrArg Host.Outcome.next ((iff_of _ _ hpolled).trans (if_pos change))

/-- A poll that finds the cage's presence looks at its optic. -/
theorem execCagePoll_unchanged {c : Nat} {x : CageSample} {s : State} (hpolled : cagePolled s c = true)
    (hsame : x.present = (cage s c).present) :
    execCagePoll c x s = .next (
      let t := setCage c (fun y => { y with lastSample := x.present }) s
      pollOptic c x (iff_ (cage t c).present (selectCage c) t)) := by
  have noChange : ¬((decide (x.present ≠ (cage s c).present) && decide ((cage s c).lastSample = x.present)) = true) := by
    rw [decide_eq_false (not_not_intro hsame), Bool.false_and]
    exact Bool.false_ne_true
  exact congrArg Host.Outcome.next ((iff_of _ _ hpolled).trans (if_neg noChange))

/-- A polled bus gets its clock pulses; with SDA still stuck it is stopped and reported, else it is free (R110). -/
theorem execI2cSdaStuck_polled {b : Nat} (stuck : Bool) {s : State} (hb : b < 8) (hrun : calRuns s = true)
    (hpolled : (tget s.i2c b).stopped = false) :
    execI2cSdaStuck b stuck s = .next (
      if stuck then report (unitId 10 b) 0x0105 0 0
        { emit (.i2cPulses b) s with i2c := tput s.i2c b { sdaLow := true, stopped := true } }
      else { emit (.i2cPulses b) s with i2c := tupd s.i2c b fun x => { x with sdaLow := false } }) :=
  have served : (decide (b < 8) && calRuns s) = true := by rw [decide_eq_true hb, hrun]; rfl
  congrArg Host.Outcome.next ((iff_of _ _ served).trans (if_neg (Bool.eq_false_iff.mp hpolled)))

/-- Settles O11: a poll by whether the presence changed, a stuck bus by whether it is free after the pulses. -/
theorem cageEventsComplete : Obligations.CageEventsComplete := by
  refine ⟨?changes, ?unchanged, ?timeout, ?stuck, ?freed⟩
  case changes => exact fun c x s => execCagePoll_changes
  case unchanged => exact fun c x s => execCagePoll_unchanged
  case timeout => exact fun c s hstate => congrArg _ (iff_of _ _ (decide_eq_true hstate))
  case stuck => exact fun b s => execI2cSdaStuck_polled true
  case freed => exact fun b s => execI2cSdaStuck_polled false

end Sys2Proof.Machine
end

section
namespace Sys2Proof.Machine

/-! ## The security engine's lock, urgent messages and alarm (R394 to R398) -/

/-- The claim of an agent of one of the two fixed users, once the engine is released. -/
theorem execSecLockClaim_user {id : Nat} {s : State} (hstage : 3 ≤ stage s) (hid : id = 1 ∨ id = 2) :
    execSecLockClaim id s = .next (secClaim id s) := by
  have user : (decide (id = 1) || decide (id = 2)) = true := by
    simpa only [Bool.or_eq_true, decide_eq_true_eq] using hid
  exact congrArg _ (iff_of _ _ (by rw [decide_eq_true hstage, user]; rfl))

/-- A new claim takes the free lock and starts its message, or joins the queue. -/
theorem secClaim_new {id : Nat} {s : State} (hother : s.sec.holder ≠ id) (hnew : id ∉ s.sec.queue) :
    secClaim id s = if s.sec.holder = 0 && s.sec.running.isNone
      then setSec (fun x => { x with holder := id, running := some { holder := id } }) s
      else setSec (fun x => { x with queue := x.queue ++ [id] }) s := by
  refine if_neg ?_
  rw [Bool.or_eq_true, decide_eq_true_eq, List.contains_iff_mem]
  exact not_or_intro hother hnew

/-- The running message of an engine that no sag has halted ends. -/
theorem messageEnd_running {s : State} (hlive : s.sec.halted = false) (hbusy : s.sec.running.isSome = true) :
    messageEnd s = setSec secNext s := by
  refine if_neg ?_
  rw [hlive, Option.isNone_eq_false_iff.mpr hbusy]
  exact Bool.false_ne_true

/-- An urgent request of either level, once the engine is released. -/
theorem execUrgentRequest_level {level : Nat} {s : State} (hstage : 3 ≤ stage s) (hlevel : level = 1 ∨ level = 2) :
    execUrgentRequest level s = .next (secUrgent level s) := by
  refine congrArg _ (iff_of _ _ ?_)
  simpa only [Bool.and_eq_true, Bool.or_eq_true, decide_eq_true_eq] using And.intro hstage hlevel

/-- An urgent request of the lower level runs at once on a free core. -/
theorem secUrgent_free {s : State} (hlive : s.sec.halted = false) (hfree : s.sec.running = none) :
    secUrgent 1 s = setSec (fun x => { x with running := some { holder := 1, level := 1 } }) s := by
  unfold secUrgent
  rw [if_neg (Bool.eq_false_iff.mp hlive), hfree]
  rfl

/-- A sag's request suspends a message of a lower level and halts the engine (R396). -/
theorem secUrgent_sag_suspends {m : SecMsg} {s : State} (hlive : s.sec.halted = false) (hbusy : s.sec.running = some m)
    (hlevel : m.level < 2) :
    secUrgent 2 s = setSec (fun x => { x with
      contexts := m :: x.contexts, running := some { holder := 1, level := 2 }, halted := true }) s := by
  unfold secUrgent
  rw [if_neg (Bool.eq_false_iff.mp hlive), hbusy]
  simp only [if_pos hlevel]
  rfl

/-- Settles O25: each event once its condition holds, then the branch of the lock or the core that its hypotheses name. -/
theorem securityEventsComplete : Obligations.SecurityEventsComplete := by
  refine ⟨?takes, ?queues, ?messageEnd, ?urgent, ?sag, ?alarm, ?clear⟩
  case takes =>
    intro id s hstage hid hfree hidle hnew
    have other : s.sec.holder ≠ id := by omega
    refine (execSecLockClaim_user hstage hid).trans (congrArg _ ((secClaim_new other hnew).trans (if_pos ?_)))
    rw [hfree, hidle]
    rfl
  case queues =>
    intro id s hstage hid hheld hother hnew
    refine (execSecLockClaim_user hstage hid).trans (congrArg _ ((secClaim_new hother hnew).trans (if_neg ?_)))
    rw [decide_eq_false hheld, Bool.false_and]
    exact Bool.false_ne_true
  case messageEnd => exact fun s hlive hbusy => congrArg _ (messageEnd_running hlive hbusy)
  case urgent =>
    exact fun s hstage hlive hfree =>
      (execUrgentRequest_level hstage (.inl rfl)).trans (congrArg _ (secUrgent_free hlive hfree))
  case sag =>
    exact fun m s hstage hlive hbusy hlevel =>
      (execUrgentRequest_level hstage (.inr rfl)).trans (congrArg _ (secUrgent_sag_suspends hlive hbusy hlevel))
  case alarm =>
    exact fun k s hstage hk hlive => congrArg _ (iff_of _ _ (by rw [decide_eq_true hstage, decide_eq_true hk]; rfl))
  case clear => exact fun mask persists s hup => congrArg _ (iff_of _ _ hup)

end Sys2Proof.Machine
end

section
namespace Sys2Proof.Machine

/-! ## PORT and FAB commands (R90, R101, R102, R109, R309): what each does once it runs -/

/-! ### Associations -/

/-- The checks of PORT.SA_ADD under a key-encryption slot. -/
abbrev saAddChecks (c : Cmd) (kek : Nat) (s : State) : List (Bool × Nat) :=
  [(saBadPort c s || (c.req = mgr && !kekSlot s kek) || (!opb c 4 16 && (opw c 8).toNat ≠ 0), stBAD_OPERAND),
   (!ownsPort s c.req (saPort c) || !mayUnwrap s c.req kek, stNO_PERMISSION),
   (portOutOfService s (saPort c) || secAlarmed s, stFENCED_UNIT)]

/-- A command of the security engine whose claim has its message running (R394). -/
theorem secRun_runs {c : Cmd} {s u : State} (f : State → State) (hu : u = secClaim (secId c.req) s)
    (hrun : u.sec.running = some { holder := secId c.req }) : secRun c f s = messageEnd (f u) := by
  subst hu
  exact if_pos hrun

/-- A command whose claim does not have its message running waits. -/
theorem secRun_waits {c : Cmd} {s u : State} (f : State → State) (hu : u = secClaim (secId c.req) s)
    (hrun : u.sec.running ≠ some { holder := secId c.req }) : secRun c f s = commandWaits c u := by
  subst hu
  exact if_neg hrun

theorem execPortSaAdd_installs {c : Cmd} {kek : Nat} {s u : State} (hkek : kek = opf c 9 5 0)
    (runs : Runs c 0x2C2 .any (saAddChecks c kek s) s) (hu : u = secClaim (secId c.req) (noteCmd c s))
    (hrun : u.sec.running = some { holder := secId c.req }) (hnew : (tget u.sas (saOf c)).isSome = false) :
    execPortSaAdd c s = .next (messageEnd (withKey c kek 40 (fun k v => fin c stOK [] (saInstall c k v)) u)) := by
  subst hkek
  refine (next_runCmd _ runs rfl).trans ?_
  rw [secRun_runs _ hu hrun, if_neg (Bool.eq_false_iff.mp hnew)]

theorem execPortSaAdd_waits {c : Cmd} {kek : Nat} {s u : State} (hkek : kek = opf c 9 5 0)
    (runs : Runs c 0x2C2 .any (saAddChecks c kek s) s) (hu : u = secClaim (secId c.req) (noteCmd c s))
    (hrun : u.sec.running ≠ some { holder := secId c.req }) : execPortSaAdd c s = .next (commandWaits c u) := by
  subst hkek
  exact (next_runCmd _ runs rfl).trans (congrArg _ (secRun_waits _ hu hrun))

/-! ### Optic memory -/

/-- The checks of PORT.CMIS_WR: after permission, that the module does not own the control. -/
abbrev cmisWrChecks (c : Cmd) (s : State) : List (Bool × Nat) :=
  (cmisChecks c s).take 2 ++ [(ownedControl c, stNO_PERMISSION)] ++ (cmisChecks c s).drop 2

theorem execPortCmisRd_reads {c : Cmd} {bs : List Byte} {s u : State} (runs : Runs c 0x2C5 .any (cmisChecks c s) s)
    (hu : u = noteCmd c s) (hoptic : (cage u (opf c 4 5 0)).present = true) (hwr : c.wrOk = true) :
    execPortCmisRd c (some bs) s = .next (fin c stOK []
      (emitHost (.hostWrite c.req (opAddr c 10) (bs.take (opf c 6 7 0))) (selectCage (opf c 4 5 0) u))) := by
  have kept : (cage (selectCage (opf c 4 5 0) u) (opf c 4 5 0)).present = true := hoptic
  refine (next_runCmd _ runs hu).trans ?_
  simp only [hoptic, kept, hwr, iff_true, if_true]

theorem execPortCmisRd_absent {c : Cmd} {optic : Option (List Byte)} {s u : State} (runs : Runs c 0x2C5 .any (cmisChecks c s) s)
    (hu : u = noteCmd c s) (hempty : (cage u (opf c 4 5 0)).present = false) :
    execPortCmisRd c optic s = .next (fin c stNOT_FOUND [] u) := by
  refine (next_runCmd _ runs hu).trans ?_
  simp only [hempty, iff_false, Bool.false_eq_true, if_false]

theorem execPortCmisWr_writes {c : Cmd} {bs : List Byte} {s u : State} (runs : Runs c 0x2C6 .any (cmisWrChecks c s) s)
    (hu : u = noteCmd c s) (hdata : c.data = some bs) (hoptic : (cage u (opf c 4 5 0)).present = true) :
    execPortCmisWr c true s = .next (fin c stOK []
      (emit (.cmisWrite (opf c 4 5 0) (opf c 5 7 0) (opf c 5 23 16) (bs.take (opf c 6 7 0))) (selectCage (opf c 4 5 0) u))) := by
  have kept : (cage (selectCage (opf c 4 5 0) u) (opf c 4 5 0)).present = true := hoptic
  refine (next_runCmd _ runs hu).trans ?_
  simp only [hdata, hoptic, kept, iff_true, Bool.and_self, Bool.not_true, Bool.false_eq_true, if_false]

/-! ### Admissions -/

/-- The checks of FAB.ADMIT and FAB.RD. -/
abbrev fabricChecks (p : Nat) (s : State) : List (Bool × Nat) := [(!isFabric s p, stBAD_OPERAND), (portOut s p, stFENCED_UNIT)]

theorem execFabAdmit_admits {c : Cmd} {p : Nat} {h : Hello} {s u : State} (hp : p = opf c 4 9 0)
    (runs : Runs c 0x401 .manager (fabricChecks p s) s) (hu : u = noteCmd c s) (hstate : (adjOf u p).state = 4)
    (hlast : (adjOf u p).last = some h) (hserial : h.serial = opBits c 5 2) :
    execFabAdmit c s = .next (fin c stOK [] (setAdj p (fun a => { a with admitted := some h.serial }) u)) := by
  subst hp
  refine (next_runCmd _ runs hu).trans ?_
  simp only [hstate, hlast, hserial, Option.any_some, decide_true, Bool.and_self, if_true]

theorem execFabAdmit_unmatched {c : Cmd} {p : Nat} {s u : State} (hp : p = opf c 4 9 0)
    (runs : Runs c 0x401 .manager (fabricChecks p s) s) (hu : u = noteCmd c s) (hstate : (adjOf u p).state ≠ 4) :
    execFabAdmit c s = .next (fin c stNOT_FOUND [] u) := by
  subst hp
  refine (next_runCmd _ runs hu).trans (congrArg _ (if_neg ?_))
  rw [decide_eq_false hstate, Bool.false_and]
  exact Bool.false_ne_true

/-- What FAB.EVICT does: an admission ends, none is NOT_FOUND. -/
theorem execFabEvict_runs {c : Cmd} {p : Nat} {s u : State} (hp : p = opf c 4 9 0)
    (runs : Runs c 0x402 .manager [(512 ≤ p, stBAD_OPERAND), (portOut s p, stFENCED_UNIT)] s) (hu : u = noteCmd c s) :
    execFabEvict c s = .next (if (adjOf u p).admitted.isSome
      then fin c stOK [] (setAdj p (fun a => { a with admitted := none }) u) else fin c stNOT_FOUND [] u) := by
  subst hp
  exact next_runCmd _ runs hu

/-- Settles O33: each command in its frame (`next_runCmd`), then the branch that its hypotheses name. -/
theorem portAndFabricCommandsComplete : Obligations.PortAndFabricCommandsComplete := by
  refine ⟨?mode, ?saAdd, ?saDel, ?saTxAn, ?cmisRd, ?cmisRdAbsent, ?cmisWr, ?admission, ?evict, ?read, ?saAddWaits, ?saDelMissing,
    ?saTxAnMissing, ?admitUnmatched, ?evictMissing⟩
  case mode => exact fun c s u => next_runCmd _
  case saAdd => exact fun c kek s u => execPortSaAdd_installs
  case saDel => exact fun c s u runs hu hthere => (next_runCmd _ runs hu).trans (congrArg _ (if_pos hthere))
  case saTxAn => exact fun c s u runs hu hthere => (next_runCmd _ runs hu).trans (congrArg _ (if_pos hthere))
  case cmisRd => exact fun c bs s u => execPortCmisRd_reads
  case cmisRdAbsent => exact fun c s u => execPortCmisRd_absent
  case cmisWr => exact fun c bs s u => execPortCmisWr_writes
  case admission => exact fun c p h s u => execFabAdmit_admits
  case evict => exact fun c p s u hp runs hu hthere => (execFabEvict_runs hp runs hu).trans (congrArg _ (if_pos hthere))
  case read =>
    intro c p s u hp runs hu
    subst hp
    exact next_runCmd _ runs hu
  case saAddWaits => exact fun c kek s u => execPortSaAdd_waits
  case saDelMissing =>
    exact fun c s u runs hu hnone => (next_runCmd _ runs hu).trans (congrArg _ (if_neg (Bool.eq_false_iff.mp hnone)))
  case saTxAnMissing =>
    exact fun c s u runs hu hnone => (next_runCmd _ runs hu).trans (congrArg _ (if_neg (Bool.eq_false_iff.mp hnone)))
  case admitUnmatched => exact fun c p s u => execFabAdmit_unmatched
  case evictMissing =>
    intro c p s u hp runs hu hnone
    refine (execFabEvict_runs hp runs hu).trans (congrArg _ (if_neg ?_))
    rw [hnone]
    exact Bool.false_ne_true

end Sys2Proof.Machine
end

section
namespace Sys2Proof.Machine

/-! ## A reading of the state that a change keeps -/

/-- A change of the state leaves a reading of it. -/
def Keeps {α : Type} (g : State → α) (s t : State) : Prop := g t = g s

section
variable {α : Type} {g : State → α} {s t u : State}

theorem Keeps.same : Keeps g s s := rfl

/-- The last change stands first, as in the text of a meaning. -/
theorem Keeps.after (b : Keeps g t u) (a : Keeps g s t) : Keeps g s u := b.trans a

theorem keeps_when {f : State → State} {c : Bool} (h : ∀ s, Keeps g s (f s)) : Keeps g s (iff_ c f s) := by
  cases c
  · exact Keeps.same
  · exact h s

theorem keeps_ite {c : Prop} [Decidable c] (ht : Keeps g s t) (hu : Keeps g s u) : Keeps g s (if c then t else u) := by
  split
  · exact ht
  · exact hu

theorem keeps_each {β : Type} {f : β → State → State} (h : ∀ b s, Keeps g s (f b s)) :
    ∀ {l : List β} {s : State}, Keeps g s (forEach l f s)
  | [], _ => Keeps.same
  | b :: l, s => (keeps_each h (l := l) (s := f b s)).after (h b s)

end

end Sys2Proof.Machine
end

section
namespace Sys2Proof.Machine

/-! ## Selections leave the time base (R282 to R292) -/

/-- The time base is as it was. -/
abbrev SameTime : State → State → Prop := Keeps State.tim

theorem ServiceOnly.sameTime {s t : State} (h : ServiceOnly s t) : SameTime s t := by
  obtain ⟨_, _, _, _, _, rfl⟩ := h
  exact rfl

/-! ### Frames that end -/

theorem sameTime_txFlush (q r : Nat) : ∀ (l : List TxTaken) (s : State), SameTime s (txFlush q r l s)
  | [], _ => Keeps.same
  | x :: l, s => by
    unfold txFlush
    split
    · exact Keeps.same
    · exact (sameTime_txFlush q r l _).after <| (keeps_when fun s => count_tim s ..).after <|
        (serviceOnly_completeWith ..).sameTime.after <| setRing_tim s ..

theorem sameTime_frameGone (fid : Nat) (s : State) : SameTime s (frameGone fid s) :=
  (keeps_each fun _ _ => (sameTime_txFlush ..).after <| setRing_tim ..).after <|
    Keeps.after (g := State.tim) rfl <| keeps_each fun _ s => setBuf_tim s ..

theorem sameTime_slotRelease (sl : Slot) (s : State) : SameTime s (slotRelease sl s) := keeps_ite Keeps.same <| setBuf_tim s ..

theorem sameTime_dropCopy (p a b : Nat) (sl : Slot) (s : State) : SameTime s (dropCopy p a b sl s) :=
  (sameTime_slotRelease ..).after <| keeps_when (sameTime_frameGone _)

theorem sameTime_dropLeaf (l a b : Nat) (s : State) : SameTime s (dropLeaf l a b s) := rfl

theorem sameTime_evictNote (t : Nat) (n : Notice) (s : State) : SameTime s (evictNote t n s) :=
  (keeps_each fun _ s => send_tim s ..).after <| sameTime_frameGone ..

/-! ### Pulls -/

theorem sameTime_pullStripe (a : Asm) (ssn : Nat) (s : State) : SameTime s (pullStripe a ssn s) :=
  Keeps.after (keeps_each fun _ s => send_tim s ..) <| setLeaf_tim ..

theorem sameTime_pumpFrame (t : Nat) (n : Notice) : ∀ (k : Nat) (s : State), SameTime s (pumpFrame t n k s)
  | 0, _ => Keeps.same
  | k + 1, s => by
    unfold pumpFrame
    split
    · split
      · exact keeps_ite ((sameTime_pumpFrame t n k _).after <| sameTime_pullStripe ..) Keeps.same
      · exact Keeps.same
    · exact Keeps.same

theorem sameTime_pumpPulls (t : Nat) (s : State) : SameTime s (pumpPulls t s) := keeps_each fun _ _ => sameTime_pumpFrame ..

theorem sameTime_allocFor {t len tag h : Nat} {u : PoolUser} {s v : State} (e : allocFor t len u tag s = some (v, h)) :
    SameTime s v := by
  unfold allocFor at e
  split at e
  · obtain rfl : _ = v := congrArg Prod.fst (Option.some.inj e)
    exact rfl
  · cases e

theorem sameTime_beginPull {t p cls tag : Nat} {n : Notice} {u : PoolUser} {s v : State}
    (e : beginPull t p cls n u tag s = some v) : SameTime s v := by
  unfold beginPull at e
  split at e
  · cases e
  · next w _ found =>
    obtain rfl := Option.some.inj e
    exact (sameTime_pumpPulls ..).after <| Keeps.after (t := w) rfl <| sameTime_allocFor found

theorem sameTime_chargePath (l len : Nat) (s : State) : SameTime s (chargePath l len s) := by
  unfold chargePath
  split <;> exact rfl

/-! ### The walk from a port -/

theorem sameTime_storeDeficits (p level : Nat) (l : List Child) (s : State) : SameTime s (storeDeficits p level l s) :=
  keeps_each fun _ s => keeps_ite (setPort_tim s ..) (setNode_tim s ..)

theorem sameTime_chooseAt {p level key : Nat} {l : List Child} {s u : State} {o : Option Nat}
    (e : chooseAt p level key l s = (u, o)) : SameTime s u := by
  obtain rfl : _ = u := congrArg Prod.fst e
  unfold chooseAt
  dsimp only
  split
  · exact Keeps.same
  · split
    · exact Keeps.same
    · exact Keeps.after (g := State.tim) rfl <| sameTime_storeDeficits ..

theorem sameTime_walkPort {p : Nat} {s u : State} {o : Option Pick} (e : walkPort p s = (u, o)) : SameTime s u := by
  obtain rfl : _ = u := congrArg Prod.fst e
  unfold walkPort
  dsimp only
  split
  · next group => exact sameTime_chooseAt group
  · next group =>
    split
    · exact sameTime_chooseAt group
    · split
      · next subgroup => exact (sameTime_chooseAt subgroup).after <| sameTime_chooseAt group
      · next subgroup =>
        have chosen := (sameTime_chooseAt subgroup).after <| sameTime_chooseAt group
        split
        · next leaf => exact (sameTime_chooseAt leaf).after chosen
        · next leaf => exact (sameTime_chooseAt leaf).after chosen

theorem sameTime_takeCopy (p c : Nat) (s : State) : SameTime s (takeCopy p c s) := by
  unfold takeCopy
  split
  · exact Keeps.same
  · exact keeps_ite ((sameTime_dropCopy ..).after <| setPort_tim s ..) <|
      Keeps.after (setPort_tim ..) <| Keeps.after (count_tim ..) <| setPort_tim s ..

theorem sameTime_takeLeaf (p l : Nat) (s : State) : SameTime s (takeLeaf p l s) := by
  unfold takeLeaf
  split
  · exact Keeps.same
  · refine keeps_ite ((sameTime_dropLeaf ..).after <| sameTime_evictNote ..) ?_
    split
    · exact Keeps.same
    · next pulls =>
      exact Keeps.after (setPort_tim ..) <| Keeps.after (count_tim ..) <| (sameTime_chargePath ..).after <|
        sameTime_beginPull pulls

theorem sameTime_takePick (p : Nat) (k : Pick) (s : State) : SameTime s (takePick p k s) := by
  cases k with
  | leaf l => exact sameTime_takeLeaf p l s
  | rq c => exact sameTime_takeCopy p c s

theorem sameTime_unpark (p : Nat) (s : State) : SameTime s (unpark p s) :=
  keeps_each fun _ s => keeps_ite (setPort_tim s ..) Keeps.same

theorem sameTime_selectN (p : Nat) : ∀ (n : Nat) (s : State), SameTime s (selectN p n s)
  | 0, _ => Keeps.same
  | n + 1, s => by
    unfold selectN
    split
    · next walks =>
      exact (sameTime_selectN p n _).after <| (sameTime_takePick ..).after <| (sameTime_walkPort walks).after <|
        sameTime_unpark p s
    · exact sameTime_unpark p s

/-! ### Selections of a tile -/

theorem sameTime_passOver (t : Nat) (n : Notice) (s : State) : SameTime s (passOver t n s) :=
  keeps_when fun _ => rfl

theorem sameTime_pullRepl (t : Nat) : ∀ (n : Nat) (s : State), SameTime s (pullRepl t n s)
  | 0, _ => Keeps.same
  | n + 1, s => by
    have passed {l : List Notice} : SameTime s (forEach l (passOver t) s) := keeps_each (sameTime_passOver t)
    unfold pullRepl
    dsimp only
    split
    · exact passed
    · refine keeps_ite passed ?_
      split
      · exact passed
      · next pulls =>
        exact (sameTime_pullRepl t n _).after <| Keeps.after (g := State.tim) rfl <| (sameTime_beginPull pulls).after passed

theorem sameTime_selectOwn (p : Nat) (s : State) : SameTime s (selectOwn p s) :=
  (keeps_each fun _ _ => sameTime_passOver ..).after <| sameTime_selectN ..

theorem sameTime_retryWaits (t : Nat) (s : State) : SameTime s (retryWaits t s) :=
  (keeps_each fun _ _ => sameTime_selectOwn ..).after <| keeps_when fun _ => sameTime_pullRepl ..

theorem sameTime_selectPort (p : Nat) (s : State) : SameTime s (selectPort p s) :=
  (sameTime_retryWaits ..).after <| sameTime_selectOwn ..

theorem sameTime_selectBound (g : Nat) (s : State) : SameTime s (selectBound g s) := by
  unfold selectBound
  split
  · exact sameTime_selectPort ..
  · exact Keeps.same

end Sys2Proof.Machine
end

section
namespace Sys2Proof.Machine

/-! ## Changes of module time leave the free-running count (R111, R113, R114, R150) -/

/-- The free-running count, on which the age ticks rest, is as it was. -/
abbrev SameCount : State → State → Prop := Keeps fun s => s.tim.frc

theorem SameTime.sameCount {s t : State} (h : SameTime s t) : SameCount s t := congrArg TimeBase.frc h

theorem sameCount_withTim {s : State} {x : TimeBase} (h : x.frc = s.tim.frc) : SameCount s { s with tim := x } := h

theorem sameCount_pset (r : Reg) (b : Nat) (v : Bool) (s : State) : SameCount s (pset r b v s) := SameTime.sameCount (pset_tim ..)

theorem sameCount_addUnits (u : Int) (s : State) : SameCount s (addUnits u s) := addUnits_frc u s

theorem sameCount_closeStripes (t : Nat) (s : State) : SameCount s (closeStripes t s) := rfl

theorem sameCount_setRealign (l : List Nat) (s : State) : SameCount s (setRealign l s) :=
  (sameCount_pset ..).after <| sameCount_withTim rfl

theorem sameCount_realignOne (k : Nat) (s : State) : SameCount s (realignOne k s) := by
  unfold realignOne
  refine keeps_ite ((keeps_each sameCount_closeStripes).after <| sameCount_withTim rfl) (keeps_ite ?_ ?_)
  · exact SameTime.sameCount <| (sameTime_selectPort ..).after <| setGate_tim ..
  · exact SameTime.sameCount <| (sameTime_selectBound ..).after <| setSgate_tim ..

theorem sameCount_stepTime (n : Nat) (s : State) : SameCount s (stepTime n s) :=
  (keeps_each sameCount_realignOne).after <| (sameCount_setRealign ..).after <| (sameCount_pset ..).after <|
    (sameCount_pset ..).after <| sameCount_withTim rfl

theorem sameCount_newTime (n : Nat) (s : State) : SameCount s (newTime n s) :=
  keeps_ite ((sameCount_pset ..).after <| sameCount_withTim rfl) (sameCount_stepTime n s)

theorem sameCount_timSetCmd (s : State) : SameCount s (timSetCmd s) := keeps_ite (sameCount_pset ..) (sameCount_newTime ..)

theorem sameCount_timOffsetCmd (s : State) : SameCount s (timOffsetCmd s) := keeps_ite (sameCount_pset ..) (sameCount_newTime ..)

theorem sameCount_timAdjSet (v : Word) (s : State) : SameCount s (timAdjSet v s) :=
  have stored (w : Word) : SameCount s (rput .timAdj 0 0 w s) := SameTime.sameCount (rput_tim ..)
  keeps_ite ((sameCount_pset ..).after (stored _)) (keeps_ite ((sameCount_pset ..).after (stored _)) (stored v))

/-- A row whose operation leaves the free-running count leaves every table's tick count: the tick reads nothing else. -/
theorem exmTick_kept {s t u : State} (h : SameCount s u) (p : ExmProf) (answer : (.next u : Res) = .next t) :
    exmTick t p = exmTick s p := by
  cases answer
  have count : t.tim.frc = s.tim.frc := h
  rw [exmTick, count, exmTick]

/-- Settles O52: the tick count is a function of the free-running count, which no change of module time moves. -/
theorem tickCountIgnoresTimeChanges : Obligations.TickCountIgnoresTimeChanges := by
  refine ⟨?tick, ?set, ?offset, ?adjust, ?slewEnd, ?realign⟩
  case tick => exact fun p s => rfl
  case set => exact fun p s t => exmTick_kept (keeps_when sameCount_timSetCmd) p
  case offset => exact fun p s t => exmTick_kept (keeps_when sameCount_timOffsetCmd) p
  case adjust => exact fun p v s t => exmTick_kept (keeps_when (sameCount_timAdjSet v)) p
  case slewEnd =>
    intro p s t
    refine exmTick_kept (keeps_when fun u => ?_) p
    exact (sameCount_pset ..).after <| (sameCount_withTim rfl).after <| sameCount_addUnits (u.tim.slewLeft * 1099511627776) u
  case realign =>
    exact fun p k s t => exmTick_kept (keeps_when fun _ => (sameCount_realignOne ..).after <| sameCount_setRealign ..) p

end Sys2Proof.Machine
end

section
namespace Sys2Proof.Machine

/-! ## Learn filter, repaired words, dump periods, engine samples and timers (R157 to R160, R174, R404, R428 to R432) -/

/-- The close of the race window of an entry that waits for it. -/
theorem execRaceWindowClose_pending {t n sl : Nat} {key : BitVec 128} {l : Learn} {s : State}
    (waits : s.exm.learn.find? (fun l => sameLearn t n sl key l && !l.posted) = some l) :
    execRaceWindowClose t n sl key s = .next (postLearn l s) := by
  unfold execRaceWindowClose
  simp only [waits]

/-- A bad word that another running tile repairs is good again; the rest depends on its memory. -/
theorem execTableWordRepaired_repairs {t u mem addr : Nat} {s : State} (hrun : tileRunning s t = true)
    (other : (runningTiles s).find? (· ≠ t) = some u) (hbad : (t, mem, addr) ∈ s.tblBad) :
    execTableWordRepaired t mem addr s = .next (
      let v := { s with tblBad := s.tblBad.filter (· ≠ (t, mem, addr)) }
      if mem < 16 then lpmCnt t 3 (report (unitId 11 t) 0x0104 0 addr v)
      else { v with exm := { v.exm with entries := tupd v.exm.entries addr (hitFrom t u) } }) := by
  unfold execTableWordRepaired
  simp only [other, hrun, List.contains_iff_mem.mpr hbad, Bool.and_self, iff_true]

/-- A period of a set with periodic dumps. -/
theorem execDumpPeriod_runs {n : Nat} {s : State} (hruns : dumpsRun s n = true) :
    execDumpPeriod n s = .next (periodBegins n s) := by
  rw [execDumpPeriod, iff_of _ _ hruns]

/-- A sample of an enabled, running engine that ended an instruction, by its skid (R430, R431). -/
theorem execEngineSample_ended {e skid req r op : Nat} {tag : Word} {s : State}
    (ended : (engine s e).last = some (req, r, op, tag)) (he : e < 16)
    (enabled : bit (sampler s e) 31 = true) (up : engineUp s e = true) :
    execEngineSample e skid s = .next (if 3 ≤ skid then ownerCnt mgr 12 1 s else
      telRecord mgr (pack [(23, 16, 2), (15, 0, e)]) (pack [(1, 0, skid), (6, 4, sampledClass (sampler s e))])
        [pack [(10, 0, op), (11, 11, (decide (req = mgr)).toNat), (15, 12, if req = mgr then 0 else req), (23, 16, r)], tag,
         word (drawn s % 65536)] (advanceFree s)) := by
  unfold execEngineSample
  simp only [ended, he, enabled, up, decide_true, Bool.and_self, Bool.not_true, Bool.false_eq_true, if_false]

/-- Settles O21: each row is its operation once its condition holds; a repair by its memory, a sample by its skid. -/
theorem learnAndTelemetryRowsComplete : Obligations.LearnAndTelemetryRowsComplete := by
  refine ⟨?race, ?hold, ?trieWord, ?entryWord, ?dump, ?sample, ?lateSample, ?timer⟩
  case race => exact fun t n sl key l s => execRaceWindowClose_pending
  case hold => exact fun t n sl key s => rfl
  case trieWord =>
    exact fun t u mem addr s hrun other hbad hmem =>
      (execTableWordRepaired_repairs hrun other hbad).trans (congrArg _ (if_pos hmem))
  case entryWord =>
    exact fun t u mem addr s hrun other hbad hmem =>
      (execTableWordRepaired_repairs hrun other hbad).trans (congrArg _ (if_neg (Nat.not_lt.mpr hmem)))
  case dump => exact fun n s => execDumpPeriod_runs
  case sample =>
    exact fun e skid req r op tag s ended he enabled up hskid =>
      (execEngineSample_ended ended he enabled up).trans (congrArg _ (if_neg (Nat.not_le.mpr hskid)))
  case lateSample =>
    exact fun e skid req r op tag s ended he enabled up hskid =>
      (execEngineSample_ended ended he enabled up).trans (congrArg _ (if_pos hskid))
  case timer => exact fun q k s hon => congrArg _ (iff_of (timerFires q k) s hon)

end Sys2Proof.Machine
end

section
namespace Sys2Proof.Machine

/-! ## TBL commands (R143 to R152, R163): what each does once it runs -/

section
variable {c : Cmd} {k : Nat} {e : ExmEntry} {s u : State}

/-! ### TBL.SRCH -/

theorem execTblSrch_found (runs : Runs c 0x41 .any (tblChecks c s false) s) (hu : u = tblReads c (noteCmd c s))
    (found : tblFind c u = some (k, e)) : execTblSrch c s =
      .next (fin c stOK [(2, e.result), (3, pack [(15, 0, newestHit u (exmProf u (tblN c)) e), (16, 16, e.static.toNat),
        (17, 17, e.ageExempt.toNat)])] u) := by
  refine (next_runCmd _ runs rfl).trans ?_
  simp only [← hu, found]

theorem execTblSrch_missing (runs : Runs c 0x41 .any (tblChecks c s false) s) (hu : u = tblReads c (noteCmd c s))
    (missing : tblFind c u = none) : execTblSrch c s = .next (fin c stNOT_FOUND [] u) := by
  refine (next_runCmd _ runs rfl).trans ?_
  simp only [← hu, missing]

/-! ### TBL.INS -/

/-- The checks of TBL.INS: beside those of every key, the port that RESULT names. -/
abbrev insChecks (c : Cmd) (s : State) : List (Bool × Nat) := tblChecks c s (!opb c 5 31 && 528 ≤ opf c 5 17 0)

/-- The entry that TBL.INS makes of a new key (R142, R147). -/
abbrev insertedEntry (c : Cmd) (s : State) : ExmEntry := {
  valid := true, key := opKey c 8, result := exmResult (opw c 5), static := opb c 4 8, ageExempt := opb c 4 9, slice := tblSl c,
  table := tblN c, bucket := bucketOf (exmProf s (tblN c)) (tblSl c) (opKey c 8),
  lastHit := List.replicate 8 (exmTick s (exmProf s (tblN c))) }

/-- What REPLACE makes of an entry: its result, its flags and its age are the command's (R147). -/
abbrev replacedEntry (c : Cmd) (e : ExmEntry) (s : State) : ExmEntry := { e with
  result := exmResult (opw c 5), static := opb c 4 8, ageExempt := opb c 4 9,
  lastHit := List.replicate 8 (exmTick s (exmProf s (tblN c))) }

theorem execTblIns_runs (runs : Runs c 0x42 .any (insChecks c s) s) (hu : u = tblReads c (noteCmd c s)) :
    execTblIns c s = .next (tblInsert c u) := by
  subst hu
  exact next_runCmd _ runs rfl

theorem tblInsert_new (missing : tblFind c u = none)
    (room : exmPlace u (bucketOf (exmProf u (tblN c)) (tblSl c) (opKey c 8)) (tblSl c) = some k) :
    tblInsert c u = fin c stOK [] (learnRelease (tblN c) (tblSl c) (opKey c 8)
      (journalAppend 1 (insertedEntry c u) (exmAdd k (insertedEntry c u) u))) := by
  unfold tblInsert
  simp only [missing, room]

theorem tblInsert_full (missing : tblFind c u = none)
    (full : exmPlace u (bucketOf (exmProf u (tblN c)) (tblSl c) (opKey c 8)) (tblSl c) = none) :
    tblInsert c u = fin c stTABLE_FULL [] (exmCnt (homeTile u c) (tblN c) 7 u) := by
  unfold tblInsert
  simp only [missing, full]

/-- A key that is stored already: REPLACE decides. -/
theorem tblInsert_stored (found : tblFind c u = some (k, e)) :
    tblInsert c u = if opb c 4 10 then fin c stOK [] (learnRelease (tblN c) e.slice (opKey c 8)
      (journalAppend 2 (replacedEntry c e u) (exmPut k (replacedEntry c e u) u))) else fin c stEXISTS [] u := by
  unfold tblInsert
  simp only [found]
  cases opb c 4 10 <;> rfl

/-! ### TBL.DEL -/

theorem execTblDel_found (runs : Runs c 0x43 .any (tblChecks c s false) s) (hu : u = tblReads c (noteCmd c s))
    (found : tblFind c u = some (k, e)) : execTblDel c s = .next (fin c stOK [] (exmDelete 3 k u)) := by
  refine (next_runCmd _ runs rfl).trans ?_
  simp only [← hu, found]

theorem execTblDel_missing (runs : Runs c 0x43 .any (tblChecks c s false) s) (hu : u = tblReads c (noteCmd c s))
    (missing : tblFind c u = none) : execTblDel c s = .next (fin c stNOT_FOUND [] u) := by
  refine (next_runCmd _ runs rfl).trans ?_
  simp only [← hu, missing]

end

/-- Settles O27: each command in its frame (`next_runCmd`), then the branch that its hypotheses name. -/
theorem tableCommandsComplete : Obligations.TableCommandsComplete := by
  refine ⟨?search, ?searchMissing, ?insert, ?insertFull, ?insertExists, ?replace, ?delete, ?deleteMissing, ?walk, ?flush, ?age,
    ?checkpoint⟩
  case search => exact fun c k e s u => execTblSrch_found
  case searchMissing => exact fun c s u => execTblSrch_missing
  case insert =>
    exact fun c k s u runs hu missing room => (execTblIns_runs runs hu).trans (congrArg _ (tblInsert_new missing room))
  case insertFull =>
    exact fun c s u runs hu missing full => (execTblIns_runs runs hu).trans (congrArg _ (tblInsert_full missing full))
  case insertExists =>
    exact fun c k e s u runs hu found keep =>
      (execTblIns_runs runs hu).trans (congrArg _ ((tblInsert_stored found).trans (if_neg (Bool.eq_false_iff.mp keep))))
  case replace =>
    exact fun c k e s u runs hu found replace =>
      (execTblIns_runs runs hu).trans (congrArg _ ((tblInsert_stored found).trans (if_pos replace)))
  case delete => exact fun c k e s u => execTblDel_found
  case deleteMissing => exact fun c s u => execTblDel_missing
  case walk => exact fun c s u runs hu => hu ▸ next_runCmd _ runs rfl
  case flush => exact fun c s u runs hu => hu ▸ next_runCmd _ runs rfl
  case age => exact fun c raced s u runs hu => hu ▸ next_runCmd _ runs rfl
  case checkpoint => exact fun c s u => next_runCmd _

end Sys2Proof.Machine
end

section
namespace Sys2Proof.Machine

/-! ## What a slice may name in the TBL commands (R148) -/

/-- The status that the checks answer is that of a check that failed. -/
theorem firstFail_mem {st : Nat} : ∀ {l : List (Bool × Nat)}, firstFail l = some st → (true, st) ∈ l
  | (bad, x) :: l, h => by
    unfold firstFail at h
    split at h
    · next failed =>
      obtain rfl := failed
      obtain rfl := Option.some.inj h
      exact List.mem_cons_self
    · exact List.mem_cons_of_mem _ (firstFail_mem h)

/-- The first check passes and the second fails. -/
theorem firstFail_second {a b : Bool} {x y : Nat} {l : List (Bool × Nat)} (pass : a = false) (fails : b = true) :
    firstFail ((a, x) :: (b, y) :: l) = some y := by
  subst pass fails
  rfl

section
variable {c : Cmd} {extra ways : Bool} {s : State}

/-- A slice's key command with good operands, for a SHARED table or another slice. -/
theorem firstFail_tblChecks_foreign (slice : c.req ≠ mgr)
    (operands : (!(exmProf s (tblN c)).en || !keyFits (exmProf s (tblN c)) (opKey c 8) || !sliceOn s (tblSl c)) = false)
    (good : extra = false) (foreign : (exmProf s (tblN c)).shared = true ∨ tblSl c ≠ c.req) :
    firstFail (tblChecks c s extra) = some stNO_PERMISSION := by
  refine firstFail_second (by rw [operands, good, Bool.false_or]) ?_
  rw [decide_eq_true slice, Bool.true_and, Bool.or_eq_true, decide_eq_true_eq]
  exact foreign

/-- A slice's walk of a SHARED table, with good operands. -/
theorem firstFail_walkChecks_shared (slice : c.req ≠ mgr) (begins : iterating c s = false)
    (enabled : (exmProf s (tblN c)).en = true) (cursor : tblCursorOk c ways = true)
    (good : extra = false) (shared : (exmProf s (tblN c)).shared = true) :
    firstFail (walkChecks c s ways extra) = some stNO_PERMISSION := by
  unfold walkChecks iterChecks
  rw [begins, if_neg Bool.false_ne_true]
  refine firstFail_second ?_ (by rw [decide_eq_true slice, shared]; rfl)
  rw [enabled, cursor, good, decide_eq_false slice]
  rfl

/-- The manager's key command and its walk never fail the check of permission. -/
theorem firstFail_tblChecks_manager (manager : c.req = mgr) : firstFail (tblChecks c s extra) ≠ some stNO_PERMISSION := by
  intro failed
  have check := firstFail_mem failed
  simp [tblChecks, manager, stNO_PERMISSION, stBAD_OPERAND, stFENCED_UNIT] at check

theorem firstFail_walkChecks_manager (manager : c.req = mgr) :
    firstFail (walkChecks c s ways extra) ≠ some stNO_PERMISSION := by
  unfold walkChecks iterChecks
  split
  · exact nofun
  · intro failed
    have check := firstFail_mem failed
    simp [manager, stNO_PERMISSION, stBAD_OPERAND, stFENCED_UNIT, stSTALE_CURSOR] at check

/-- A slice's walk visits its own entries, whatever SLICE names (log 102). -/
theorem walkEntries_own {lo hi : Nat} {x : Nat × ExmEntry} (slice : c.req ≠ mgr) (visited : x ∈ walkEntries c s lo hi) :
    x.2.slice = c.req := by
  have limit : walkSlice c = some c.req := if_pos slice
  unfold walkEntries at visited
  simp only [limit, List.mem_filter, Bool.and_eq_true, decide_eq_true_eq] at visited
  exact visited.2.2

/-- A served command of any requester that fails a check completes with its status. -/
theorem next_runCmd_fails {op st : Nat} {checks : List (Bool × Nat)} (f : State → State) (served : serving c op s = some none)
    (failed : firstFail checks = some st) : (.next (runCmd c op .any checks f s) : Res) = .next (fin c st [] s) :=
  congrArg _ (runCmd_fails f served rfl failed)

end

/-- Settles O51: a slice's command passes its operand check and fails that of permission; the manager's never fails the latter. -/
theorem sliceTableRule : Obligations.SliceTableRule := by
  refine ⟨?search, ?insert, ?delete, ?checkpoint, ?walk, ?flush, ?age, ?manager, ?own⟩
  case search =>
    exact fun c s served slice operands foreign =>
      next_runCmd_fails _ served (firstFail_tblChecks_foreign slice operands rfl foreign)
  case insert =>
    intro c s served slice operands port foreign
    have good : (!opb c 5 31 && decide (528 ≤ opf c 5 17 0)) = false := by
      rcases port with hop | hport
      · rw [hop, Bool.not_true, Bool.false_and]
      · rw [decide_eq_false (Nat.not_le.mpr hport), Bool.and_false]
    exact next_runCmd_fails _ served (firstFail_tblChecks_foreign slice operands good foreign)
  case delete =>
    exact fun c s served slice operands foreign =>
      next_runCmd_fails _ served (firstFail_tblChecks_foreign slice operands rfl foreign)
  case checkpoint => exact fun c s served slice => congrArg _ (runCmd_who (w := .manager) _ served (decide_eq_true slice))
  case walk =>
    exact fun c s served slice begins enabled cursor shared =>
      next_runCmd_fails _ served (firstFail_walkChecks_shared slice begins enabled cursor rfl shared)
  case flush =>
    exact fun c s served slice begins enabled cursor port shared => next_runCmd_fails _ served
      (firstFail_walkChecks_shared slice begins enabled cursor (decide_eq_false (Nat.not_le.mpr port)) shared)
  case age =>
    exact fun c raced s served slice begins enabled cursor maxAge shared => next_runCmd_fails _ served
      (firstFail_walkChecks_shared slice begins enabled cursor (decide_eq_false maxAge) shared)
  case manager =>
    exact fun c extra s manager => ⟨firstFail_tblChecks_manager manager, fun ways => firstFail_walkChecks_manager manager⟩
  case own => exact fun c lo hi x s => walkEntries_own

end Sys2Proof.Machine
end

section
namespace Sys2Proof.Machine

/-! ## The first member of a list that none precedes -/

/-- What a scan for the first member keeps: the new one where it precedes the one held. -/
def keepFirst {α : Type} (before : α → α → Prop) [DecidableRel before] (held : Option α) (x : α) : Option α :=
  match held with
  | some y => if before x y then some x else held
  | none => some x

section
variable {α : Type} {before : α → α → Prop} [DecidableRel before]

theorem keepFirst_before {x y : α} (h : before x y) : keepFirst before (some y) x = some x := if_pos h

theorem keepFirst_not_before {x y : α} (h : ¬before x y) : keepFirst before (some y) x = some y := if_neg h

/-- A scan that holds a member ends with one that neither it nor any of the list precedes. -/
theorem foldl_keepFirst_some (asymm : ∀ x y, before x y → ¬before y x)
    (negTrans : ∀ x y z, ¬before x y → ¬before y z → ¬before x z) :
    ∀ (l : List α) (a : α), ∃ b, l.foldl (keepFirst before) (some a) = some b ∧ b ∈ a :: l ∧ ∀ x ∈ a :: l, ¬before x b
  | [], a => ⟨a, rfl, List.mem_singleton_self a, fun x h => by
      obtain rfl := List.mem_singleton.mp h
      exact fun refl => asymm x x refl refl⟩
  | y :: l, a => by
    rw [List.foldl_cons]
    by_cases precedes : before y a
    · obtain ⟨b, scan, member, least⟩ := foldl_keepFirst_some asymm negTrans l y
      rw [keepFirst_before precedes]
      refine ⟨b, scan, List.mem_cons_of_mem _ member, List.forall_mem_cons.mpr ⟨?_, least⟩⟩
      exact negTrans a y b (asymm y a precedes) (least y List.mem_cons_self)
    · obtain ⟨b, scan, member, least⟩ := foldl_keepFirst_some asymm negTrans l a
      obtain ⟨leastHeld, leastRest⟩ := List.forall_mem_cons.mp least
      rw [keepFirst_not_before precedes]
      refine ⟨b, scan, ?_, List.forall_mem_cons.mpr ⟨leastHeld, List.forall_mem_cons.mpr ⟨?_, leastRest⟩⟩⟩
      · rcases List.mem_cons.mp member with held | rest
        · exact List.mem_cons.mpr (.inl held)
        · exact List.mem_cons_of_mem _ (List.mem_cons_of_mem _ rest)
      · exact negTrans y a b precedes leastHeld

/-- A scan from nothing ends with nothing only for an empty list. -/
theorem foldl_keepFirst_eq_none (asymm : ∀ x y, before x y → ¬before y x)
    (negTrans : ∀ x y z, ¬before x y → ¬before y z → ¬before x z) :
    ∀ {l : List α}, l.foldl (keepFirst before) none = none ↔ l = []
  | [] => ⟨fun _ => rfl, fun _ => rfl⟩
  | a :: l => by
    obtain ⟨b, scan, _⟩ := foldl_keepFirst_some asymm negTrans l a
    exact ⟨fun none => (Option.some_ne_none b (scan.symm.trans none)).elim, nofun⟩

/-- A scan from nothing ends with a member that none precedes. -/
theorem foldl_keepFirst_eq_some (asymm : ∀ x y, before x y → ¬before y x)
    (negTrans : ∀ x y z, ¬before x y → ¬before y z → ¬before x z) {b : α} :
    ∀ {l : List α}, l.foldl (keepFirst before) none = some b → b ∈ l ∧ ∀ x ∈ l, ¬before x b
  | a :: l, best => by
    obtain ⟨c, scan, first⟩ := foldl_keepFirst_some asymm negTrans l a
    obtain rfl := Option.some.inj (scan.symm.trans best)
    exact first

end

end Sys2Proof.Machine
end

section
namespace Sys2Proof.Machine

/-! ## The search of the rule tables (R176 to R181) -/

/-! ### The winner among candidates (R178) -/

theorem candBefore_iff {a b : Cand} : candBefore a b = true ↔
    a.prio < b.prio ∨ a.prio = b.prio ∧ (a.slab < b.slab ∨ a.slab = b.slab ∧ a.row < b.row) := by
  simp only [candBefore, Bool.or_eq_true, Bool.and_eq_true, decide_eq_true_eq]

theorem candBefore_asymm (a b : Cand) : candBefore a b = true → ¬candBefore b a = true := by
  rw [candBefore_iff, candBefore_iff]
  omega

theorem candBefore_negTrans (a b c : Cand) :
    ¬candBefore a b = true → ¬candBefore b c = true → ¬candBefore a c = true := by
  rw [candBefore_iff, candBefore_iff, candBefore_iff]
  omega

/-- The winner of a table is what a scan for the first candidate keeps. -/
theorem bestCand_eq_foldl (l : List Cand) : bestCand l = l.foldl (keepFirst fun a b => candBefore a b = true) none := by
  unfold bestCand
  congr 1
  funext held x
  cases held with
  | none => rfl
  | some y => rfl

theorem bestCand_eq_none {l : List Cand} : bestCand l = none ↔ l = [] := by
  rw [bestCand_eq_foldl]
  exact foldl_keepFirst_eq_none candBefore_asymm candBefore_negTrans

theorem bestCand_eq_some {l : List Cand} {b : Cand} (best : bestCand l = some b) :
    b ∈ l ∧ ∀ x ∈ l, ¬candBefore x b = true :=
  foldl_keepFirst_eq_some candBefore_asymm candBefore_negTrans ((bestCand_eq_foldl l).symm.trans best)

/-! ### One action for each enabled table -/

/-- The action that a rule table yields for a frame: that of its winner, or MISS_ACT without a candidate. Where no key can be
built, only fallbacks are candidates (log 12, 79). -/
def tableAction (f : Frame) (hv : List Hd) (md : BitVec 256) (err : List (Nat × Nat)) (s : State) (k : Nat) : Nat :=
  let rt := ruleTable s f.pipe k
  let key := buildKey hv f.bytes md rt.key
  let all := tableCands s f.pipe rt (frameOwned md && key.isSome) (frameOf md) err ((key.map (·.1)).getD 0)
  match bestCand (if key.isSome then all else all.filter fun c => c.fallback.isSome) with
  | none => rt.missAct
  | some c => c.act

/-- A search that serves some members of a list and appends what each yields answers their yields in order. -/
theorem foldl_appends {g : State × List Nat → Nat → State × List Nat} {on : Nat → Bool} {act : Nat → Nat}
    {kept : State → Prop}
    (step : ∀ a k, kept a.1 → kept (g a k).1 ∧ (g a k).2 = a.2 ++ (if on k then [act k] else [])) :
    ∀ (l : List Nat) (a : State × List Nat), kept a.1 → (l.foldl g a).2 = a.2 ++ (l.filter on).map act
  | [], a, _ => by simp
  | k :: l, a, h => by
    obtain ⟨keeps, appends⟩ := step a k h
    rw [List.foldl_cons, foldl_appends step l (g a k) keeps, appends, List.append_assoc, List.filter_cons]
    congr 1
    cases on k <;> rfl

/-- The search answers the actions of the enabled tables in order: what it counts is read by no table. -/
theorem searchTables_actions (f : Frame) (hv : List Hd) (md : BitVec 256) (err : List (Nat × Nat)) (s : State) :
    (searchTables f hv md err s).2 =
      ((List.range 4).filter fun k => (ruleTable s f.pipe k).en).map (tableAction f hv md err s) := by
  unfold searchTables
  refine (foldl_appends (kept := ServiceOnly s) (fun a k counted => ?_) _ _ (ServiceOnly.refl s)).trans (List.nil_append _)
  obtain ⟨sameAction, sameTable⟩ : tableAction f hv md err a.1 k = tableAction f hv md err s k ∧
      ruleTable a.1 f.pipe k = ruleTable s f.pipe k := by
    obtain ⟨_, _, _, _, _, counters⟩ := counted
    rw [counters]
    exact ⟨rfl, rfl⟩
  rw [← sameAction, ← sameTable]
  dsimp only
  cases enabled : (ruleTable a.1 f.pipe k).en with
  | false => exact ⟨counted, (List.append_nil _).symm⟩
  | true =>
    unfold tableAction
    dsimp only
    rw [if_neg (by decide), if_pos rfl]
    generalize bestCand _ = winner
    cases winner with
    | none => exact ⟨counted.trans (serviceOnly_count ..), rfl⟩
    | some c =>
      dsimp only
      cases c.fallback with
      | none => exact ⟨counted.trans (serviceOnly_count ..), rfl⟩
      | some g => exact ⟨counted.trans (serviceOnly_count ..), rfl⟩

/-- Settles O55: no candidate precedes the winner; each enabled table's action is its winner's. -/
theorem lowestPriorityWins : Obligations.LowestPriorityWins := by
  refine ⟨?empty, ?winner, ?actions⟩
  case empty => exact fun l => bestCand_eq_none
  case winner =>
    intro l b best
    obtain ⟨member, first⟩ := bestCand_eq_some best
    refine ⟨member, fun x hx => ?_⟩
    have notBefore := first x hx
    rw [candBefore_iff] at notBefore
    omega
  case actions => exact searchTables_actions

end Sys2Proof.Machine
end

section
namespace Sys2Proof.Machine

/-! ## The longest of the covering prefixes (R166 to R169, R174) -/

/-! ### A node -/

/-- INT_BMP position, among prefixes of relative length l, of the one that covers the next 8 address bits v. -/
abbrev coverPos (l v : Nat) : Nat := intPos l (v / 2 ^ (8 - l))

/-- A node looks for its prefixes from the longest down: the k-th one it looks for has length 8 - k. -/
theorem nodeHit_eq_find (w v : Nat) : nodeHit w v =
    ((List.range 8).find? fun k => (intBmp w).testBit (coverPos (8 - k) v)).map
      fun k => (8 - k, resBase w + popBelow (intBmp w) (coverPos (8 - k) v)) := by
  rw [List.find?_eq_findSome?_guard, List.map_findSome?]
  unfold nodeHit
  congr 1
  funext k
  simp only [Function.comp_apply, Option.guard_apply]
  split <;> rfl

/-- The result of a node is the longest of its prefixes that covers the next bits. -/
theorem nodeHit_eq_some {w v l a : Nat} (hit : nodeHit w v = some (l, a)) :
    1 ≤ l ∧ l ≤ 8 ∧ (intBmp w).testBit (coverPos l v) = true ∧ a = resBase w + popBelow (intBmp w) (coverPos l v) ∧
      ∀ k, l < k → k ≤ 8 → (intBmp w).testBit (coverPos k v) = false := by
  rw [nodeHit_eq_find, Option.map_eq_some_iff] at hit
  obtain ⟨k, found, result⟩ := hit
  obtain ⟨rfl, rfl⟩ := Prod.mk.inj result
  obtain ⟨set, member, longer⟩ := List.find?_range_eq_some.mp found
  have hk : k < 8 := List.mem_range.mp member
  refine ⟨by omega, by omega, set, rfl, fun l hlong hl => ?_⟩
  have clear := longer (8 - l) (by omega)
  rwa [Nat.sub_sub_self hl, Bool.not_eq_true'] at clear

theorem nodeHit_eq_none {w v : Nat} :
    nodeHit w v = none ↔ ∀ l, 1 ≤ l → l ≤ 8 → (intBmp w).testBit (coverPos l v) = false := by
  rw [nodeHit_eq_find, Option.map_eq_none_iff, List.find?_range_eq_none]
  simp only [Bool.not_eq_true']
  constructor
  · intro clear l hpos hl
    have short := clear (8 - l) (by omega)
    rwa [Nat.sub_sub_self hl] at short
  · exact fun clear k hk => clear (8 - k) (by omega) (by omega)

/-! ### A walk -/

section
variable {s : State} {bad : Nat → Nat → Bool} {width addr n m ptr r i l a : Nat} {best : Option (Nat × Nat)}

/-- The stride stages record no bad word where none is bad. -/
theorem walkNodes_good (good : ∀ m a, bad m a = false) :
    ∀ {n m ptr : Nat} {best : Option (Nat × Nat)}, (walkNodes s bad width addr n m ptr best).2 = none
  | 0, _, _, _ => rfl
  | n + 1, m, ptr, best => by
    have anyGood (hit : Option (Nat × Nat)) : (hit.any fun _ => false) = false := by cases hit <;> rfl
    unfold walkNodes
    simp only [good, anyGood, Bool.false_eq_true, if_false]
    split
    · rfl
    · split
      · exact walkNodes_good good
      · rfl

theorem walkNodes_badNode (inside : stagePos m < width) (hbad : bad m ptr = true) :
    walkNodes s bad width addr (n + 1) m ptr best = (best, some (m, ptr)) :=
  (if_neg (Nat.not_le.mpr inside)).trans (if_pos hbad)

theorem walkNodes_badResult (inside : stagePos m < width) (good : bad m ptr = false)
    (hit : nodeHit (nodeWord s m ptr) (addr / 2 ^ (width - stagePos m - 8) % 256) = some (l, a)) (hbad : bad 15 a = true) :
    walkNodes s bad width addr (n + 1) m ptr best = (best, some (15, a)) := by
  unfold walkNodes
  simp only [Nat.not_le.mpr inside, good, hit, hbad, Option.any_some, Option.map_some, Bool.false_eq_true, if_false, if_true]

theorem walkTrie_good (good : ∀ m a, bad m a = false) : (walkTrie s bad r addr).2 = none := by
  unfold walkTrie
  simp only [good, Bool.false_eq_true, if_false]
  split
  · exact walkNodes_good good
  · rfl

theorem walkTrie_badSlot (hi : i = addr / 2 ^ (rootWidth s r - 16) % 65536) (hbad : bad 0 (r * 65536 + i) = true) :
    walkTrie s bad r addr = ((tget s.trie.dflt r).map fun nh => (nh, 0), some (0, r * 65536 + i)) := by
  subst hi
  exact if_pos hbad

/-- A good slot without a child answers its own result, else the root's default. -/
theorem walkTrie_childless (hi : i = addr / 2 ^ (rootWidth s r - 16) % 65536) (good : bad 0 (r * 65536 + i) = false)
    (childless : slotHasChild (slotWord s r i) = false) : walkTrie s bad r addr =
      (if directValid (slotWord s r i) then some (slotNh (slotWord s r i), slotExplen (slotWord s r i))
       else (tget s.trie.dflt r).map fun nh => (nh, 0), none) := by
  have noKid : slotKid (slotWord s r i) = none := if_neg (Bool.eq_false_iff.mp childless)
  unfold walkTrie
  simp only [← hi, good, noKid, slotRes, Bool.false_eq_true, if_false]
  cases directValid (slotWord s r i) <;> rfl

end

/-! ### The installed prefixes -/

/-- The installed prefixes within a length limit that cover an address. -/
abbrev covering (s : State) (r : Nat) (addr : BitVec 128) (lim : Nat) : List Pfx :=
  s.lpm.filter fun p => p.root = r && p.len ≤ lim && covers (rootWidth s r) p addr

/-- The best of the installed prefixes is what a scan for the longest of those that cover the address keeps. -/
theorem lpmBest_eq_foldl (s : State) (r : Nat) (addr : BitVec 128) (lim : Nat) :
    lpmBest s r addr lim = (covering s r addr lim).foldl (keepFirst fun p q => q.len < p.len) none := by
  unfold lpmBest
  congr 1
  funext held p
  cases held with
  | none => rfl
  | some q => rfl

theorem longer_asymm (p q : Pfx) : q.len < p.len → ¬p.len < q.len := Nat.lt_asymm

theorem longer_negTrans (p q r : Pfx) : ¬q.len < p.len → ¬r.len < q.len → ¬r.len < p.len := by omega

theorem lpmBest_eq_none {s : State} {r lim : Nat} {addr : BitVec 128} :
    lpmBest s r addr lim = none ↔ covering s r addr lim = [] := by
  rw [lpmBest_eq_foldl]
  exact foldl_keepFirst_eq_none longer_asymm longer_negTrans

theorem lpmBest_eq_some {s : State} {r lim : Nat} {addr : BitVec 128} {p : Pfx} (best : lpmBest s r addr lim = some p) :
    p ∈ covering s r addr lim ∧ ∀ q ∈ covering s r addr lim, ¬p.len < q.len :=
  foldl_keepFirst_eq_some longer_asymm longer_negTrans ((lpmBest_eq_foldl s r addr lim).symm.trans best)

theorem mem_covering {s : State} {r lim : Nat} {addr : BitVec 128} {p : Pfx} :
    p ∈ covering s r addr lim ↔
      p ∈ s.lpm ∧ p.root = r ∧ p.len ≤ lim ∧ covers (rootWidth s r) p addr = true := by
  simp only [List.mem_filter, Bool.and_eq_true, decide_eq_true_eq, and_assoc]

/-- A `Pfx` covers an address where their bits agree from its last one up. -/
theorem covers_iff (w : Nat) (p : Pfx) (addr : BitVec 128) :
    covers w p addr = true ↔ ∀ b, w - p.len ≤ b → p.addr.getLsbD b = addr.getLsbD b := by
  rw [covers, decide_eq_true_eq]
  constructor
  · intro agree b hb
    have bits := congrArg (Nat.testBit · (b - (w - p.len))) agree
    simpa only [Nat.testBit_shiftRight, BitVec.testBit_toNat, Nat.add_sub_cancel' hb] using bits
  · intro agree
    refine Nat.eq_of_testBit_eq fun b => ?_
    rw [Nat.testBit_shiftRight, Nat.testBit_shiftRight, BitVec.testBit_toNat, BitVec.testBit_toNat]
    exact agree _ (Nat.le_add_right ..)

/-- Settles O56: the result of a node, the ends of a walk, the longest of the covering prefixes. -/
theorem longestPrefixWins : Obligations.LongestPrefixWins := by
  refine ⟨?nodeHit, ?nodeMiss, ?child, ?good, ?badSlot, ?childless, ?badNode, ?badResult, ?best, ?noBest, ?covers⟩
  case nodeHit => exact fun w v l a => nodeHit_eq_some
  case nodeMiss => exact fun w v => nodeHit_eq_none
  case child => exact fun w v => rfl
  case good => exact fun s bad r addr => walkTrie_good
  case badSlot => exact fun s bad r addr i => walkTrie_badSlot
  case childless => exact fun s bad r addr i => walkTrie_childless
  case badNode => exact fun s bad width addr n m ptr best => walkNodes_badNode
  case badResult => exact fun s bad width addr n m ptr l a best => walkNodes_badResult
  case best =>
    intro s r lim addr p best
    obtain ⟨member, longest⟩ := lpmBest_eq_some best
    obtain ⟨installed, hroot, hlim, hcovers⟩ := mem_covering.mp member
    exact ⟨installed, hroot, hlim, hcovers, fun q hq root limit cover =>
      Nat.not_lt.mp (longest q (mem_covering.mpr ⟨hq, root, limit, cover⟩))⟩
  case noBest =>
    intro s r lim addr
    rw [lpmBest_eq_none, List.eq_nil_iff_forall_not_mem]
    simp only [mem_covering, not_and, Bool.not_eq_true]
  case covers => exact fun w p addr _ => covers_iff w p addr

end Sys2Proof.Machine
end

section
namespace Sys2Proof.Machine

/-! ## Rule slabs: bank select and self-test (R183 to R186) -/

/-- A write of TCM_BANK_SEL in a running tile. -/
theorem execTcmBankSelWrite_running {t : Nat} {v : Word} {s : State} (hup : hifUp s = true) (hrun : tileRunning s t = true) :
    execTcmBankSelWrite t v s = .next (bankSelWrite t v s) := congrArg _ (iff_of _ _ (by rw [hup, hrun]; rfl))

/-- While TILE_GO is clear the write stores mode and groups; mode TEST outside a self-test starts one (R185). -/
theorem bankSelWrite_stopped {t : Nat} {v : Word} {s : State} (hgo : tileGoBit s t = false) :
    bankSelWrite t v s =
      let u := setBank t (fld v 1 0) (fld v 7 4) s
      if fld v 1 0 = 2 && rfld s .tcmStat t 0 30 30 = 0 then
        rset .tcmStat t 0 30 30 1 { u with tcm := { u.tcm with saved := tput u.tcm.saved t (some (rget s .tcmBankSel t 0)) } }
      else u := if_neg (Bool.eq_false_iff.mp hgo)

/-- The end of a self-test whose mode is still TEST returns the word that was saved (R185, R186). -/
theorem execSlabSelfTestEnd_returns {t : Nat} {failed : List (Nat × Nat)} {w : Word} {s : State} (ht : t < 8)
    (htesting : rfld s .tcmStat t 0 30 30 = 1) (hmode : fld (rget s .tcmBankSel t 0) 1 0 = 2)
    (hsaved : tget s.tcm.saved t = some w) : execSlabSelfTestEnd t failed s = .next (
      fenceSlabs t (failed.map fun x => (t * 8 + x.1, x.2)) (rset .tcmStat t 0 30 30 0 (rput .tcmBankSel t 0 w
        (clearValid t ((List.range 4).filter fun g => !(fld (rget s .tcmBankSel t 0) 7 4).testBit g) s)))) := by
  have kept (groups : List Nat) : tget (clearValid t groups s).tcm.saved t = some w := hsaved
  refine congrArg _ ((iff_of _ _ (by rw [decide_eq_true ht, decide_eq_true htesting]; rfl)).trans ?_)
  simp only [kept, hmode, if_true]

/-- Settles O12: the write by TILE_GO and by the mode written, the end of a self-test by what it saved. -/
theorem slabEventsComplete : Obligations.SlabEventsComplete := by
  refine ⟨?awake, ?refused, ?stores, ?starts, ?ends⟩
  case awake => exact fun t g s => rfl
  case refused => exact fun t v s hup hrun hgo => (execTcmBankSelWrite_running hup hrun).trans (congrArg _ (if_pos hgo))
  case stores =>
    intro t v s hup hrun hgo hmode
    refine (execTcmBankSelWrite_running hup hrun).trans (congrArg _ ((bankSelWrite_stopped hgo).trans (if_neg ?_)))
    rw [decide_eq_false hmode]
    exact Bool.false_ne_true
  case starts =>
    intro t v s hup hrun hgo hmode hidle
    refine (execTcmBankSelWrite_running hup hrun).trans (congrArg _ ((bankSelWrite_stopped hgo).trans ((if_pos ?_).trans ?_)))
    · rw [decide_eq_true hmode, decide_eq_true hidle]
      rfl
    · rw [hmode]
  case ends => exact fun t failed w s => execSlabSelfTestEnd_returns

end Sys2Proof.Machine
end

section
namespace Sys2Proof.Machine

/-! ## LPM and TCM commands (R169 to R172, R175 to R180): what each does once it runs -/

section
variable {c : Cmd} {q : Pfx} {s u : State}

/-- The `Pfx` that LPM.INS makes of its operands, charged to a slice. -/
abbrev insertedPfx (c : Cmd) (slice : Nat) : Pfx :=
  { root := lpmR c, len := lpmLen c, addr := opKey c 8, nh := opf c 5 17 0, slice := slice }

/-- LPM.INS where none is stored: it installs within the slice's share (R170). -/
theorem execLpmIns_new (runs : Runs c 0x81 .any (lpmChecks c s true (some (lpmLen c))) s) (hu : u = noteCmd c s)
    (missing : lpmExact u (lpmR c) (lpmLen c) (opKey c 8) = none) :
    execLpmIns c s = .next (
      if lpmShare u < lpmUse u (lpmCharge c u) + unitCost u (lpmR c) (lpmLen c) then fin c stTABLE_FULL [] u
      else fin c stOK [] (lpmPut (insertedPfx c (lpmCharge c u)) u)) := by
  refine (next_runCmd _ runs hu).trans ?_
  simp only [missing]

/-- LPM.INS where one is stored: REPLACE decides, and its slice stays. -/
theorem execLpmIns_stored (runs : Runs c 0x81 .any (lpmChecks c s true (some (lpmLen c))) s) (hu : u = noteCmd c s)
    (stored : lpmExact u (lpmR c) (lpmLen c) (opKey c 8) = some q) :
    execLpmIns c s = .next (
      if opb c 4 12 then fin c stOK [] (lpmPut (insertedPfx c q.slice) u) else fin c stEXISTS [] u) := by
  refine (next_runCmd _ runs hu).trans ?_
  simp only [stored]
  cases opb c 4 12 <;> rfl

end

/-- Settles O28: each command in its frame (`next_runCmd`), then the branch that its hypotheses name. -/
theorem prefixAndRuleCommandsComplete : Obligations.PrefixAndRuleCommandsComplete := by
  refine ⟨?insert, ?insertFull, ?insertExists, ?replace, ?delete, ?search, ?lookup, ?next, ?write, ?writeExists, ?valid, ?action,
    ?read, ?baseline, ?deleteMissing, ?searchMissing, ?lookupMissing, ?nextMissing⟩
  case insert =>
    exact fun c s u runs hu missing share =>
      (execLpmIns_new runs hu missing).trans (congrArg _ (if_neg (Nat.not_lt.mpr share)))
  case insertFull =>
    exact fun c s u runs hu missing full => (execLpmIns_new runs hu missing).trans (congrArg _ (if_pos full))
  case insertExists =>
    exact fun c q s u runs hu stored keep =>
      (execLpmIns_stored runs hu stored).trans (congrArg _ (if_neg (Bool.eq_false_iff.mp keep)))
  case replace =>
    exact fun c q s u runs hu stored replace => (execLpmIns_stored runs hu stored).trans (congrArg _ (if_pos replace))
  case delete =>
    exact fun c q s u runs hu stored => (next_runCmd _ runs hu).trans (by simp only [stored, lpmDrop])
  case deleteMissing =>
    exact fun c s u runs hu missing => (next_runCmd _ runs hu).trans (by simp only [missing])
  case search =>
    exact fun c q s u runs hu stored => (next_runCmd _ runs hu).trans (by simp only [stored])
  case searchMissing =>
    exact fun c s u runs hu missing => (next_runCmd _ runs hu).trans (by simp only [missing])
  case lookup =>
    exact fun c nh len s u v runs hu found => (next_runCmd _ runs hu).trans (by simp only [found])
  case lookupMissing =>
    exact fun c s u v runs hu missing => (next_runCmd _ runs hu).trans (by simp only [missing])
  case next =>
    exact fun c q s u runs hu after => (next_runCmd _ runs hu).trans (by simp only [after])
  case nextMissing =>
    exact fun c s u runs hu missing => (next_runCmd _ runs hu).trans (by simp only [missing])
  case write =>
    exact fun c s u runs hu invalid => (next_runCmd _ runs hu).trans (congrArg _ (if_neg (Bool.eq_false_iff.mp invalid)))
  case writeExists => exact fun c s u runs hu valid => (next_runCmd _ runs hu).trans (congrArg _ (if_pos valid))
  case valid => exact fun c s u => next_runCmd _
  case action => exact fun c s u => next_runCmd _
  case read =>
    intro c gp s u hgp runs hu
    subst hgp
    exact next_runCmd _ runs hu
  case baseline =>
    intro c run s u hrun runs hu
    subst hrun
    exact next_runCmd _ runs hu

end Sys2Proof.Machine
end

section
namespace Sys2Proof.Machine

/-! ## ACT commands (R199 to R209): what each does once it runs -/

section
variable {c : Cmd} {g : Nat} {s u : State}

/-- The next hop that the command names is in the group's list. -/
abbrev memberListed (c : Cmd) (g : Nat) (s : State) : Bool :=
  (tget s.act.mcast g).members.any fun m => m.nh = opf c 5 17 0

/-- The member that ACT.MEM_ADD makes of its operands (R205). -/
abbrev addedMember (c : Cmd) : Member := { nh := opf c 5 17 0, srcPrune := opb c 5 18 }

/-- ACT.MEM_ADD: a listed member stays as it is, a new one wants room; each end computes DEST_TILES (R205, R207). -/
theorem execActMemAdd_runs (hg : g = opf c 4 15 0) (runs : Runs c 0x106 .any (partChecks c s (!opb c 5 19) 65536 g) s)
    (hu : u = noteCmd c s) : execActMemAdd c s = .next (
      if memberListed c g u then fin c stEXISTS [] (setMembers g (tget u.act.mcast g).members u)
      else if membersFull u g then fin c stTABLE_FULL [] (setMembers g (tget u.act.mcast g).members u)
      else fin c stOK [] (setMembers g ((tget u.act.mcast g).members ++ [addedMember c]) u)) := by
  subst hg
  exact next_runCmd _ runs hu

/-- ACT.MEM_DEL: a listed member leaves; each end computes DEST_TILES (R207). -/
theorem execActMemDel_runs (hg : g = opf c 4 15 0) (runs : Runs c 0x107 .any (partChecks c s false 65536 g) s)
    (hu : u = noteCmd c s) : execActMemDel c s = .next (
      if memberListed c g u then
        fin c stOK [] (setMembers g ((tget u.act.mcast g).members.filter fun m => m.nh ≠ opf c 5 17 0) u)
      else fin c stNOT_FOUND [] (setMembers g (tget u.act.mcast g).members u)) := by
  subst hg
  exact next_runCmd _ runs hu

end

/-- Settles O29: each command in its frame (`next_runCmd`), then the branch of the member list that its hypotheses name. -/
theorem actionCommandsComplete : Obligations.ActionCommandsComplete := by
  refine ⟨?hopWrite, ?hopRead, ?group, ?bucket, ?bucketRead, ?add, ?addListed, ?delete, ?mirror, ?addFull, ?deleteMissing⟩
  case hopWrite => exact fun c s u => next_runCmd _
  case hopRead => exact fun c s u => next_runCmd _
  case group => exact fun c s u => next_runCmd _
  case bucket => exact fun c s u => next_runCmd _
  case bucketRead => exact fun c s u => next_runCmd _
  case mirror => exact fun c s u => next_runCmd _
  case add =>
    exact fun c g s u hg runs hu new room => (execActMemAdd_runs hg runs hu).trans
      (congrArg _ ((if_neg (Bool.eq_false_iff.mp new)).trans (if_neg (Bool.eq_false_iff.mp room))))
  case addListed =>
    exact fun c g s u hg runs hu listed => (execActMemAdd_runs hg runs hu).trans (congrArg _ (if_pos listed))
  case addFull =>
    exact fun c g s u hg runs hu new full => (execActMemAdd_runs hg runs hu).trans
      (congrArg _ ((if_neg (Bool.eq_false_iff.mp new)).trans (if_pos full)))
  case delete =>
    exact fun c g s u hg runs hu listed => (execActMemDel_runs hg runs hu).trans (congrArg _ (if_pos listed))
  case deleteMissing =>
    exact fun c g s u hg runs hu missing =>
      (execActMemDel_runs hg runs hu).trans (congrArg _ (if_neg (Bool.eq_false_iff.mp missing)))

end Sys2Proof.Machine
end

section
namespace Sys2Proof.Machine

/-! ## Cells and their NOTICE (R214, R219, R224, R225, R239, R240, R265) -/

/-- A message received answers what its kind makes of the state without it. -/
theorem next_receive {src dst : Nat} {k : Msg → Bool} {w : Wire} {m : Msg} {s u : State} (f : Msg → State → State)
    (received : Received src dst k w s u) (hmsg : w.msg = m) : (.next (receive src dst true k f s) : Res) = .next (f m u) :=
  hmsg ▸ congrArg _ (receive_received f received)

/-- A stored frame of a running tile deals the next cell of the first destination that is ready and whose link takes it (R212). -/
theorem execCellSpread_deals {fid : Nat} {f : Frame} {d : Deal} {c : Cell} {r : List Cell} {s : State} (hf : frame? s fid = some f)
    (hphase : f.phase = .stored) (hrun : tileRunning s f.tile = true)
    (hdeal : f.deals.find? (fun d => cellReady f d && linkTakes s f d) = some d) (hcells : d.cells = c :: r) :
    execCellSpread fid s = .next (spreadCell f d c s) := by
  unfold execCellSpread
  simp only [hf, hphase, hrun, hdeal, hcells, decide_true, Bool.and_self, if_true]

/-- A cell that neither a fence nor a filter of its tile names is placed (R229, R231). -/
theorem arriveCell_placed {dst : Nat} {c : Cell} {s : State} (known : knowsFenced s dst (leafTile c.leaf) = false)
    (unfiltered : s.fab.filters.any (fun x => x.tile = dst && inNote x.note c) = false) :
    arriveCell dst (.spread c) s = placeCell dst c s := by
  unfold arriveCell
  simp only [known, unfiltered, Bool.false_eq_true, if_false]

/-- A whole cell written without a finding activates its row and ends its poison mark. -/
theorem writeCell_clean (t i : Nat) (s : State) : writeCell t i true .clean s =
    (false, setChannel (cellChannel t i) (fun y => { y with marks := y.marks.filter (· ≠ i) }) (touchCell t i true s)) := rfl

/-- The oldest spill write ends without a finding: its bytes, padded to a cell, lie in DRAM, and no poison is added (R265). -/
theorem execSpillWriteDone_clean {t i : Nat} {h : Held} {s u : State} (hspill : oldestSpill s t = some (h, i))
    (hu : u = writeMem (dramAddr t i 0) ((h.cell.data ++ List.replicate 256 0).take 256) (writeCell t i true .clean s).2) :
    execSpillWriteDone ⟨t, .clean⟩ s = .next (pumpDram t { u with fab := { u.fab with
      held := u.fab.held.map (fun x => if x = h then { x with place := .dram i } else x)
      reads := if h.pulled then u.fab.reads ++ [(t, i)] else u.fab.reads } }) := by
  subst hu
  unfold execSpillWriteDone
  simp only [hspill, writeCell_clean, spillWritten, Bool.or_false, Bool.false_eq_true, if_false]

/-- A NOTICE for a port that is up: recorded, its leaf deeper by its cells, and the port's scheduling goes on (R219, R258). -/
theorem arriveNotice_selects {dst p : Nat} {n : Notice} {s v : State}
    (hv : v = setLeaf n.leaf (fun l => { l with depth := min 134217727 (l.depth + n.cells) })
      { s with fab := { s.fab with notices := s.fab.notices ++ [n] } })
    (hleaf : isReplLeaf v n.leaf = false) (hport : leafPort v n.leaf = some p) (hup : portUp v p = true) :
    arriveNotice dst (.notice n) s = selectPort p v := by
  subst hv
  unfold arriveNotice
  simp only [hleaf, hport, hup, Bool.not_true, Bool.false_and, Bool.false_eq_true, if_false]

/-! ### Returns -/

/-- A held cell with bytes to give is no placeholder and no poison: a RETURN of those bytes answers its PULL (R224, R240). -/
theorem answerOf_whole {h : Held} (hholder : h.cell.holder = false) (hpoison : h.poison = false) : answerOf h = .ret h.cell := by
  simp only [answerOf, hholder, hpoison, Bool.or_self, Bool.false_eq_true, if_false]

theorem answerWords_whole {h : Held} (hholder : h.cell.holder = false) (hpoison : h.poison = false) :
    answerWords h = cellWords h.cell := by
  simp only [answerWords, hholder, hpoison, Bool.or_self, Bool.false_eq_true, if_false]

/-- A due cell with bytes leaves on a link that has a slot, is freed, and is counted (R224, R241). -/
theorem execReturnSend_returns {t d : Nat} {h : Held} {s : State} (hsrc : tileRunning s t = true) (hdst : tileRunning s d = true)
    (hdue : dueCell s t d = some h) (hholder : h.cell.holder = false) (hpoison : h.poison = false) (hne : t ≠ d)
    (hlink : canSend s t d kindReturn (cellWords h.cell) = true) (hwords : 0 < cellWords h.cell) :
    execReturnSend t d s = .next (tileCnt t 1 1 (send t d (.ret h.cell)
      (useLink t d kindReturn (cellWords h.cell) { s with fab := { s.fab with held := s.fab.held.erase h } }))) := by
  have counted : (decide (t ≠ d) && decide (cellWords h.cell ≠ 0)) = true := by
    rw [decide_eq_true hne, decide_eq_true (Nat.ne_of_gt hwords), Bool.and_self]
  unfold execReturnSend
  simp only [hsrc, hdst, hdue, answerOf_whole hholder hpoison, answerWords_whole hholder hpoison, hlink, Bool.and_self,
    Bool.not_true, Bool.false_eq_true, if_false]
  rw [iff_of _ _ counted]

/-- A reorder timeout at an assembly that still waits for the position (R225). -/
theorem execReseqTimeout_owed {t src leaf ssn pos : Nat} {s : State}
    (howed : s.fab.asms.any (asmOwed t src leaf ssn pos) = true) :
    execReseqTimeout t src leaf ssn pos s = .next (tileCnt t 4 1 (missPosition t src leaf ssn pos s)) :=
  congrArg _ (iff_of _ _ howed)

/-- Settles O15: a message's row is its receipt, then what its kind does; each other row is the branch its hypotheses name. -/
theorem storeCellsComplete : Obligations.StoreCellsComplete := by
  refine ⟨?spread, ?arrival, ?badCell, ?spill, ?notice, ?pull, ?answer, ?answered, ?timeout⟩
  case spread => exact fun fid f d c r s => execCellSpread_deals
  case arrival =>
    intro src dst c w s u received hmsg known nofilters
    refine (next_receive _ received hmsg).trans (congrArg _ (arriveCell_placed known ?_))
    rw [nofilters]
    rfl
  case badCell =>
    intro src dst c w s u taken hmsg hrun
    exact congrArg _ (receive_bad _ taken hrun (by rw [hmsg]; rfl))
  case spill => exact fun t i h s hspill => execSpillWriteDone_clean hspill rfl
  case notice =>
    intro src dst p n w s u received hmsg v hleaf hport hup
    exact (next_receive _ received hmsg).trans (congrArg _ (arriveNotice_selects rfl hleaf hport hup))
  case pull => exact fun src dst w s u received => next_receive _ received rfl
  case answer => exact fun t d h s => execReturnSend_returns
  case answered => exact fun src dst w s u received => congrArg _ (receiveOr_received _ _ received)
  case timeout => exact fun t src leaf ssn pos s => execReseqTimeout_owed

end Sys2Proof.Machine
end

section
namespace Sys2Proof.Machine

/-! ## Eviction, push-out and PORT_IDLE (R219, R228, R229, R247, R248) -/

/-- An EVICT_REQ below the arriving class evicts the leaf's newest frame not pulled (R228). -/
theorem arriveEvictReq_evicts {src dst l cls : Nat} {n : Notice} {s : State} (hclass : leafClass l < cls)
    (hvictim : newestNotice s l = some n) :
    arriveEvictReq src dst (.evictReq l cls) s = dropLeaf l 1 (16 + 2) (evictNote dst n s) := by
  unfold arriveEvictReq
  simp only [hclass, hvictim, if_true]

/-- An EVICT_REQ for a leaf of the arriving class or above is refused (R248). -/
theorem arriveEvictReq_refuses {src dst l cls : Nat} {s : State} (hclass : cls ≤ leafClass l) :
    arriveEvictReq src dst (.evictReq l cls) s = tileCnt dst 11 1 (send dst src (.evictNack l) s) := by
  unfold arriveEvictReq
  simp only [Nat.not_lt.mpr hclass, if_false]

/-- An EVICT where the tile's filter has room (R229). -/
theorem arriveEvict_room {dst : Nat} {n : Notice} {s : State} (room : (s.fab.filters.filter fun x => x.tile = dst).length < 64) :
    arriveEvict dst (.evict n) s = { s with fab := { s.fab with
      held := s.fab.held.filter (fun h => !(h.tile = dst && inNote n h.cell))
      filters := s.fab.filters ++ [{ tile := dst, note := n }] } } := by
  unfold arriveEvict
  simp only [Nat.not_le_of_lt room, if_false]

/-- An EVICT_NACK: the oldest frame that tried the leaf tries the next class (R247). -/
theorem arriveNack_retries {dst l k v c : Nat} {f : Frame} {s : State} (hf : s.frames.find? (triedLeaf dst l) = some f)
    (hphase : f.phase = .pushout k v c) : arriveNack dst (.evictNack l) s = pushOut f k (c + 1) s := by
  unfold arriveNack
  simp only [hf, hphase]

/-- At the end of its push-out the frame is admitted, and those behind it (R247). -/
theorem execPushoutTimeout_admits {fid k v c : Nat} {f : Frame} {s : State} (hf : frame? s fid = some f)
    (hphase : f.phase = .pushout k v c) : execPushoutTimeout fid s = .next (dealAdmitted f.tile (admitFrame f s)) := by
  unfold execPushoutTimeout
  simp only [hf, hphase]

/-- Settles O17: a message's row is its receipt, then what its kind does; each other row is the branch its hypotheses name. -/
theorem evictionRowsComplete : Obligations.EvictionRowsComplete := by
  refine ⟨?request, ?refused, ?evict, ?nack, ?pushed, ?expiry, ?idleSend, ?idleReceive⟩
  case request =>
    intro src dst l cls n w s u received hmsg hclass hvictim
    exact (next_receive _ received hmsg).trans (congrArg _ (arriveEvictReq_evicts hclass hvictim))
  case refused =>
    intro src dst l cls w s u received hmsg hclass
    exact (next_receive _ received hmsg).trans (congrArg _ (arriveEvictReq_refuses hclass))
  case evict =>
    intro src dst n w s u received hmsg room
    exact (next_receive _ received hmsg).trans (congrArg _ (arriveEvict_room room))
  case nack =>
    intro src dst l k v c f w s u received hmsg hf hphase
    exact (next_receive _ received hmsg).trans (congrArg _ (arriveNack_retries hf hphase))
  case pushed => exact fun fid k v c f s => execPushoutTimeout_admits
  case expiry => exact fun t s => rfl
  case idleSend => exact fun t s hrun => congrArg _ (iff_of _ _ hrun)
  case idleReceive => exact fun src dst b w s u received hmsg => next_receive _ received hmsg

end Sys2Proof.Machine
end

section
namespace Sys2Proof.Machine

/-! ## A failed link, a fence, the bank swap and the commit (R227, R230, R231, R235, R325) -/

/-- A link with 16 CRC failures in the last 1 ms at a running tile is declared failed (R227). -/
theorem execLinkDeclaredFailed_declares {rx tx : Nat} {s : State} (hne : rx ≠ tx) (hrun : tileRunning s rx = true)
    (hfails : 16 ≤ ((tget s.fab.crcFails (rx * 8 + tx)).filter fun x => s.tim.frc < x + 1000000).length) :
    execLinkDeclaredFailed rx tx s = .next (report (unitId 9 (rx * 8 + tx)) 0x0207 0 0 (rset .latLinkErr rx 0 tx tx 1 s)) :=
  congrArg _ (iff_of _ _ (by rw [decide_eq_true hne, hrun, decide_eq_true hfails]; rfl))

/-- A running tile acts on the fence of another that is out of service, once (R230). -/
theorem execFenceReceive_acts {t f : Nat} {s : State} (hrun : tileRunning s t = true) (hne : t ≠ f) (hf : f < 8)
    (hout : tileRunning s f = false) (hnew : rfld s .latCalStat t 0 (16 + f) (16 + f) = 0) :
    execFenceReceive t f s = .next (fenceAt t f s) := by
  unfold execFenceReceive
  simp only [hrun, decide_eq_true hne, decide_eq_true hf, hout, decide_eq_true hnew, Bool.not_false, Bool.and_self, iff_true]

/-- Banks scheduled to swap do, with a shadow image; the running image's bank is then the other one (R235). -/
theorem execBankSwap_swaps {s : State} (hshadow : s.img.shadow.isSome = true)
    (hpending : (runningTiles s).any (swapPending s) = true) :
    execBankSwap s = .next { forEach (runningTiles s) swapBank s with
      img := { s.img with calSwapped := true, other := bankOf (img s) } } :=
  congrArg _ (iff_of _ _ (by rw [hshadow, hpending]; rfl))

theorem execImgCommitSwap_commits {i : Image} {s : State} (hshadow : s.img.shadow = some i) :
    execImgCommitSwap s = .next (commitNow i s) := by
  unfold execImgCommitSwap
  rw [hshadow]

/-- Settles O18: each row is its operation once its condition holds. -/
theorem plaitControlCompletes : Obligations.PlaitControlCompletes := by
  refine ⟨?failed, ?fence, ?swap, ?commit⟩
  case failed => exact fun rx tx s => execLinkDeclaredFailed_declares
  case fence => exact fun t f s => execFenceReceive_acts
  case swap => exact fun s => execBankSwap_swaps
  case commit => exact fun i s => execImgCommitSwap_commits

end Sys2Proof.Machine
end

section
namespace Sys2Proof.Machine

/-! ## GATE and CAL commands (R234, R293, R294, R296, R346): what each does once it runs -/

/-- The checks of CAL.TIMER: an instant, and one not yet passed, where it arms. -/
abbrev timerChecks (c : Cmd) (s : State) : List (Bool × Nat) :=
  [(!opb c 4 4 && !timeOk (opTime c 5), stBAD_OPERAND), (!opb c 4 4 && timePassed s (opTime c 5), stTIME_PASSED)]

theorem timerChecks_arms {c : Cmd} (harm : opb c 4 4 = false) (s : State) :
    timerChecks c s = [(!timeOk (opTime c 5), stBAD_OPERAND), (timePassed s (opTime c 5), stTIME_PASSED)] := by
  simp only [timerChecks, harm, Bool.not_false, Bool.true_and]

/-- A cancel names no instant, so nothing is checked. -/
theorem firstFail_timerChecks_cancel {c : Cmd} (hcancel : opb c 4 4 = true) (s : State) : firstFail (timerChecks c s) = none := by
  simp only [timerChecks, hcancel, Bool.not_true, Bool.false_and]
  rfl

/-- CAL.TIMER that arms. -/
theorem execCalTimer_arms {c : Cmd} {k : Nat} {s u : State} (hk : k = opf c 4 3 0) (harm : opb c 4 4 = false)
    (runs : Runs c 0x201 .any
      [(!timeOk (opTime c 5), stBAD_OPERAND), (timePassed s (opTime c 5), stTIME_PASSED)] s) (hu : u = noteCmd c s) :
    execCalTimer c s = .next (fin c stOK [] (setTimer c.req k { on := true, at_ := opTime c 5, tag := opw c 1 } u)) := by
  subst hk
  rw [← timerChecks_arms harm s] at runs
  exact (next_runCmd _ runs hu).trans (congrArg _ (if_neg (Bool.eq_false_iff.mp harm)))

/-- CAL.TIMER that cancels: a timer that is off is not found (R346). -/
theorem execCalTimer_cancels {c : Cmd} {k : Nat} {s u : State} (hk : k = opf c 4 3 0) (hcancel : opb c 4 4 = true)
    (runs : Runs c 0x201 .any [] s) (hu : u = noteCmd c s) :
    execCalTimer c s = .next (
      if (timer u c.req k).on then fin c stOK [] (setTimer c.req k {} u) else fin c stNOT_FOUND [] u) := by
  subst hk
  obtain ⟨served, allowed, -⟩ := runs
  have runs : Runs c 0x201 .any (timerChecks c s) s := ⟨served, allowed, firstFail_timerChecks_cancel hcancel s⟩
  exact (next_runCmd _ runs hu).trans (congrArg _ (if_pos hcancel))

/-- GATE.RD of a port's list, the shadow or the active one. -/
theorem execGateRd_port {c : Cmd} {p : Nat} {s u : State} (hp : p = opf c 4 9 0) (hport : opb c 4 31 = false)
    (runs : Runs c 0x1C5 .any (gateChecks c s false) s) (hu : u = noteCmd c s) :
    execGateRd c s = .next (fin c stOK
      (listWords (if opb c 5 0 then (gateOf u p).shadow else (gateOf u p).active) (opf c 5 15 8) portEntryBits) u) := by
  subst hp
  simp only [execGateRd, hport, Bool.false_eq_true, if_false]
  exact next_runCmd _ runs hu

/-- GATE.RD of a stream gate's list. -/
theorem execGateRd_stream {c : Cmd} {g : Nat} {s u : State} (hg : g = opf c 4 9 0) (hstream : opb c 4 31 = true)
    (runs : Runs c 0x1C5 .any (partChecks c s (16 ≤ opf c 5 15 8) 1024 g) s) (hu : u = noteCmd c s) :
    execGateRd c s = .next (fin c stOK
      (listWords (if opb c 5 0 then (sgateOf u g).shadow else (sgateOf u g).active) (opf c 5 15 8) sgEntryBits) u) := by
  subst hg
  simp only [execGateRd, hstream, if_true]
  exact next_runCmd _ runs hu

/-- Settles O31: each command in its frame (`next_runCmd`); GATE.RD by the kind of its gate, CAL.TIMER by whether it arms. -/
theorem gateAndTimerCommandsComplete : Obligations.GateAndTimerCommandsComplete := by
  refine ⟨?write, ?writeStream, ?commit, ?commitStream, ?read, ?readStream, ?arm, ?cancel, ?slot, ?cancelOff⟩
  case write | writeStream | commit | commitStream =>
    rintro c i s u rfl runs hu
    exact next_runCmd _ runs hu
  case read => exact fun c p s u => execGateRd_port
  case readStream => exact fun c g s u => execGateRd_stream
  case arm => exact fun c k s u => execCalTimer_arms
  case cancel =>
    exact fun c k s u hk hcancel runs hu on => (execCalTimer_cancels hk hcancel runs hu).trans (congrArg _ (if_pos on))
  case cancelOff =>
    exact fun c k s u hk hcancel runs hu off =>
      (execCalTimer_cancels hk hcancel runs hu).trans (congrArg _ (if_neg (Bool.eq_false_iff.mp off)))
  case slot => exact fun c s u => next_runCmd _

end Sys2Proof.Machine
end

section
namespace Sys2Proof.Machine

/-! ## Stripe patterns (R215) -/

/-- The tiles from a source round the eight, without one: what a 7-tile pattern's positions run over (R215). -/
abbrev tilesAround (f t : Nat) : List Nat := ((List.range 8).map fun j => (t + j) % 8).filter (· ≠ f)

/-- Eight tiles in a row meet each tile once, so leaving one out leaves seven. -/
theorem length_tilesAround {f t : Nat} (hf : f < 8) (ht : t < 8) : (tilesAround f t).length = 7 := by
  have every : ∀ f < 8, ∀ t < 8, (tilesAround f t).length = 7 := by decide
  exact every f hf t ht

theorem map_getD_range {α : Type} (l : List α) (d : α) : (List.range l.length).map (fun k => l.getD k d) = l := by
  refine List.ext_getElem (by simp) fun k hk hl => ?_
  rw [List.getElem_map, List.getElem_range, List.getD_eq_getElem?_getD, List.getElem?_eq_getElem hl, Option.getD_some]

theorem patLen_seven {f : Nat} (hf : f < 8) : patLen f = 7 := if_neg (Nat.not_le_of_lt hf)

theorem patTile_eight (t k : Nat) : patTile 8 t k = (t + k) % 8 := if_pos (Nat.le_refl 8)

theorem patTile_seven {f : Nat} (hf : f < 8) (t k : Nat) : patTile f t k = (tilesAround f t).getD k t :=
  if_neg (Nat.not_le_of_lt hf)

theorem patTiles_seven {f t : Nat} (hf : f < 8) (ht : t < 8) : patTiles f t = tilesAround f t :=
  calc patTiles f t
    _ = (List.range 7).map fun k => (tilesAround f t).getD k t := by
      rw [patTiles, patLen_seven hf]
      exact List.map_congr_left fun k _ => patTile_seven hf t k
    _ = tilesAround f t := by
      rw [← length_tilesAround hf ht]
      exact map_getD_range _ t

/-- All positions of a stripe but its last hold data. -/
theorem dataIndex_eq_none {n : Notice} {ssn k : Nat} (hk : k < patLen n.pattern) :
    dataIndex n (ssn, k) = none ↔ k = patLen n.pattern - 1 := by
  simp only [dataIndex, ite_eq_right_iff, reduceCtorEq, imp_false]
  omega

/-- Settles O54: the 8-tile pattern is its rule; a 7-tile pattern lists its seven tiles in order; parity has the last position. -/
theorem patternPositions : Obligations.PatternPositions := by
  refine ⟨?eight, ?seven, ?parityEight, ?paritySeven, ?withoutFive⟩
  case eight => exact fun t _ => List.map_congr_left fun k _ => patTile_eight t k
  case seven => exact fun f t hf ht _ => ⟨patLen_seven hf, patTiles_seven hf ht⟩
  case parityEight =>
    intro n ssn k hpattern hk
    have len : patLen n.pattern = 8 := by rw [hpattern]; rfl
    rw [dataIndex_eq_none (len ▸ hk), len]
  case paritySeven =>
    intro n ssn k hpattern hk
    have len : patLen n.pattern = 7 := patLen_seven hpattern
    rw [dataIndex_eq_none (len ▸ hk), len]
  case withoutFive => exact patTiles_seven (f := 5) (t := 3) (by decide) (by decide)

end Sys2Proof.Machine
end

section
namespace Sys2Proof.Machine

/-! ## What serving an access changes (R253, R264, R268) -/

/-- Only what serves an access has changed: what serves commands, the engines, the free values drawn, and the frames that the ports
show. -/
def AccessOnly (s t : State) : Prop :=
  ∃ h o n d x e k p, t = { s with hif := h, out := o, tel := n, dram := d, sec := x, engines := e, freeCtr := k, ports := p }

section
variable {s t u : State}

theorem AccessOnly.same : AccessOnly s s := ⟨_, _, _, _, _, _, _, _, rfl⟩

/-- The last change stands first, as in the text of a meaning. -/
theorem AccessOnly.after (b : AccessOnly t u) (a : AccessOnly s t) : AccessOnly s u := by
  obtain ⟨_, _, _, _, _, _, _, _, rfl⟩ := a
  obtain ⟨_, _, _, _, _, _, _, _, rfl⟩ := b
  exact ⟨_, _, _, _, _, _, _, _, rfl⟩

theorem AccessOnly.writeMem (h : AccessOnly s t) (a : Nat) (bs : List Byte) : AccessOnly (writeMem a bs s) (writeMem a bs t) := by
  obtain ⟨_, _, _, _, _, _, _, _, rfl⟩ := h
  exact ⟨_, _, _, _, _, _, _, _, rfl⟩

theorem ServiceOnly.accessOnly (h : ServiceOnly s t) : AccessOnly s t := by
  obtain ⟨_, _, _, _, _, rfl⟩ := h
  exact ⟨_, _, _, _, _, _, _, _, rfl⟩

theorem accessOnly_when {f : State → State} {c : Bool} (h : ∀ s, AccessOnly s (f s)) : AccessOnly s (iff_ c f s) := by
  cases c
  · exact AccessOnly.same
  · exact h s

end

theorem serviceOnly_urgentStops (q home : Nat) (own : Nat → Bool) (s : State) : ServiceOnly s (urgentStops q home own s) :=
  serviceOnly_forEach (β := Nat × Nat) (fun _ => serviceOnly_endPartial _ _) _ s

theorem accessOnly_fin (c : Cmd) (st : Nat) (ret : List (Nat × Word)) (s : State) : AccessOnly s (fin c st ret s) :=
  (serviceOnly_completeWith ..).accessOnly

theorem accessOnly_setEngine (e : Nat) (f : Engine → Engine) (s : State) : AccessOnly s (setEngine e f s) :=
  ⟨_, _, _, _, _, _, _, _, rfl⟩

theorem accessOnly_noteCmd (c : Cmd) (s : State) : AccessOnly s (noteCmd c s) := by
  have stopped {own : Nat → Bool} {home : Nat} : AccessOnly s (iff_ (urgentDesc c.desc) (urgentStops c.req home own) s) :=
    accessOnly_when fun s => (serviceOnly_urgentStops _ _ _ s).accessOnly
  unfold noteCmd
  dsimp only
  split
  · exact (accessOnly_setEngine ..).after stopped
  · exact stopped

theorem accessOnly_activate (ch r bank row : Nat) (s : State) : AccessOnly s (activate ch r bank row s) :=
  (accessOnly_when fun _ => ⟨_, _, _, _, _, _, _, _, rfl⟩).after ⟨_, _, _, _, _, _, _, _, rfl⟩

theorem accessOnly_touchCell (t idx : Nat) (write : Bool) (s : State) : AccessOnly s (touchCell t idx write s) :=
  (accessOnly_when (accessOnly_activate _ _ _ _)).after (accessOnly_activate ..)

theorem accessOnly_bufWritten (h off : Nat) (bs : List Byte) (s : State) : AccessOnly s (bufWritten h off bs s) :=
  ⟨_, _, _, _, _, _, _, _, rfl⟩

end Sys2Proof.Machine
end

section
namespace Sys2Proof.Machine

/-! ## MEM.WR stores its bytes (R253, R264, R334) -/

/-- The bytes that a MEM.WR carries in w8 upwards. -/
abbrev wrBytes (c : Cmd) : List Byte := (bytesOf ((List.range 8).map fun i => opw c (8 + i))).take (memLen c)

@[simp] theorem length_leBytes (n : Nat) : ∀ v, (leBytes n v).length = n := by
  induction n with
  | zero => exact fun _ => rfl
  | succ n ih => exact fun v => congrArg (· + 1) (ih (v / 256))

@[simp] theorem length_bytesOf (l : List Word) : (bytesOf l).length = 4 * l.length := by
  induction l with
  | nil => rfl
  | cons w l ih =>
    simp only [bytesOf, List.flatMap_cons, List.length_append, length_leBytes, List.length_cons] at ih ⊢
    omega

/-- Checks that answer no status have all passed. -/
theorem firstFail_none {l : List (Bool × Nat)} (h : firstFail l = none) : ∀ x ∈ l, x.1 = false := by
  induction l with
  | nil => exact fun _ hx => absurd hx List.not_mem_nil
  | cons y l ih =>
    unfold firstFail at h
    split at h
    · cases h
    · next pass => exact List.forall_mem_cons.mpr ⟨Bool.eq_false_iff.mpr pass, ih h⟩

theorem memLen_le {c : Cmd} {s : State} (checked : firstFail (memChecks c s) = none) : memLen c ≤ 32 := by
  have fits : memBad c s = false := firstFail_none checked (memBad c s, stBAD_OPERAND) (.tail _ (.head _))
  simp only [memBad, Bool.or_eq_false_iff, decide_eq_false_iff_not] at fits
  obtain ⟨⟨-, short⟩, -⟩ := fits
  omega

/-- The eight words hold every byte that LEN counts. -/
theorem length_wrBytes {c : Cmd} (h : memLen c ≤ 32) : (wrBytes c).length = memLen c := by
  rw [List.length_take, length_bytesOf, List.length_map, List.length_range]
  exact Nat.min_eq_left h

theorem clean_of_dram {c : Cmd} (kept : c.dram = .clean ∨ memDram c = false) (hdram : memDram c = true) : c.dram = .clean :=
  kept.resolve_right (Bool.not_eq_false _ ▸ hdram)

/-- A DRAM write without an error is the row activate, then the bytes. -/
theorem memStore_clean {c : Cmd} (hdram : memDram c = true) (bs : List Byte) (s : State) :
    memStore c .clean bs s = writeMem (memAt c) bs (touchCell (memTile c) (memName c) true s) :=
  if_pos hdram

/-- A store that is not lost writes its bytes, at either kind of place. -/
theorem accessOnly_memStore {c : Cmd} (kept : c.dram = .clean ∨ memDram c = false) (bs : List Byte) (s : State) :
    AccessOnly (writeMem (memAt c) bs s) (memStore c c.dram bs s) := by
  cases place : memDram c with
  | false =>
    rw [memStore_buffer place]
    exact accessOnly_bufWritten ..
  | true =>
    rw [clean_of_dram kept place, memStore_clean place]
    exact (accessOnly_touchCell ..).writeMem _ _

/-- MEM.WR writes its bytes to packet memory and otherwise changes only what serves it. -/
theorem execMemWr_writes {c : Cmd} {s : State} (hroom : memWaits c s = false) (kept : c.dram = .clean ∨ memDram c = false)
    (runs : Runs c 0x282 .any (memChecks c s) s) :
    ∃ t, execMemWr c s = .next t ∧ AccessOnly (writeMem (memAt c) (wrBytes c) s) t :=
  ⟨_, execMemWr_runs hroom runs rfl, (accessOnly_fin ..).after <| (accessOnly_memStore kept ..).after <|
    (accessOnly_noteCmd c s).writeMem _ _⟩

/-! ### A rank's uncorrectable error leaves packet memory (R269, R270) -/

/-- Packet memory is as it was. -/
abbrev SameMem : State → State → Prop := Keeps State.mem

theorem AccessOnly.sameMem {s t : State} (h : AccessOnly s t) : SameMem s t := by
  obtain ⟨_, _, _, _, _, _, _, _, rfl⟩ := h
  exact rfl

theorem sameMem_post (q typ src : Nat) (body : List Word) (s : State) : SameMem s (post q typ src body s) := by
  unfold post postAt
  split
  · exact (serviceOnly_postTo ..).accessOnly.sameMem
  · exact count_mem s ..

theorem sameMem_countLost (s : State) : SameMem s (countLost s) := rfl

theorem sameMem_appendRec (r : FaultRec) (s : State) : SameMem s (appendRec r s) := by
  unfold appendRec
  refine keeps_ite (sameMem_countLost s) <| keeps_ite ((rset_mem ..).trans (sameMem_countLost s)) ?_
  exact (count_mem ..).trans <| (sameMem_post ..).after rfl

theorem sameMem_updateLimit (s : State) : SameMem s (updateLimit s) :=
  (keeps_each fun _ s => rset_mem s ..).after <| keeps_each fun _ s => rset_mem s ..

theorem sameMem_payDebt (ch : Nat) (s : State) : SameMem s (payDebt ch s) := by
  obtain ⟨_, _, paid⟩ := payDebt_eq ch s
  rw [paid]
  exact rfl

theorem sameMem_power (p : PwrState) (s : State) : SameMem s { s with ps := p } := rfl

theorem sameMem_dormantStep (s : State) : SameMem s (dormantStep s) := by
  unfold dormantStep
  refine keeps_ite (Keeps.after (sameMem_power ..) <| keeps_each fun ch s => ?_) Keeps.same
  exact Keeps.after (setChannel_mem ..) (sameMem_payDebt ch s)

theorem sameMem_copyRows (ch phys lo hi : Nat) (s : State) : SameMem s (copyRows ch phys lo hi s) :=
  Keeps.after (count_mem ..) <| keeps_each fun _ _ => ((accessOnly_activate ..).after (accessOnly_activate ..)).sameMem

theorem sameMem_settleMig (ch : Nat) (s : State) : SameMem s (settleMig ch s) :=
  keeps_when fun _ => Keeps.after (setChannel_mem ..) <| sameMem_copyRows ..

theorem sameMem_retireRank (ch phys : Nat) (s : State) : SameMem s (retireRank ch phys s) :=
  (sameMem_dormantStep _).after <| (sameMem_updateLimit _).after <| Keeps.after (setChannel_mem ..) <| sameMem_settleMig ..

/-- To fence a rank of a channel is to retire it (R407). -/
theorem sameMem_fenceUnit_rank {u : Nat} (rank : u / 4096 = 5) (k : Nat) (s : State) : SameMem s (fenceUnit u k s) := by
  simp only [fenceUnit, rank]
  exact keeps_ite (setUnit_mem s ..) <| (sameMem_retireRank ..).after (setUnit_mem s ..)

theorem faultAction_uncorrectable (u : Nat) (s : State) : faultAction u 0x0208 s = fenceUnit u 0 s := rfl

/-- The report of a rank's uncorrectable error counts, records or retires. -/
theorem sameMem_report_rank {u : Nat} (rank : u / 4096 = 5) (info addr : Nat) (s : State) :
    SameMem s (report u 0x0208 info addr s) := by
  have fenced (k : Nat) (s : State) : SameMem s (fenceUnit u k s) := sameMem_fenceUnit_rank rank k s
  have taken : SameMem s (takeFault u 0x0208 info addr s) := by
    unfold takeFault
    refine keeps_ite ((keeps_when (fenced 0)).after (setUnit_mem s ..)) ?_
    rw [faultAction_uncorrectable]
    exact (fenced 0 _).after <| Keeps.after (setUnit_mem ..) <| sameMem_appendRec ..
  unfold report
  rw [if_neg (by decide)]
  exact keeps_ite ((sameMem_countLost _).after (setUnit_mem s ..)) <| keeps_ite Keeps.same taken

/-! ### MEM.RD -/

theorem memTile_lt {c : Cmd} (hdram : memDram c = true) : memTile c < 8 := by
  rw [memTile, if_pos hdram]
  exact Nat.mod_lt _ (by decide)

/-- A poison mark lies on the spare (R270). -/
theorem cellRank_of_marked {s : State} {t idx : Nat} (h : cellMarked s t idx = true) : cellRank s t idx = 8 := by
  simp only [cellMarked, Bool.and_eq_true, decide_eq_true_eq] at h
  exact h.1

/-- A read without an error of its own finds at most a mark of the spare, whose report leaves packet memory. -/
theorem sameMem_readCell_clean {t : Nat} (ht : t < 8) (idx : Nat) (s : State) : SameMem s (readCell t idx .clean s).2 := by
  have touched : SameMem s (touchCell t idx false s) := (accessOnly_touchCell ..).sameMem
  unfold readCell cellFinding
  cases marked : cellMarked s t idx with
  | false => exact touched
  | true =>
    have rank : unitId 5 (cellChannel t idx * 16 + cellRank s t idx) / 4096 = 5 := by
      rw [cellRank_of_marked marked, unitId, cellChannel]
      omega
    exact (sameMem_report_rank rank ..).after <| Keeps.after (rput_mem ..) <| Keeps.after (count_mem ..) <|
      Keeps.after (count_mem ..) touched

theorem sameMem_memFetch {c : Cmd} (kept : c.dram = .clean ∨ memDram c = false) (s : State) : SameMem s (memFetch c c.dram s).2 := by
  unfold memFetch
  cases place : memDram c with
  | false => exact Keeps.same
  | true =>
    have read : SameMem s (readCell (memTile c) (memName c) .clean s).2 := sameMem_readCell_clean (memTile_lt place) _ s
    rw [clean_of_dram kept place, if_pos rfl]
    dsimp only
    split
    · exact Keeps.after (advanceFree_mem _) read
    · exact read

/-- MEM.RD leaves packet memory, whether it waits or reads. -/
theorem execMemRd_sameMem {c : Cmd} {s : State} (kept : c.dram = .clean ∨ memDram c = false)
    (runs : Runs c 0x281 .any (memChecks c s) s) : ∃ t, execMemRd c s = .next t ∧ SameMem s t := by
  cases room : memWaits c s with
  | true => exact ⟨s, congrArg _ (if_pos room), Keeps.same⟩
  | false =>
    exact ⟨_, execMemRd_runs room runs rfl, (accessOnly_fin ..).sameMem.after <| (sameMem_memFetch kept _).after
      (accessOnly_noteCmd c s).sameMem⟩

/-- Settles O60: MEM.WR writes its bytes and else only serves the access, so that packet memory is the old one with them written;
MEM.RD leaves packet memory, even where the cell it reads carries a poison mark. -/
theorem memWrStoresItsBytes : Obligations.MemWrStoresItsBytes := by
  refine ⟨?write, ?read⟩
  case write =>
    intro c s ⟨hmem, _⟩ room kept runs
    have ⟨_, _, checked⟩ := runs
    have len : (wrBytes c).length = memLen c := length_wrBytes (memLen_le checked)
    obtain ⟨t, ht, _, _, _, _, _, _, _, _, rfl⟩ := execMemWr_writes room kept runs
    refine ⟨_, ht, ?inside, ?outside, rfl, rfl, rfl, rfl, rfl, rfl, rfl⟩
    case inside =>
      have back := memRead_memWrite (wrBytes c) (memAt c) hmem
      rwa [len] at back
    case outside => exact fun a ha => memByte_memWrite_out (wrBytes c) (memAt c) a hmem (by rwa [len])
  case read => exact fun c s kept runs => execMemRd_sameMem kept runs

end Sys2Proof.Machine
end

section
namespace Sys2Proof.Machine

/-! ## DRAM: refresh, reads, retirement and migration (R267 to R275) -/

/-- A refresh of a rank is put off: the rank has a request, of a held cell or another source, and the limit is above 0 (R267). -/
abbrev refreshWaits (ch r : Nat) (busy : Bool) (s : State) : Bool :=
  (busy || !(rankQueued s ch r).isEmpty) && 0 < postponeMax s (ch / 8)

theorem refreshWaits_eq_true {ch r : Nat} {busy : Bool} {s : State} :
    refreshWaits ch r busy s = true ↔ (busy = true ∨ rankQueued s ch r ≠ []) ∧ 0 < postponeMax s (ch / 8) := by
  rw [Bool.and_eq_true, Bool.or_eq_true, Bool.not_eq_true', List.isEmpty_eq_false_iff, decide_eq_true_eq]

/-- Without a request nothing is put off, nor under a limit of 0. -/
theorem refreshWaits_idle {ch r : Nat} {busy : Bool} {s : State}
    (idle : (busy = false ∧ rankQueued s ch r = []) ∨ postponeMax s (ch / 8) = 0) : refreshWaits ch r busy s = false := by
  obtain ⟨notBusy, empty⟩ | zero := idle
  · rw [refreshWaits, notBusy, empty]
    rfl
  · rw [refreshWaits, zero]
    exact Bool.and_false _

/-- A refresh due at a working channel's rank, by whether it is put off (R267). -/
theorem execRefreshDue_up {ch r : Nat} (busy : Bool) {s : State} (hup : channelUp s ch = true) (hr : r < 9) :
    execRefreshDue ch r busy s = .next (
      if refreshWaits ch r busy s then payAtLimit ch r (drmCnt ch r 5 1
        (setChannel ch (fun c => { c with debt := tput c.debt r (tget c.debt r + 1) }) s))
      else refreshes ch r 1 s) :=
  congrArg _ (iff_of _ _ (by rw [hup, decide_eq_true hr]; rfl))

/-- The oldest read of a running tile returns what its cell reads (R265, R269). -/
theorem execDramReadDone_oldest {t i : Nat} (x : EccFinding) {s : State} (hrun : tileRunning s t = true)
    (oldest : oldestRead s t = some i) : execDramReadDone t i x s = .next (
      let u := (readCell t i x s).2
      let got (h : Held) : Held :=
        { h with place := .read i, poison := h.poison || (readCell t i x s).1,
                 cell := { h.cell with data := readMem u (dramAddr t i 0) h.cell.data.length } }
      pumpDram t { u with fab := { u.fab with
        held := u.fab.held.map (fun h => if h.tile = t && h.place = .reading i then got h else h)
        reads := u.fab.reads.erase (t, i) } }) :=
  congrArg _ (iff_of _ _ (by rw [hrun, decide_eq_true oldest]; rfl))

/-- A copy without findings marks no cell. -/
theorem copyFindings_nil (ch phys lr lo hi : Nat) (s : State) : copyFindings ch phys lr lo hi [] s = s := rfl

/-- The last row of an automatic migration, read without findings (R270 step 4). -/
theorem execMigrationLastRow_clean {ch : Nat} {s : State} (hup : channelUp s ch = true) (automatic : (channel s ch).migState = 1)
    (copying : (channel s ch).draining = false) : execMigrationLastRow ⟨ch, []⟩ s = .next (
      setChannel ch (fun c => if c.migState = 1 then { c with migPos := allRows, draining := true } else c)
        (copyRows ch ((channel s ch).remap.getD (channel s ch).migLrank 15) (channel s ch).migPos allRows s)) := by
  refine congrArg _ ((iff_of _ _ (by rw [hup, decide_eq_true automatic, copying]; rfl)).trans ?_)
  dsimp only
  rw [copyFindings_nil]

/-- The generators take new seeds once start-up has readied DRAM (R268). -/
theorem execRngReseed_on {s : State} (hlow : 5 ≤ stage s) (hhigh : stage s ≤ 9) : execRngReseed s = .next (reseed s) := by
  rw [execRngReseed, iff_of _ _ (by rw [decide_eq_true hlow, decide_eq_true hhigh]; rfl)]

/-- Settles O22: each row is its operation once its condition holds; a refresh by whether it is put off. -/
theorem dramRowsComplete : Obligations.DramRowsComplete := by
  refine ⟨?refresh, ?postponed, ?payment, ?read, ?record, ?lastRow, ?commit, ?reseed, ?abandon⟩
  case refresh =>
    exact fun ch r busy s hup hr idle => (execRefreshDue_up busy hup hr).trans
      (congrArg _ (if_neg (Bool.eq_false_iff.mp (refreshWaits_idle idle))))
  case postponed =>
    exact fun ch r busy s hup hr queued limit => (execRefreshDue_up busy hup hr).trans
      (congrArg _ (if_pos (refreshWaits_eq_true.mpr ⟨queued, limit⟩)))
  case payment =>
    exact fun ch s hup empty => congrArg _ (iff_of (payDebt ch) _ (by rw [hup, decide_eq_true empty]; rfl))
  case read => exact fun t i x s => execDramReadDone_oldest x
  case record =>
    exact fun ch s hch hlow hhigh trained => congrArg _ (iff_of _ _ (by
      rw [decide_eq_true hch, decide_eq_true hlow, decide_eq_true hhigh, trained]; rfl))
  case lastRow => exact fun ch s => execMigrationLastRow_clean
  case commit =>
    exact fun ch s hup drains => congrArg _ (iff_of _ _ (by rw [hup, drains]; rfl))
  case reseed => exact fun s => execRngReseed_on
  case abandon => exact fun ch s waits => congrArg _ (iff_of _ _ (decide_eq_true waits))

end Sys2Proof.Machine
end

section
namespace Sys2Proof.Machine

/-! ## Steps: the command at the front, and the bound of the fault FIFO (R402) -/

/-- Every command has a meaning, so that none is refused and none stops the machine. -/
theorem exec_answers (c : Instr) (s : State) : ∃ t, exec c s = .next t := by cases c <;> exact ⟨_, rfl⟩

/-- Settles O37: a step takes the front command off the queue, and each command's meaning is a next state. -/
theorem stepRunsFrontCommand : Obligations.StepRunsFrontCommand := ⟨fun _ _ _ => rfl, exec_answers⟩

/-- Settles O42: a step is calm, and taking a command off the queue leaves the fault FIFO. -/
theorem everyStepKeepsFifoBounded : Obligations.EveryStepKeepsFifoBounded := fun _ _ bounded h => (calm_step h).fifo bounded

end Sys2Proof.Machine
end

section
namespace Sys2Proof.Machine

/-! ## SCH and POL commands (R278 to R281, R288 to R291, R298, R300): what each does once it runs -/

/-- Settles O30: each command in its frame (`next_runCmd`). -/
theorem schedulerCommandsComplete : Obligations.SchedulerCommandsComplete := by
  refine ⟨?node, ?shape, ?leaf, ?read, ?stream, ?readStream, ?policer, ?readPolicer⟩
  case node | shape | read =>
    rintro c l n s u rfl rfl runs hu
    exact next_runCmd _ runs hu
  case leaf | stream | readStream | policer =>
    rintro c i s u rfl runs hu
    exact next_runCmd _ runs hu
  case readPolicer =>
    rintro c i t s u rfl rfl runs hu
    exact next_runCmd _ runs hu

end Sys2Proof.Machine
end

section
namespace Sys2Proof.Machine

/-! ## The register map of BAR0 (R435, R438 to R440) -/

/-! ### The rows and where they lie -/

/-- The offset of index i of a row in its block. -/
abbrev rowPlace (w : RegRow) (i : Nat) : Nat := w.base + i % w.per * w.step + i / w.per * w.step2

/-- A row lies in its block of 64 KiB, its offsets are aligned to 4 B, and no repeat runs into the next. -/
abbrev RowSound (w : RegRow) : Prop :=
  (0 < w.per ∧ 0 < w.step ∧ (w.per - 1) * w.step < w.step2) ∧
  (w.slot < 16 ∧ w.base + (w.per - 1) * w.step + (w.many - 1) * w.step2 < 0x10000) ∧
  w.base % 4 = 0 ∧ w.step % 4 = 0 ∧ w.step2 % 4 = 0

/-- The distance at which a row repeats, and the length of what it repeats. -/
abbrev rowPeriod (w : RegRow) : Nat := if w.many = 1 then w.step else w.step2
abbrev rowChunk (w : RegRow) : Nat := if w.many = 1 then 4 else (w.per - 1) * w.step + 4

/-- The first row ends below the second, or both repeat at one distance and the first lies below the second in it. -/
abbrev RowBelow (v w : RegRow) : Prop :=
  v.base + (v.per - 1) * v.step + (v.many - 1) * v.step2 < w.base ∨
  (rowPeriod v = rowPeriod w ∧ v.base % rowPeriod v + rowChunk v ≤ w.base % rowPeriod w ∧
    w.base % rowPeriod w + rowChunk w ≤ rowPeriod w)

/-- Two registers are in different blocks, or their rows do not overlap. -/
abbrev RowsApart (r q : Reg) : Prop :=
  (regRow r).tile ≠ (regRow q).tile ∨ (regRow r).slot ≠ (regRow q).slot ∨
  RowBelow (regRow r) (regRow q) ∨ RowBelow (regRow q) (regRow r)

theorem regRow_sound (r : Reg) : RowSound (regRow r) := by cases r <;> decide

theorem mem_allRegs (r : Reg) : r ∈ allRegs := by cases r <;> decide

/-- No two rows of the map overlap. -/
theorem allRegs_apart : allRegs.Pairwise RowsApart := by decide +kernel

theorem regRows_apart {r q : Reg} (hne : r ≠ q) : RowsApart r q := by
  obtain ⟨i, hi, rfl⟩ := List.getElem_of_mem (mem_allRegs r)
  obtain ⟨j, hj, rfl⟩ := List.getElem_of_mem (mem_allRegs q)
  have apart := List.pairwise_iff_getElem.mp allRegs_apart
  obtain before | same | after := Nat.lt_trichotomy i j
  · exact apart i j hi hj before
  · subst same
    exact absurd rfl hne
  · exact Or.imp Ne.symm (Or.imp Ne.symm Or.symm) (apart j i hj hi after)

section
variable {v w : RegRow} {i j reg : Nat}

theorem rowPlace_bounds (hi : i < w.per * w.many) (sound : RowSound w) :
    w.base ≤ rowPlace w i ∧ rowPlace w i ≤ w.base + (w.per - 1) * w.step + (w.many - 1) * w.step2 := by
  have column : i % w.per * w.step ≤ (w.per - 1) * w.step :=
    Nat.mul_le_mul_right _ (Nat.le_sub_one_of_lt (Nat.mod_lt _ sound.1.1))
  have line : i / w.per * w.step2 ≤ (w.many - 1) * w.step2 :=
    Nat.mul_le_mul_right _ (Nat.le_sub_one_of_lt (Nat.div_lt_of_lt_mul hi))
  rw [rowPlace]
  omega

/-- Within its period a row stays in its chunk. -/
theorem rowPlace_mod (hi : i < w.per * w.many) (sound : RowSound w) (fits : w.base % rowPeriod w + rowChunk w ≤ rowPeriod w) :
    w.base % rowPeriod w ≤ rowPlace w i % rowPeriod w ∧ rowPlace w i % rowPeriod w < w.base % rowPeriod w + rowChunk w := by
  obtain ⟨k, c, place, short⟩ : ∃ k c, rowPlace w i = w.base + c + rowPeriod w * k ∧ c < rowChunk w := by
    by_cases once : w.many = 1
    · have inRow : i < w.per := by rwa [once, Nat.mul_one] at hi
      refine ⟨i, 0, ?_, ?_⟩
      · rw [rowPlace, rowPeriod, if_pos once, Nat.mod_eq_of_lt inRow, Nat.div_eq_of_lt inRow, Nat.mul_comm w.step, Nat.zero_mul,
          Nat.add_zero, Nat.add_zero]
      · rw [rowChunk, if_pos once]
        exact Nat.zero_lt_succ 3
    · have column : i % w.per * w.step ≤ (w.per - 1) * w.step :=
        Nat.mul_le_mul_right _ (Nat.le_sub_one_of_lt (Nat.mod_lt _ sound.1.1))
      refine ⟨i / w.per, i % w.per * w.step, ?_, ?_⟩
      · rw [rowPlace, rowPeriod, if_neg once, Nat.mul_comm w.step2]
      · rw [rowChunk, if_neg once]
        omega
  have residue : (w.base + c) % rowPeriod w = w.base % rowPeriod w + c := by
    rw [← Nat.mod_add_mod]
    exact Nat.mod_eq_of_lt (by omega)
  rw [place, Nat.add_mul_mod_self_left, residue]
  omega

theorem rowPlace_ne_of_below (below : RowBelow v w) (hi : i < v.per * v.many) (hj : j < w.per * w.many) (soundV : RowSound v)
    (soundW : RowSound w) : rowPlace v i ≠ rowPlace w j := by
  intro same
  obtain ends | ⟨period, first, fits⟩ := below
  · have := rowPlace_bounds hi soundV
    have := rowPlace_bounds hj soundW
    omega
  · have := rowPlace_mod hi soundV (by omega)
    have := rowPlace_mod hj soundW fits
    rw [same, period] at *
    omega

/-! ### The decoding of an offset in a block -/

theorem regIndex_rowPlace (hi : i < w.per * w.many) (sound : RowSound w) : regIndex w (rowPlace w i) = some i := by
  obtain ⟨⟨hper, hstep, hstep2⟩, -, -⟩ := sound
  have column : i % w.per < w.per := Nat.mod_lt _ hper
  have inLine : i % w.per * w.step < w.step2 := Nat.lt_of_le_of_lt (Nat.mul_le_mul_right _ (Nat.le_sub_one_of_lt column)) hstep2
  have offset : rowPlace w i - w.base = i % w.per * w.step + w.step2 * (i / w.per) := by
    rw [rowPlace, Nat.add_assoc, Nat.add_sub_cancel_left, Nat.mul_comm w.step2]
  have line : (i % w.per * w.step + w.step2 * (i / w.per)) / w.step2 = i / w.per := by
    rw [Nat.add_mul_div_left _ _ (by omega), Nat.div_eq_of_lt inLine, Nat.zero_add]
  have rest : (i % w.per * w.step + w.step2 * (i / w.per)) % w.step2 = i % w.per * w.step := by
    rw [Nat.add_mul_mod_self_left, Nat.mod_eq_of_lt inLine]
  rw [regIndex, if_neg (Nat.not_lt.mpr (Nat.le_trans (Nat.le_add_right _ _) (Nat.le_add_right _ _)))]
  simp only [offset, line, rest, Nat.mul_mod_left, Nat.mul_div_cancel _ hstep, column, Nat.div_lt_of_lt_mul hi, decide_true,
    Bool.and_self, if_true, Nat.div_add_mod']

theorem regIndex_eq_some (sound : RowSound w) (h : regIndex w reg = some i) : reg = rowPlace w i ∧ i < w.per * w.many := by
  obtain ⟨⟨hper, -, -⟩, -, -⟩ := sound
  unfold regIndex at h
  split at h
  · cases h
  · rename_i above
    dsimp only at h
    split at h
    · rename_i inRow
      simp only [Bool.and_eq_true, decide_eq_true_eq] at inRow
      obtain ⟨⟨whole, column⟩, line⟩ := inRow
      obtain rfl := Option.some.inj h
      have remainder := Nat.div_add_mod' ((reg - w.base) % w.step2) w.step
      have offset := Nat.div_add_mod' (reg - w.base) w.step2
      rw [rowPlace, Nat.mul_add_mod', Nat.mod_eq_of_lt column, Nat.add_comm (_ * w.per), Nat.add_mul_div_right _ _ hper,
        Nat.div_eq_of_lt column, Nat.zero_add]
      refine ⟨by omega, ?_⟩
      calc (reg - w.base) % w.step2 / w.step + (reg - w.base) / w.step2 * w.per
        _ < w.per + (reg - w.base) / w.step2 * w.per := Nat.add_lt_add_right column _
        _ = ((reg - w.base) / w.step2 + 1) * w.per := by rw [Nat.succ_mul, Nat.add_comm]
        _ ≤ w.many * w.per := Nat.mul_le_mul_right _ line
        _ = w.per * w.many := Nat.mul_comm ..
    · cases h

end

theorem regAt_eq_some {tile : Bool} {slot reg i : Nat} {r : Reg} : ∀ {l : List Reg}, regAt tile slot reg l = some (r, i) →
    (regRow r).tile = tile ∧ (regRow r).slot = slot ∧ reg = rowPlace (regRow r) i ∧ i < regCount r
  | [], h => by cases h
  | q :: l, h => by
    unfold regAt at h
    split at h
    · rename_i inBlock
      split at h
      · rename_i index
        obtain ⟨rfl, rfl⟩ := Prod.mk.inj (Option.some.inj h)
        simp only [Bool.and_eq_true, decide_eq_true_eq] at inBlock
        exact ⟨inBlock.1, inBlock.2, regIndex_eq_some (regRow_sound q) index⟩
      · exact regAt_eq_some h
    · exact regAt_eq_some h

theorem regAt_isSome {reg i : Nat} {r : Reg} (index : regIndex (regRow r) reg = some i) :
    ∀ {l : List Reg}, r ∈ l → ∃ x, regAt (regRow r).tile (regRow r).slot reg l = some x
  | q :: l, mem => by
    unfold regAt
    obtain rfl | mem := List.mem_cons.mp mem
    · simp only [decide_true, Bool.and_self, if_true, index]
      exact ⟨_, rfl⟩
    · split
      · split
        · exact ⟨_, rfl⟩
        · exact regAt_isSome index mem
      · exact regAt_isSome index mem

/-- A register's place in its block names the register: it lies in its row and in no other. -/
theorem regAt_rowPlace {r : Reg} {i : Nat} (hi : i < regCount r) :
    regAt (regRow r).tile (regRow r).slot (rowPlace (regRow r) i) allRegs = some (r, i) := by
  have index := regIndex_rowPlace hi (regRow_sound r)
  obtain ⟨⟨q, j⟩, found⟩ := regAt_isSome index (mem_allRegs r)
  obtain ⟨tile, slot, place, hj⟩ := regAt_eq_some found
  by_cases same : q = r
  · subst same
    rw [place, regIndex_rowPlace hj (regRow_sound q)] at index
    obtain rfl := Option.some.inj index
    exact found
  · obtain differs | differs | below | below := regRows_apart same
    · exact absurd tile differs
    · exact absurd slot differs
    · exact absurd place.symm (rowPlace_ne_of_below below hj hi (regRow_sound q) (regRow_sound r))
    · exact absurd place (rowPlace_ne_of_below below hi hj (regRow_sound r) (regRow_sound q))

/-! ### The decoding of an offset in BAR0 -/

/-- An offset in a tile's block: the mirror of the corridor's registers (R439), or the tile's own. -/
theorem decodeBar0_tile {off t slot reg : Nat} (ht : t < 8) (hslot : slot < 16) (hreg : reg < 0x10000)
    (aligned : off - off % 4 = 0x1000000 + t * 0x100000 + slot * 0x10000 + reg) :
    decodeBar0 off =
      if slot = 12 && reg ≤ 0x10 then (regAt false 7 reg allRegs).map fun p => (p.1, 0, p.2)
      else (regAt true slot reg allRegs).map fun p => if p.1 = .exmJrnlStat then (p.1, 0, p.2) else (p.1, t, p.2) := by
  have hTile : (0x1000000 + t * 0x100000 + slot * 0x10000 + reg) / 0x100000 % 8 = t := by omega
  have hSlot : (0x1000000 + t * 0x100000 + slot * 0x10000 + reg) / 0x10000 % 16 = slot := by omega
  have hReg : (0x1000000 + t * 0x100000 + slot * 0x10000 + reg) % 0x10000 = reg := by omega
  unfold decodeBar0
  dsimp only
  rw [aligned, if_neg (by omega), if_pos (by omega), hTile, hSlot, hReg]

/-- An offset below the tiles' blocks. -/
theorem decodeBar0_platform {off slot reg : Nat} (hslot : slot < 256) (hreg : reg < 0x10000)
    (aligned : off - off % 4 = slot * 0x10000 + reg) :
    decodeBar0 off = (regAt false slot reg allRegs).map fun p => (p.1, 0, p.2) := by
  have hSlot : (slot * 0x10000 + reg) / 0x10000 = slot := by omega
  have hReg : (slot * 0x10000 + reg) % 0x10000 = reg := by omega
  unfold decodeBar0
  dsimp only
  rw [aligned, if_neg (by omega), if_neg (by omega), hSlot, hReg]

/-- Nothing lies at the end of the tiles' blocks. -/
theorem decodeBar0_end {off : Nat} (h : 0x1800000 ≤ off - off % 4) : decodeBar0 off = none := if_pos h

theorem regOff_tile {r : Reg} (tile : (regRow r).tile = true) (t i : Nat) :
    regOff r t i = 0x1000000 + t * 0x100000 + (regRow r).slot * 0x10000 + rowPlace (regRow r) i := by
  simp only [regOff, rowPlace, tile, if_true]
  omega

theorem regOff_platform {r : Reg} (platform : (regRow r).tile = false) (t i : Nat) :
    regOff r t i = (regRow r).slot * 0x10000 + rowPlace (regRow r) i := by
  simp only [regOff, rowPlace, platform, Bool.false_eq_true, if_false]
  omega

theorem rowPlace_block {w : RegRow} {i : Nat} (hi : i < w.per * w.many) (sound : RowSound w) :
    rowPlace w i < 0x10000 ∧ rowPlace w i % 4 = 0 := by
  have bounds := rowPlace_bounds hi sound
  obtain ⟨-, ⟨-, inBlock⟩, base, step, step2⟩ := sound
  refine ⟨by omega, Nat.mod_eq_zero_of_dvd ?_⟩
  have column : 4 ∣ i % w.per * w.step := Nat.dvd_mul_left_of_dvd (Nat.dvd_of_mod_eq_zero step) _
  have line : 4 ∣ i / w.per * w.step2 := Nat.dvd_mul_left_of_dvd (Nat.dvd_of_mod_eq_zero step2) _
  exact Nat.dvd_add (Nat.dvd_add (Nat.dvd_of_mod_eq_zero base) column) line

/-- The tiles' rows of slot 12 leave the room of the mirrored registers. -/
theorem regRow_slot12_base (r : Reg) (tile : (regRow r).tile = true) (slot : (regRow r).slot = 12) : 0x10 < (regRow r).base := by
  cases r <;> revert tile slot <;> decide

/-- The platform's registers of slot 7 are the corridor's, which the tiles' blocks mirror. -/
theorem regMirror_slot7 (r : Reg) (platform : (regRow r).tile = false) (slot : (regRow r).slot = 7) : regMirror r = true := by
  cases r <;> revert platform slot <;> decide

/-- Every register's offset decodes to it. -/
theorem decodeBar0_regOff {r : Reg} {t i : Nat} (ht : t < 8) (hi : i < regCount r) :
    decodeBar0 (regOff r t i) = some (r, if (regRow r).tile && r ≠ .exmJrnlStat then t else 0, i) := by
  have sound := regRow_sound r
  have found := regAt_rowPlace hi
  obtain ⟨inBlock, aligned⟩ := rowPlace_block hi sound
  have slot : (regRow r).slot < 16 := sound.2.1.1
  cases tile : (regRow r).tile with
  | false =>
    rw [regOff_platform tile, decodeBar0_platform (slot := (regRow r).slot) (by omega) inBlock (by omega), ← tile, found, tile]
    rfl
  | true =>
    have own : ¬((regRow r).slot = 12 ∧ rowPlace (regRow r) i ≤ 0x10) := fun ⟨twelve, low⟩ =>
      absurd (rowPlace_bounds hi sound).1 (by have := regRow_slot12_base r tile twelve; omega)
    rw [regOff_tile tile, decodeBar0_tile ht slot inBlock (by omega), if_neg (by simpa using own), ← tile, found, tile]
    by_cases journal : r = .exmJrnlStat
    · rw [Option.map_some, if_pos journal, if_neg fun other => by simp [journal] at other]
    · rw [Option.map_some, if_neg journal, if_pos (by simp [journal])]

/-- What decodes to a register that no other block mirrors lies at its offset. -/
theorem regOff_of_decodeBar0 {off t i : Nat} {r : Reg} (h : decodeBar0 off = some (r, t, i)) (home : regMirror r = false) :
    regOff r t i = off - off % 4 ∧ t < 8 ∧ i < regCount r := by
  by_cases beyond : 0x1800000 ≤ off - off % 4
  · rw [decodeBar0_end beyond] at h
    cases h
  by_cases inTile : 0x1000000 ≤ off - off % 4
  · have ht : (off - off % 4 - 0x1000000) / 0x100000 < 8 := by omega
    have aligned : off - off % 4 = 0x1000000 + (off - off % 4 - 0x1000000) / 0x100000 * 0x100000 +
      (off - off % 4) / 0x10000 % 16 * 0x10000 + (off - off % 4) % 0x10000 := by omega
    rw [decodeBar0_tile ht (Nat.mod_lt _ (by decide)) (Nat.mod_lt _ (by decide)) aligned] at h
    split at h
    · obtain ⟨⟨q, j⟩, found, named⟩ := Option.map_eq_some_iff.mp h
      obtain ⟨rfl, -⟩ := Prod.mk.inj named
      obtain ⟨platform, slot, -⟩ := regAt_eq_some found
      rw [regMirror_slot7 q platform slot] at home
      cases home
    · obtain ⟨⟨q, j⟩, found, named⟩ := Option.map_eq_some_iff.mp h
      dsimp only at named
      split at named
      · rename_i journal
        obtain ⟨rfl, -⟩ := Prod.mk.inj named
        rw [journal] at home
        cases home
      · obtain ⟨rfl, rfl, rfl⟩ := named
        obtain ⟨tile, slot, place, count⟩ := regAt_eq_some found
        exact ⟨by rw [regOff_tile tile, slot, ← place, ← aligned], ht, count⟩
  · have aligned : off - off % 4 = (off - off % 4) / 0x10000 * 0x10000 + (off - off % 4) % 0x10000 := by omega
    rw [decodeBar0_platform (by omega) (Nat.mod_lt _ (by decide)) aligned] at h
    obtain ⟨⟨q, j⟩, found, named⟩ := Option.map_eq_some_iff.mp h
    obtain ⟨rfl, rfl, rfl⟩ := named
    obtain ⟨platform, slot, place, count⟩ := regAt_eq_some found
    exact ⟨by rw [regOff_platform platform, slot, ← place, ← aligned], by decide, count⟩

/-- Settles O44: rows do not overlap, so a place in a block names one register; what decodes lies in its row. -/
theorem registerOffsetsDecode : Obligations.RegisterOffsetsDecode := by
  refine ⟨fun r t i => decodeBar0_regOff, fun off t i r => regOff_of_decodeBar0, ?mirror, fun off => decodeBar0_end⟩
  case mirror =>
    intro t off ht hoff
    rw [decodeBar0_tile (slot := 12) (reg := off - off % 4) ht (by decide) (by omega) (by omega),
      decodeBar0_platform (slot := 7) (reg := off - off % 4) (by decide) (by omega) (by omega),
      if_pos (by simp; omega)]

end Sys2Proof.Machine
end

section
namespace Sys2Proof.Machine

/-! ## SEC commands (R392 to R397): what each does once its message runs -/

section
variable {c : Cmd} {op kek n : Nat} {w : Who} {checks : List (Bool × Nat)} {bs : List Byte} {s u : State}

/-- A command that runs and whose claim has its message running acts and ends the message (R394). -/
theorem next_secRun_runs (f : State → State) (runs : Runs c op w checks s) (hu : u = secClaim (secId c.req) (noteCmd c s))
    (hrun : u.sec.running = some { holder := secId c.req }) :
    (.next (runCmd c op w checks (secRun c f) s) : Res) = .next (messageEnd (f u)) :=
  (next_runCmd _ runs rfl).trans (congrArg _ (secRun_runs _ hu hrun))

/-- A command that runs while another's message does keeps its claim and waits (R394). -/
theorem next_secRun_waits (f : State → State) (runs : Runs c op w checks s) (hu : u = secClaim (secId c.req) (noteCmd c s))
    (hrun : u.sec.running ≠ some { holder := secId c.req }) :
    (.next (runCmd c op w checks (secRun c f) s) : Res) = .next (commandWaits c u) :=
  (next_runCmd _ runs rfl).trans (congrArg _ (secRun_waits _ hu hrun))

/-- A valid slot unwraps the data that came (R393, R397). -/
theorem withKey_data (f : List Byte → State → State) (valid : (secSlot u kek).valid = true) (hdata : c.data = some bs) :
    withKey c kek n f u = match aesUnwrap (secSlot u kek).key (bs.take n) with
      | none => authFail c u
      | some k => f k (rset .secStat 0 0 11 8 0 u) := by
  rw [withKey, valid, hdata]
  rfl

/-- A valid data slot is used on the data that came (R393). -/
theorem withData_data (f : List Byte → List Byte → State → State) (valid : (secSlot u (opf c 4 5 0)).valid = true)
    (hdata : c.data = some bs) : withData c n f u = f (secSlot u (opf c 4 5 0)).key (bs.take n) u := by
  rw [withData, valid, hdata]
  rfl

end

/-- Settles O36: each command in its frame (`next_secRun_runs`, `next_secRun_waits`), then under its valid slot. -/
theorem securityCommandsComplete : Obligations.SecurityCommandsComplete := by
  refine ⟨?load, ?clear, ?clearWaits, ?cmac, ?crypt⟩
  case load =>
    intro c bs s u runs hu hrun valid hdata
    refine (next_secRun_runs _ runs hu hrun).trans ?_
    rw [withKey_data _ valid hdata]
    cases aesUnwrap (secSlot u (opf c 4 13 8)).key (bs.take (opw c 5).toNat) with
    | none => rfl
    | some k => rfl
  case clear =>
    exact fun c s u runs hu hrun valid =>
      (next_secRun_runs _ runs hu hrun).trans (congrArg (fun v => Host.Outcome.next (messageEnd v)) (if_pos valid))
  case clearWaits => exact fun c s u => next_secRun_waits _
  case cmac =>
    intro c bs s u runs hu hrun valid hdata
    refine (next_secRun_runs _ runs hu hrun).trans ?_
    rw [withData_data _ valid hdata]
  case crypt =>
    intro c bs s u runs hu hrun valid hdata hwr
    refine (next_secRun_runs _ runs hu hrun).trans ?_
    rw [withData_data _ valid hdata, hwr]
    rfl

end Sys2Proof.Machine
end

section
namespace Sys2Proof.Machine

/-! ## Gates, shapers, the multicast limiter, 802.1CB reset and depth samples (R282 to R301, R432) -/

/-- No class is kept open where the gate did not wait to realign (R295). -/
theorem keepTx_aligned (s : State) (p : Nat) (g : Gate) : keepTx s p false g = g := rfl

theorem keepBound_aligned (s : State) (g : Gate) : keepBound s false g = g := by
  unfold keepBound
  split
  · exact if_neg Bool.false_ne_true
  · rfl

/-- A schedule that does not wait to realign stays so. -/
theorem alignedNow_idle {k : Nat} {s : State} (h : s.tim.realign = []) : alignedNow k s = s := iff_off _ _ (by rw [h]; rfl)

/-- The next entry of a list that runs and does not wait to realign (R293). -/
theorem execGateEntryChange_runs {p : Nat} {s : State} (list : (gateOf s p).active.count ≠ 0) (aligned : (1 + p) ∉ s.tim.realign) :
    execGateEntryChange p s = .next (selectPort p (setGate p (fun g => { g with entry := nextEntry g }) s)) :=
  congrArg _ (iff_of _ _ (by rw [decide_eq_true list, Bool.true_and, List.contains_eq_mem, decide_eq_false aligned]; rfl))

theorem execStreamGateEntryChange_runs {g : Nat} {s : State} (list : (sgateOf s g).active.count ≠ 0)
    (aligned : (513 + g) ∉ s.tim.realign) :
    execStreamGateEntryChange g s = .next (selectBound g (setSgate g (fun x => { x with entry := nextEntry x }) s)) :=
  congrArg _ (iff_of _ _ (by rw [decide_eq_true list, Bool.true_and, List.contains_eq_mem, decide_eq_false aligned]; rfl))

/-- A pending list takes over while nothing waits to realign (R294). -/
theorem execGateSwitch_aligned {p : Nat} {s : State} (pending : (gateOf s p).pending.isSome = true) (aligned : s.tim.realign = []) :
    execGateSwitch p s = .next (selectPort p (setGate p gateSwitched s)) := by
  refine congrArg _ ((iff_of _ _ pending).trans ?_)
  have still : (setGate p gateSwitched s).tim.realign = [] := aligned
  simp only [aligned, List.contains_nil, keepTx_aligned]
  exact congrArg _ (alignedNow_idle still)

theorem execStreamGateSwitch_aligned {g : Nat} {s : State} (pending : (sgateOf s g).pending.isSome = true)
    (aligned : s.tim.realign = []) : execStreamGateSwitch g s = .next (selectBound g (setSgate g gateSwitched s)) := by
  refine congrArg _ ((iff_of _ _ pending).trans ?_)
  have still : (setSgate g gateSwitched s).tim.realign = [] := aligned
  simp only [aligned, List.contains_nil, keepBound_aligned]
  exact congrArg _ (alignedNow_idle still)

/-- A node that is RED leaves it by the refill of the count that holds it (R282). -/
theorem execShaperLeavesRed_red {level n p : Nat} {s : State} (above : nodePort s level n = some p)
    (red : nodeShade s level n = .red) :
    execShaperLeavesRed level n s = .next (selectPort p (setNode level n (outOfRed s) s)) := by
  unfold execShaperLeavesRed
  rw [above]
  exact congrArg (fun u => Host.Outcome.next (selectPort p u)) (iff_of _ _ (decide_eq_true red))

/-- An enabled sampler that finds a leaf writes its record (R301, R432). -/
theorem execDepthSample_leaf {t l : Nat} {s : State} (hrun : tileRunning s t = true) (on : rfld s .schSample t 0 31 31 = 1)
    (found : nextSample s t = some l) :
    execDepthSample t s = .next (telRecord (leafSlice s l) (pack [(23, 16, 0x01)]) (word l)
      [word (leafSt s l).depth, word (leafSt s l).delay]
      { s with sch := { s.sch with sampleAt := tput s.sch.sampleAt t (l % 131072 + 1) } }) := by
  refine congrArg _ ((iff_of _ _ (by rw [hrun, decide_eq_true on]; rfl)).trans ?_)
  dsimp only
  rw [found]

/-- Settles O20: each row is its operation once the condition that its hypotheses name holds. -/
theorem gateAndShaperEventsComplete : Obligations.GateAndShaperEventsComplete := by
  refine ⟨?entry, ?switch, ?streamEntry, ?streamSwitch, ?lead, ?red, ?refill, ?recovery, ?sample⟩
  case entry => exact fun p s => execGateEntryChange_runs
  case switch => exact fun p s => execGateSwitch_aligned
  case streamEntry => exact fun g s => execStreamGateEntryChange_runs
  case streamSwitch => exact fun g s pending _ => execStreamGateSwitch_aligned pending
  case lead => exact fun p c s hport closed => congrArg _ (iff_of _ _ (by rw [hport, closed]; rfl))
  case red => exact fun level n p s => execShaperLeavesRed_red
  case refill => exact fun t s hrun => congrArg _ (iff_of _ _ hrun)
  case recovery =>
    exact fun i s recovering notAny => congrArg _ (iff_of _ _ (by rw [decide_eq_true recovering, notAny]; rfl))
  case sample => exact fun t l s => execDepthSample_leaf

end Sys2Proof.Machine
end

section
namespace Sys2Proof.Machine

/-! ## Pace monitors, the voltage loop, the governor and DORMANT (R318, R412 to R421) -/

/-! ### Pace (R412 to R414) -/

section
variable {t i : Nat} {m : Int} {s : State}

/-- One period of a running tile's voltage loop (R413). -/
theorem execAvsLoop_runs (hrun : tileRunning s t = true) (worst : worstOf (tget s.sens t) = some (i, m)) :
    execAvsLoop t s = .next (setSens t (avsStep (pbit s .pltPaceTarget 31) (paceTarget s) m) s) := by
  unfold execAvsLoop
  rw [worst]
  exact congrArg _ (iff_of _ _ hrun)

theorem execPaceLow_low (hrun : tileRunning s t = true) (hi : i ≤ 10) (low : paceIsLow s t i = true) :
    execPaceLow t i s = .next (report (islandUnit t i) 0x0203 0 0 s) :=
  congrArg _ (iff_of _ _ (by rw [hrun, decide_eq_true hi, low]; rfl))

theorem execPaceMargin_below (hrun : tileRunning s t = true) (below : belowTarget s t = true)
    (worst : worstOf (tget s.sens t) = some (i, m)) (hm : 0 ≤ m) :
    execPaceMargin t s = .next (report (unitId 6 t) 0x010A 0 0 s) :=
  congrArg _ (iff_of _ _ (by rw [hrun, below, worst, Option.any_some, decide_eq_true hm]; rfl))

end

/-! ### The governor (R417, R418, R420, R421) -/

/-- The governor evaluates a scope while it is on, the calendar runs and the module is ACTIVE. -/
theorem execGovernorEvaluate_on {s : State} (scope : PwrScope) (next : Nat) (on : govOn s = true) (calendar : calRuns s = true)
    (active : s.ps.module = 0) :
    execGovernorEvaluate scope next s = .next (govern scope ((knownEvents s scope).foldl min next) s) :=
  congrArg _ (iff_of _ _ (by rw [on, calendar, decide_eq_true active]; rfl))

/-- A pipeline enters PROOF when the next event leaves it time (R417). -/
theorem govern_pipe {g n : Nat} {s : State} (hg : g < 64) (hrun : tileRunning s (g / 8) = true) (idle : pipeIdle s g = true)
    (awake : g ∉ s.ps.proof) (room : 1900 + guardNs s ≤ n) :
    govern (.pipe g) n s = { s with ps := { s.ps with proof := g :: s.ps.proof } } := by
  unfold govern
  exact iff_of _ _ (by rw [decide_eq_true hg, hrun, idle, List.contains_eq_mem, decide_eq_false awake, decide_eq_true room]; rfl)

/-- A tile enters CHILL when the next event leaves it time (R417). -/
theorem govern_tile {t n : Nat} {s : State} (hrun : tileRunning s t = true) (allowed : chillAllowed s t = true)
    (awake : t ∉ s.ps.chill) (room : 70000 + guardNs s ≤ n) :
    govern (.tile t) n s = { s with ps := { s.ps with chill := t :: s.ps.chill } } := by
  unfold govern
  exact iff_of _ _ (by rw [hrun, allowed, List.contains_eq_mem, decide_eq_false awake, decide_eq_true room]; rfl)

theorem execGovernorWake_pipe {g : Nat} {s : State} (on : govOn s = true) (gated : g ∈ s.ps.proof) (asleep : g ∉ s.ps.waking) :
    execGovernorWake (.pipe g) s = .next { s with ps := { s.ps with waking := g :: s.ps.waking } } := by
  refine congrArg _ ((iff_of _ _ on).trans ?_)
  unfold startWake
  refine iff_of _ _ ?_
  rw [List.contains_eq_mem, List.contains_eq_mem, decide_eq_true gated, decide_eq_false asleep]
  rfl

/-- A waking pipeline leaves PROOF; its own unit alone can fail the handshake (R75, R418). -/
theorem execIslandWakeDone_pipe {g : Nat} (failed : List Nat) {s : State} (waking : g ∈ s.ps.waking) :
    execIslandWakeDone (.pipe g) failed s = .next (forEach (failed.filter fun u => u = unitId 2 g) (fun u => report u 0x0202 0 0)
      { s with ps := { s.ps with proof := s.ps.proof.filter (fun x => x ≠ g), waking := s.ps.waking.filter fun x => x ≠ g } }) :=
  congrArg _ (iff_of _ _ (by rw [scopeWaking, List.contains_eq_mem, decide_eq_true waking]))

/-- A window of the list that holds the present is open. -/
theorem windowOpen_of {w : Time80 × Time80} {s : State} (begun : w.1.toNs ≤ nowNs s) (unended : nowNs s < w.2.toNs) :
    windowOpen s w = true := by
  rw [windowOpen, decide_eq_true begun, decide_eq_true unended]
  rfl

theorem execQuietWindowStart_opens {t : Nat} {w : Time80 × Time80} {s : State} (hrun : tileRunning s t = true)
    (loud : t ∉ s.ps.quiet) (planned : (t, w) ∈ (img s).cal.quiet) (opened : windowOpen s w = true) :
    execQuietWindowStart t s = .next { s with ps := { s.ps with quiet := t :: s.ps.quiet } } := by
  have due : (img s).cal.quiet.any (fun w => w.1 = t && windowOpen s w.2) = true :=
    List.any_eq_true.mpr ⟨(t, w), planned, by rw [opened, decide_eq_true rfl]; rfl⟩
  refine congrArg _ ((iff_of _ _ (by rw [hrun, due]; rfl)).trans ?_)
  simp only [List.contains_eq_mem, decide_eq_false loud, Bool.false_eq_true, if_false]

/-! ### DORMANT (R318, R419) -/

/-- DORMANT begins from ACTIVE while the calendar runs, no lead does and no sag (R419). -/
theorem dormantBegins_active {s : State} (active : s.ps.module = 0) (calendar : calRuns s = true) (noLead : s.pwr.lead = none)
    (noSag : s.pwr.sagStep = 0) : dormantBegins s = startLead .dormant { s with ps := { s.ps with module := 1 } } :=
  iff_of _ _ (by rw [decide_eq_true active, calendar, noLead, decide_eq_true noSag]; rfl)

/-- A module in DORMANT wakes with everything gated. -/
theorem dormantEnds_dormant {s : State} (dormant : s.ps.module = 2) : dormantEnds s =
    { s with ps := { s.ps with waking := s.ps.proof ++ s.ps.chill.map (64 + ·), module := 3 } } := by
  refine (iff_of _ _ (decide_eq_true dormant)).trans ?_
  rw [wakeAll, if_pos dormant]

/-- A write of PLT_PWR_CTL with its key: bit 0 enters DORMANT, then bit 1 ends it. -/
theorem pwrCtlWrite_key {val : Word} {s : State} (key : fld val 31 16 = 0xD0A5) :
    pwrCtlWrite val s = iff_ (bit val 1) dormantEnds (iff_ (bit val 0) dormantBegins s) := iff_of _ _ (decide_eq_true key)

theorem execDormantEntry_enters {val : Word} {s : State} (hup : hifUp s = true) (key : fld val 31 16 = 0xD0A5)
    (enter : bit val 0 = true) (stay : bit val 1 = false) :
    execDormantEntry val s = .next (dormantBegins s) := by
  refine congrArg _ ((iff_of _ _ hup).trans ?_)
  rw [pwrCtlWrite_key key, enter, stay, iff_false, iff_true]

theorem execDormantWake_wakes {val : Word} {s : State} (hup : hifUp s = true) (key : fld val 31 16 = 0xD0A5)
    (noEntry : bit val 0 = false) (wake : bit val 1 = true) :
    execDormantWake val s = .next (dormantEnds s) := by
  refine congrArg _ ((iff_of _ _ hup).trans ?_)
  rw [pwrCtlWrite_key key, noEntry, wake, iff_false, iff_true]

theorem execDormantWindowStart_opens {w : Time80 × Time80} {s : State} (on : govOn s = true) (hp : s.pwr.powered = true)
    (planned : w ∈ (img s).cal.dormant) (opened : windowOpen s w = true) :
    execDormantWindowStart s = .next (dormantBegins { s with ps := { s.ps with dormantWin := true } }) := by
  have due : (img s).cal.dormant.any (windowOpen s) = true := List.any_eq_true.mpr ⟨w, planned, opened⟩
  exact congrArg _ (iff_of _ _ (by rw [on, hp, due]; rfl))

/-- The end of its window wakes a module in DORMANT. -/
theorem windowEnds_dormant {s : State} (dormant : s.ps.module = 2) : windowEnds s = { s with ps := { s.ps with
    dormantWin := false, waking := s.ps.proof ++ s.ps.chill.map (64 + ·), module := 3 } } := by
  have notEntering : ¬s.ps.module = 1 := by omega
  exact (if_neg notEntering).trans (dormantEnds_dormant dormant)

/-- The lead of a reset or a DORMANT entry ends in it (R318). -/
theorem execLeaveLeadExpiry_lead {l : Lead} {s : State} (lead : s.pwr.lead = some l) :
    execLeaveLeadExpiry s = .next (leadEnds l s) := by
  rw [execLeaveLeadExpiry, lead]

/-- Settles O9: each row is its operation once the condition that its hypotheses name holds. -/
theorem paceAndGovernorRowsComplete : Obligations.PaceAndGovernorRowsComplete := by
  refine ⟨?sample, ?loop, ?low, ?margin, ?proof, ?chill, ?wake, ?awake, ?entry, ?dormantWake, ?windowStart, ?windowEnd, ?disable,
    ?quiet, ?leadReset, ?leadDormant⟩
  case sample => exact fun t l s hrun => congrArg _ (iff_of _ _ hrun)
  case loop => exact fun t i m s => execAvsLoop_runs
  case low => exact fun t i s => execPaceLow_low
  case margin => exact fun t i m s => execPaceMargin_below
  case proof =>
    exact fun g next s on calendar active hg hrun idle notGated room =>
      (execGovernorEvaluate_on _ _ on calendar active).trans (congrArg _ (govern_pipe hg hrun idle notGated room))
  case chill =>
    exact fun t next s on calendar active hrun allowed notGated room =>
      (execGovernorEvaluate_on _ _ on calendar active).trans (congrArg _ (govern_tile hrun allowed notGated room))
  case wake => exact fun g s => execGovernorWake_pipe
  case awake => exact fun g failed s => execIslandWakeDone_pipe failed
  case entry =>
    exact fun val s hup key enter stay active calendar noLead noSag =>
      (execDormantEntry_enters hup key enter stay).trans (congrArg _ (dormantBegins_active active calendar noLead noSag))
  case dormantWake =>
    exact fun val s hup key noEntry wake dormant =>
      (execDormantWake_wakes hup key noEntry wake).trans (congrArg _ (dormantEnds_dormant dormant))
  case windowStart =>
    exact fun w s on hp active calendar noLead noSag planned begun unended =>
      (execDormantWindowStart_opens on hp planned (windowOpen_of begun unended)).trans
        (congrArg _ (dormantBegins_active active calendar noLead noSag))
  case windowEnd =>
    exact fun s opened dormant => congrArg _ ((iff_of _ _ opened).trans (windowEnds_dormant dormant))
  case disable => exact fun s hup => congrArg _ (iff_of _ _ hup)
  case quiet =>
    exact fun t w s hrun loud planned begun unended =>
      execQuietWindowStart_opens hrun loud planned (windowOpen_of begun unended)
  case leadReset => exact fun cold s => execLeaveLeadExpiry_lead
  case leadDormant => exact fun s => execLeaveLeadExpiry_lead

end Sys2Proof.Machine
end

section
namespace Sys2Proof.Machine

/-! ## The corridor: hellos, hold time, management frames, failures and repairs (R306 to R315, R384) -/

section
variable {p : Nat} {s : State}

/-- A hello at an aligned fabric port (R306). -/
theorem execHelloReceive_aligned {h : Hello} (fabric : isFabric s p = true) (hport : portExists s p = true)
    (aligned : (port s p).aligned = true) :
    execHelloReceive p h s = .next (if h.version ≠ 1 || h.payloadLen < 46 then fabCnt p 2 s else takeHello p h s) :=
  congrArg _ (iff_of _ _ (by rw [fabric, hport, aligned]; rfl))

/-- A management frame at an aligned fabric port (R307, R309). -/
theorem execManagementFrameReceive_aligned {m : Mgmt} (fabric : isFabric s p = true) (hport : portExists s p = true)
    (aligned : (port s p).aligned = true) (notHello : m.type ≠ 1) :
    execManagementFrameReceive p m s = .next (
      if quarantined s p && !(takesMgmt s m && (m.type = 4 || m.type = 5)) then fabCnt p 7 s
      else iff_ (takesMgmt s m) (checkMgmt p m) s) :=
  congrArg _ (iff_of _ _ (by rw [fabric, hport, aligned, decide_eq_true notHello]; rfl))

/-- The revert time ends the failure it was announced for, while that is in force (R312). -/
theorem execRevertTime_due (due : s.cfb.revertAt.isSome = true) (inForce : activeFail s = s.cfb.revertId) :
    execRevertTime s = .next { rset .cfbStat 0 0 11 0 0 s with
      cfb := { s.cfb with revertId := 0, revertAt := none, originated := s.cfb.originated.filter (· ≠ s.cfb.revertId) } } := by
  refine congrArg _ ((iff_of _ _ due).trans ?_)
  dsimp only
  rw [iff_of _ _ (decide_eq_true inForce)]
  rfl

/-- A frame of the management port that is no RESET goes to the MGMT ring (R384). -/
theorem execMgmtPortFrameRx_plain {bytes : List Byte} {r : Nat} (hstage : 3 ≤ stage s)
    (ring : findRing s mgr (fun g => g.kind = 2 && g.mgmt) = some r) :
    execMgmtPortFrameRx bytes none s = .next (deliverRx mgr r bytes (mdSet 89 80 1023 0) s) := by
  refine congrArg _ ((iff_of _ _ (decide_eq_true hstage)).trans ?_)
  dsimp only [execMgmtPortFrameRx.toMgmtRing]
  rw [ring]

end

/-- Settles O23: each row is its operation once the condition that its hypotheses name holds; a frame's row by its branch. -/
theorem corridorRowsComplete : Obligations.CorridorRowsComplete := by
  refine ⟨?hello, ?heard, ?otherVersion, ?hold, ?checked, ?quarantine, ?again, ?repair, ?revert, ?mgmtPort⟩
  case hello => exact fun p s allowed => congrArg _ (iff_of _ _ allowed)
  case heard =>
    intro p h s fabric hport aligned version long
    refine (execHelloReceive_aligned fabric hport aligned).trans (congrArg _ (if_neg ?_))
    simp only [version, Nat.not_lt.mpr long, ne_eq, not_true, decide_false, Bool.or_self, Bool.false_eq_true, not_false_eq_true]
  case otherVersion =>
    intro p h s fabric hport aligned version
    refine (execHelloReceive_aligned fabric hport aligned).trans (congrArg _ (if_pos ?_))
    rw [decide_eq_true version, Bool.true_or]
  case hold => exact fun p s fabric known => congrArg _ (iff_of _ _ (by rw [fabric, decide_eq_true known]; rfl))
  case checked =>
    intro p m s fabric hport aligned notHello mine free
    refine (execManagementFrameReceive_aligned fabric hport aligned notHello).trans (congrArg _ ?_)
    rw [free, Bool.false_and, if_neg Bool.false_ne_true, mine, iff_true]
  case quarantine =>
    intro p m s fabric hport aligned other held
    simp only [List.mem_cons, List.not_mem_nil, or_false, not_or] at other
    obtain ⟨notHello, notReset, notData⟩ := other
    refine (execManagementFrameReceive_aligned fabric hport aligned notHello).trans (congrArg _ (if_pos ?_))
    rw [held, decide_eq_false notReset, decide_eq_false notData, Bool.or_self, Bool.and_false]
    rfl
  case again =>
    exact fun s failed own => congrArg _ (iff_of _ _ (by rw [decide_eq_true failed, List.contains_eq_mem, decide_eq_true own]; rfl))
  case repair => exact fun p s fabric due => congrArg _ (iff_of _ _ (by rw [fabric, due]; rfl))
  case revert => exact fun s => execRevertTime_due
  case mgmtPort => exact fun bytes r s => execMgmtPortFrameRx_plain

end Sys2Proof.Machine
end

section
namespace Sys2Proof.Machine

/-! ## What the collector does with a record (R401 to R403) -/

/-- A value that is not the default is read back, whatever the table's form. -/
theorem tget_tput_of_ne_default {α : Type} [Inhabited α] [DecidableEq α] (key : Nat) {v : α} (h : v ≠ default) :
    ∀ t : Tab α, tget (tput t key v) key = v
  | [] => by simp only [tput, if_neg h, tget, if_true]
  | (k, w) :: r => by
    unfold tput
    split
    · simp only [tget, if_true]
    · split
      · simp only [tget, if_true]
      · rename_i other above
        simp only [tget, if_neg other, if_neg above, tget_tput_of_ne_default key h r]

/-! ### The FIFO (R402) -/

theorem serviceOnly_post (q typ src : Nat) (body : List Word) (s : State) : ServiceOnly s (post q typ src body s) := by
  unfold post postAt
  split
  · exact serviceOnly_postTo ..
  · exact serviceOnly_count ..

theorem ServiceOnly.flt {s t : State} (h : ServiceOnly s t) : t.flt = s.flt := by
  obtain ⟨_, _, _, _, _, rfl⟩ := h
  rfl

/-- A record that finds the FIFO unfrozen with room is its new last one. -/
theorem appendRec_room {s : State} (r : FaultRec) (live : frozen s = false) (room : s.flt.fifo.length < 64) :
    (appendRec r s).flt = { s.flt with
      fifo := s.flt.fifo ++ [{ r with seq := s.flt.seq, time := s.tim.now }], seq := (s.flt.seq + 1) % 65536 } := by
  rw [appendRec, if_neg (Bool.eq_false_iff.mp live), if_neg (Nat.not_le.mpr room)]
  exact (count_flt ..).trans (serviceOnly_post ..).flt

/-- One that finds it frozen or full is only counted as lost. -/
theorem appendRec_lost {s : State} (r : FaultRec) (h : frozen s = true ∨ 64 ≤ s.flt.fifo.length) : (appendRec r s).flt = s.flt := by
  unfold appendRec
  split
  · rfl
  · rename_i live
    rw [if_pos (h.resolve_left live)]
    rfl

/-- POP drops the head record and nothing else. -/
theorem execFltPop_up {s : State} (hup : hifUp s = true) :
    execFltPop s = .next { s with flt := { s.flt with fifo := s.flt.fifo.drop 1 } } := congrArg _ (iff_of popFault s hup)

/-! ### Repeats of a HELD unit (R403) -/

/-- The status of a HELD unit after a fault that makes no record. -/
abbrev repeated (x : UnitSt) : UnitSt := { x with rep := true, repeats := min 255 (x.repeats + 1) }

/-- A repeat leaves the unit fenced or not, as it was. -/
theorem isFenced_repeated (u : Nat) (s : State) : isFenced (setUnit u repeated s) u = isFenced s u := by
  have listed : repeated (unitSt s u) ≠ default := fun h => Bool.noConfusion (congrArg UnitSt.rep h)
  have status : unitSt (setUnit u repeated s) u = repeated (unitSt s u) := tget_tput_of_ne_default u listed s.flt.units
  rw [isFenced, status, isFenced]

section
variable {u code info addr : Nat} {s : State}

/-- A unit is heard whose tile, where it lies in one, is neither fenced nor in reset while the module runs. -/
theorem unitSilent_of_heard
    (heard : ∀ t, unitTile u = some t → tileFenced s t = false ∧ (7 ≤ stage s → stage s ≤ 9 → tileReady s t = true)) :
    unitSilent s u = false := by
  cases home : unitTile u with
  | none => rw [unitSilent, home, Option.any_none]
  | some t =>
    obtain ⟨unfenced, ready⟩ := heard t home
    rw [unitSilent, home, Option.any_some, unfenced, Bool.false_or]
    by_cases runs : 7 ≤ stage s ∧ stage s ≤ 9
    · rw [ready runs.1 runs.2, Bool.not_true, Bool.and_false]
    · rw [← Bool.decide_and, decide_eq_false runs, Bool.false_and]

/-- Outside the safe state a fault of a unit that is heard is taken, but for the collector's own. -/
theorem report_taken (class3 : codeClass code < 3) (live : inSafe s = false)
    (heard : ∀ t, unitTile u = some t → tileFenced s t = false ∧ (7 ≤ stage s → stage s ≤ 9 → tileReady s t = true)) :
    report u code info addr s = takeFault u code info addr s := by
  rw [report, if_neg (Nat.ne_of_lt class3), if_neg (Bool.eq_false_iff.mp live),
    if_neg (Bool.eq_false_iff.mp (unitSilent_of_heard heard))]

/-- In the safe state it is counted as lost and its unit's status is set (R410). -/
theorem report_inSafe (class3 : codeClass code < 3) (safe : inSafe s = true) :
    report u code info addr s = countLost (setUnit u (heldStatus code) s) := by
  rw [report, if_neg (Nat.ne_of_lt class3), if_pos safe]

/-- A fault of a HELD unit, of the same or a lower class, repeats; a pipeline or slab that is unfenced is fenced again (log 87). -/
theorem takeFault_repeats (held : (unitSt s u).held = true) (lower : codeClass code ≤ (unitSt s u).cls) :
    takeFault u code info addr s =
      iff_ ((u / 4096 = 2 || u / 4096 = 3) && codeClass code = 1 && !isFenced s u) (fenceUnit u 0) (setUnit u repeated s) := by
  rw [takeFault, if_pos (by rw [held, decide_eq_true lower]; rfl)]
  dsimp only
  rw [isFenced_repeated]

/-- A repeat only counts where no pipeline or slab is to be fenced again. -/
theorem takeFault_counts (held : (unitSt s u).held = true) (lower : codeClass code ≤ (unitSt s u).cls)
    (kept : u / 4096 = 2 ∨ u / 4096 = 3 → codeClass code = 0 ∨ isFenced s u = true) :
    takeFault u code info addr s = setUnit u repeated s := by
  refine (takeFault_repeats held lower).trans (iff_off _ _ (Bool.eq_false_iff.mpr fun again => ?_))
  simp only [Bool.and_eq_true, Bool.or_eq_true, decide_eq_true_eq, Bool.not_eq_true'] at again
  obtain ⟨⟨kind, contained⟩, unfenced⟩ := again
  obtain informative | fenced := kept kind
  · omega
  · exact absurd unfenced (Bool.not_eq_false _ ▸ fenced)

theorem takeFault_fencesAgain (held : (unitSt s u).held = true) (contained : codeClass code = 1) (lower : 1 ≤ (unitSt s u).cls)
    (kind : u / 4096 = 2 ∨ u / 4096 = 3) (unfenced : isFenced s u = false) :
    takeFault u code info addr s = fenceUnit u 0 (setUnit u repeated s) := by
  refine (takeFault_repeats held (contained ▸ lower)).trans (iff_of _ _ ?_)
  rw [unfenced, decide_eq_true contained, Bool.and_true, Bool.not_false, Bool.and_true, Bool.or_eq_true, decide_eq_true_eq,
    decide_eq_true_eq]
  exact kind

end

/-- Settles O58: the FIFO's two cases, and the report of a HELD unit, in the safe state and outside. -/
theorem faultFifoRule : Obligations.FaultFifoRule := by
  refine ⟨?room, ?lost, ?counts, ?fencesAgain, ?safe, fun s => execFltPop_up⟩
  case room =>
    intro r s live room
    rw [appendRec_room r live room]
    exact ⟨rfl, rfl⟩
  case lost =>
    intro r s h
    rw [appendRec_lost r h]
    exact ⟨rfl, rfl⟩
  case counts =>
    exact fun u code info addr s class3 live heard held lower kept =>
      (report_taken class3 live heard).trans (takeFault_counts held lower kept)
  case fencesAgain =>
    exact fun u code info addr s contained live kind heard held lower unfenced =>
      (report_taken (by omega) live heard).trans (takeFault_fencesAgain held contained lower kind unfenced)
  case safe =>
    intro u code info addr s class3 safe
    rw [report_inSafe class3 safe]
    exact ⟨rfl, rfl⟩

end Sys2Proof.Machine
end

section
namespace Sys2Proof.Machine

/-! ## Fault reports, safe state and the clearing of a unit (R360, R400 to R411) -/

/-- A report that names a unit of its code's kind reaches the collector (R404). -/
theorem execFaultReport_powered {u code : Nat} (info addr : Nat) {s : State} (hp : s.pwr.powered = true)
    (ok : faultOk u code = true) : execFaultReport u code info addr s =
      .next (if code = 0x0304 then thermTrip u s else report u code info addr s) :=
  congrArg _ (iff_of _ _ (by rw [hp, ok]; rfl))

/-- The reset that must follow a COLLECTOR fault (R411). -/
theorem execCollectorResetTimeout_due {s : State} (due : s.flt.collectorReset = true) :
    execCollectorResetTimeout s = .next (arbitrateAs true 4 false s) := congrArg _ (iff_of _ _ due)

/-- A reset that must act does so outside a sag sequence: the cold one where one is pending (R69). -/
theorem arbitrateAs_acts {cause : Nat} {s : State} (noSag : sagRunning s = false) :
    arbitrateAs true cause false s = if pendingCold s then coldReset s else warmReset s := by
  rw [arbitrateAs, if_neg (Bool.eq_false_iff.mp noSag), if_neg (by rw [Bool.not_true, Bool.and_false]; exact Bool.false_ne_true),
    Bool.false_or, moduleReset]

/-- A unit whose cause is gone returns to service (R406). -/
theorem clearUnit_gone {s : State} (gone : causeActive s (rfld s .fltUnitSel 0 0 15 0) = false) : clearUnit s =
    unitReturns (rfld s .fltUnitSel 0 0 15 0) (advanceFree
      (setUnit (rfld s .fltUnitSel 0 0 15 0) (fun x => { x with held := false, rep := false, repeats := 0 }) s)) :=
  if_neg (Bool.eq_false_iff.mp gone)

/-- The fence or reset that waits for an engine's boundary is taken when none comes (R360). -/
theorem execEngineFenceTimeout_waits {e : Nat} {s : State} (waits : (engine s e).fenceReq = true ∨ (engine s e).resetReq = true) :
    execEngineFenceTimeout e s = .next (takeRequest e s) :=
  congrArg _ (iff_of _ _ (by rwa [Bool.or_eq_true]))

/-- Settles O8: each row is its operation once the condition that its hypotheses name holds. -/
theorem faultRowsComplete : Obligations.FaultRowsComplete := by
  refine ⟨?fault, ?trip, ?policy, ?collector, ?collectorSag, fun s => execFltPop_up, ?enter, ?clear, ?fence, ?reset⟩
  case fault =>
    exact fun u code info addr s hp ok other => (execFaultReport_powered info addr hp ok).trans (congrArg _ (if_neg other))
  case trip => exact fun u info addr s hp ok => execFaultReport_powered info addr hp ok
  case policy => exact fun s safe policy => congrArg _ (iff_of _ _ (by rw [safe, decide_eq_true policy]; rfl))
  case collector =>
    exact fun s due noSag => (execCollectorResetTimeout_due due).trans (congrArg _ (arbitrateAs_acts noSag))
  case collectorSag => exact fun s due sag => (execCollectorResetTimeout_due due).trans (congrArg _ (if_pos sag))
  case enter => exact fun s hup => congrArg _ (iff_of (safeWrite 0x5AFE) s hup)
  case clear => exact fun s hup gone => congrArg _ ((iff_of _ _ hup).trans (clearUnit_gone gone))
  case fence => exact fun e s waits => (execEngineFenceTimeout_waits (.inl waits)).trans (congrArg _ (if_pos waits))
  case reset =>
    intro e s noFence waits
    refine (execEngineFenceTimeout_waits (.inr waits)).trans (congrArg _ ?_)
    exact (if_neg (Bool.eq_false_iff.mp noFence)).trans (if_pos waits)

end Sys2Proof.Machine
end

section
namespace Sys2Proof.Machine

/-! ## Ring indices (R370) -/

section
variable {k i p c : Nat}

/-- A ring of 6 to 16 index bits has at most as many entries as an index has positions. -/
theorem ringSize_le (hk : k ≤ 16) : 2 ^ k ≤ 65536 := Nat.pow_le_pow_right (n := 2) (by decide) hk

/-- The wrap bit of an index, and the linear value that it makes. -/
theorem lin_cases (h : RingIndex k i) :
    (i / 65536 = 0 ∧ i = i % 65536 ∧ lin k i = i % 65536) ∨ (i / 65536 = 1 ∧ i = 65536 + i % 65536 ∧ lin k i = 2 ^ k + i % 65536) := by
  have position := Nat.div_add_mod i 65536
  obtain low | high : i / 65536 = 0 ∨ i / 65536 = 1 := by omega
  · exact .inl ⟨low, by omega, by rw [lin, low, Nat.zero_mul, Nat.zero_add]⟩
  · exact .inr ⟨high, by omega, by rw [lin, high, Nat.one_mul]⟩

theorem lin_lt (h : RingIndex k i) : lin k i < 2 ^ (k + 1) := by
  rw [Nat.pow_succ]
  obtain ⟨-, -, value⟩ | ⟨-, -, value⟩ := lin_cases h <;> omega

/-- Within the ring the position goes on. -/
theorem idxNext_inside (h : i % 65536 + 1 < 2 ^ k) : idxNext k i = i + 1 := if_pos h

/-- Past the last position it is 0 again and the wrap bit toggles. -/
theorem idxNext_last (h : i % 65536 = 2 ^ k - 1) : idxNext k i = if i / 65536 = 0 then 65536 else 0 :=
  if_neg (by have := Nat.two_pow_pos k; omega)

/-- The index after an index: one more in linear value, its wrap bit toggled exactly past the last position. -/
theorem idxNext_rule (hk : k ≤ 16) (h : RingIndex k i) :
    RingIndex k (idxNext k i) ∧ lin k (idxNext k i) = (lin k i + 1) % 2 ^ (k + 1) ∧
    (idxNext k i / 65536 ≠ i / 65536 ↔ i % 65536 = 2 ^ k - 1) ∧ (i % 65536 = 2 ^ k - 1 → idxNext k i % 65536 = 0) := by
  have size := ringSize_le hk
  have twice : 2 ^ (k + 1) = 2 ^ k * 2 := Nat.pow_succ ..
  have below := lin_lt h
  obtain inside | last : i % 65536 + 1 < 2 ^ k ∨ i % 65536 = 2 ^ k - 1 := by omega
  · have position : (i + 1) % 65536 = i % 65536 + 1 := by omega
    have wrap : (i + 1) / 65536 = i / 65536 := by omega
    have value : lin k (i + 1) = lin k i + 1 := by rw [lin, lin, position, wrap, Nat.add_assoc]
    rw [idxNext_inside inside, wrap, value]
    refine ⟨⟨by omega, by omega⟩, (Nat.mod_eq_of_lt ?_).symm, by omega, by omega⟩
    obtain ⟨-, -, linear⟩ | ⟨-, -, linear⟩ := lin_cases h <;> omega
  · rw [idxNext_last last]
    obtain ⟨wrap, -, linear⟩ | ⟨wrap, -, linear⟩ := lin_cases h
    · have value : lin k 65536 = 2 ^ k := by simp [lin]
      rw [if_pos wrap, wrap, value, linear, last]
      refine ⟨⟨by decide, Nat.two_pow_pos k⟩, ?_, by omega, by omega⟩
      rw [Nat.mod_eq_of_lt] <;> omega
    · have value : lin k 0 = 0 := by simp [lin]
      rw [if_neg (by omega), wrap, value, linear, last]
      refine ⟨⟨by decide, Nat.two_pow_pos k⟩, ?_, by omega, by omega⟩
      have whole : 2 ^ k + (2 ^ k - 1) + 1 = 2 ^ (k + 1) := by omega
      rw [whole, Nat.mod_self]

/-- The occupancy is the difference of the linear values, modulo twice the ring's size. -/
theorem occupancy_eq (p : Nat) (hc : RingIndex k c) :
    (occupancy k p c : Int) = ((lin k p : Int) - (lin k c : Int)) % 2 ^ (k + 1) := by
  have hc' := lin_lt hc
  have size : ((2 ^ (k + 1) : Nat) : Int) = 2 ^ (k + 1) := Int.natCast_pow 2 (k + 1)
  have shift : ((lin k p + 2 ^ (k + 1) - lin k c : Nat) : Int) = (lin k p : Int) - lin k c + (2 ^ (k + 1) : Nat) := by omega
  rw [occupancy, Int.natCast_emod, shift, Int.add_emod_right, size]

theorem occupancy_cases (hp : RingIndex k p) (hc : RingIndex k c) :
    (lin k c ≤ lin k p ∧ occupancy k p c = lin k p - lin k c) ∨
    (lin k p < lin k c ∧ occupancy k p c = lin k p + 2 ^ (k + 1) - lin k c) := by
  have hp' := lin_lt hp
  have hc' := lin_lt hc
  obtain ahead | behind := Nat.lt_or_ge (lin k p) (lin k c)
  · exact .inr ⟨ahead, Nat.mod_eq_of_lt (by omega)⟩
  · refine .inl ⟨behind, ?_⟩
    rw [occupancy, Nat.sub_add_comm behind, Nat.add_mod_right, Nat.mod_eq_of_lt (by omega)]

theorem lin_injective (hp : RingIndex k p) (hc : RingIndex k c) (same : lin k p = lin k c) : p = c := by
  obtain ⟨-, _, _⟩ | ⟨-, _, _⟩ := lin_cases hp <;> obtain ⟨-, _, _⟩ | ⟨-, _, _⟩ := lin_cases hc <;> omega

theorem occupancy_eq_zero (hp : RingIndex k p) (hc : RingIndex k c) : occupancy k p c = 0 ↔ p = c := by
  have hc' := lin_lt hc
  refine ⟨fun empty => lin_injective hp hc ?_, ?_⟩
  · obtain h | h := occupancy_cases hp hc <;> omega
  · rintro rfl
    obtain h | h := occupancy_cases hp hp <;> omega

/-- A ring is full at equal positions with different wrap bits. -/
theorem occupancy_eq_size (hp : RingIndex k p) (hc : RingIndex k c) :
    occupancy k p c = 2 ^ k ↔ p % 65536 = c % 65536 ∧ p / 65536 ≠ c / 65536 := by
  have twice : 2 ^ (k + 1) = 2 ^ k * 2 := Nat.pow_succ ..
  obtain ⟨_, _⟩ | ⟨_, _⟩ := occupancy_cases hp hc <;> obtain ⟨_, _, _⟩ | ⟨_, _, _⟩ := lin_cases hp <;>
    obtain ⟨_, _, _⟩ | ⟨_, _, _⟩ := lin_cases hc <;> omega

end

/-- A ring that RING.CRT makes has 2^6 to 2^16 entries from a base aligned to 4 KiB (R376). -/
theorem crtBad_false {c : Cmd} {s : State} (good : crtBad c s = false) :
    6 ≤ opf c 4 16 12 ∧ opf c 4 16 12 ≤ 16 ∧ opAddr c 6 % 4096 = 0 := by
  simp only [crtBad, Bool.or_eq_false_iff, decide_eq_false_iff_not, Nat.not_lt, ne_eq, Decidable.not_not] at good
  obtain ⟨⟨⟨⟨⟨⟨⟨-, least⟩, most⟩, base⟩, -⟩, -⟩, -⟩, -⟩ := good
  exact ⟨least, most, base⟩

/-- Settles O47: an index is a wrap bit and a position, so its linear value steps and subtracts modulo twice the ring's size. -/
theorem ringIndexArithmetic : Obligations.RingIndexArithmetic := by
  refine ⟨?next, ?occupancy, fun c s => crtBad_false⟩
  case next =>
    intro k i _ hk h
    obtain ⟨index, value, wrap, first⟩ := idxNext_rule hk h
    exact ⟨index, value, rfl, wrap, first⟩
  case occupancy => exact fun k p c _ _ hp hc => ⟨occupancy_eq p hc, occupancy_eq_zero hp hc, occupancy_eq_size hp hc⟩

end Sys2Proof.Machine
end

section
namespace Sys2Proof.Machine

/-! ## Rings: fetches, enabling, holdoff, timeouts, packet TX and slice reset (R339 to R385) -/

/-- A combinator's condition that is a proposition. -/
theorem iff_decide (P : Prop) [Decidable P] (f : State → State) (s : State) : iff_ (decide P) f s = if P then f s else s := by
  by_cases h : P
  · rw [decide_eq_true h, iff_true, if_pos h]
  · rw [decide_eq_false h, iff_false, if_neg h]

section
variable {q r : Nat} {s : State}

/-- A ring that fetches and reads no entry again takes what its fetch brings (R373). -/
theorem execDescriptorFetchDone_fetches (es : List (List Word)) (n : Nat) (hfetch : fetches s q r = true)
    (noRecheck : (ringSt s q r).recheck = false) : execDescriptorFetchDone q r es n s = .next (fetched q r es n s) :=
  congrArg _ (if_pos (by rw [hfetch, noRecheck]; rfl))

/-- An entry that a ring reads again is kept with PHASE 1 and fails the ring with PHASE 0 (R373). -/
theorem execPhaseRecheck_reads (e : List Word) (hfetch : fetches s q r = true) (recheck : (ringSt s q r).recheck = true) :
    execPhaseRecheck q r e s = .next (
      if phase1 e then keepFetched q r [e] (setRing q r (fun g => { g with recheck := false }) s)
      else ringFails q r (fun g => { g with phaseErr := true }) s) :=
  congrArg _ (iff_of _ _ (by rw [hfetch, recheck]; rfl))

/-- A ring that may be enabled and is not goes on; a ring other than 0 has its home engine (R375, R378). -/
theorem enableRing_enables (may : mayEnable s q r = true) (off : (ringSt s q r).en = false) (notAdmin : r ≠ 0) :
    enableRing q r s = (
      let t := pumpRing q r (setRing q r (fun g => { g with en := true, recheck := false }) s)
      if q = mgr then postTod 8 t else t) := by
  refine (iff_of _ _ (by rw [may, off]; rfl)).trans ?_
  dsimp only
  rw [iff_decide, if_neg notAdmin]

/-- An enabled ring is disabled, its iterative command PARTIAL (R378). -/
theorem disableRing_enabled (hring : ringExists s q r = true) (on : (ringSt s q r).en = true) :
    disableRing q r s = setRing q r (fun g => { g with en := false }) (endPartial q r s) :=
  iff_of (fun s => ringStop q r (endPartial q r s)) s (by rw [hring, on]; rfl)

/-- An interrupt due at the end of its ring's holdoff is sent (R368). -/
theorem execMsixHoldoffEnd_due (due : (ringSt s q r).irqDue = true) (on : (ringSt s q r).irqEn = true)
    (vector : (ringSt s q r).vector ≠ 0x7FF) : execMsixHoldoffEnd q r s = .next (
      let t := setRing q r (fun g => { g with irqDue := false, lastIrq := some s.tim.frc }) s
      sendVector ((vectorRange t q).1 + (ringSt s q r).vector) t) := by
  refine congrArg _ ((iff_of _ _ due).trans ?_)
  dsimp only
  rw [on, decide_eq_true vector, Bool.and_self, iff_true]

/-- A lost read of a ring's memory stops the ring (R374). -/
theorem execHostReadTimeout_ringMem (hup : hifUp s = true) (hring : ringExists s q r = true) :
    execHostReadTimeout q r true s =
      .next (ringFails q r (fun g => { g with dbErr := true }) (rset .hifStat 0 0 30 30 1 s)) :=
  congrArg _ (iff_of _ _ (by rw [hup, hring]; rfl))

end

/-- HIF takes the TX descriptors of a ring: it exists and is not resetting, the module is up and calls no halt (R382). -/
abbrev TakesTx (c : Cmd) (s : State) : Prop :=
  ringExists s c.req c.ring = true ∧ (ringSt s c.req c.ring).kind = 1 ∧ (ringSt s c.req c.ring).resetting = false ∧
  hifUp s = true ∧ calRuns s = true ∧ s.pwr.sagStep < 3 ∧ s.ps.module ≤ 1

/-- A TX descriptor is taken: the first check that it fails, what is wrong with its buffer, or the frame (R382). -/
theorem execPacketTxTake_takes {c : Cmd} {s : State} (takes : TakesTx c s) : execPacketTxTake c s = .next (
    match txFails c s with
    | some st => txEnds c st s
    | none =>
      match txClaim c s with
      | some (st, f) => txEnds c st (f s)
      | none => txPass c s) := by
  obtain ⟨hring, kind, live, hup, calendar, sag, awake⟩ := takes
  refine congrArg _ (iff_of _ _ ?_)
  rw [hring, kind, live, hup, calendar, decide_eq_true sag, decide_eq_true awake]
  rfl

/-- Settles O24: each row is its operation once the condition that its hypotheses name holds; a TX descriptor by its checks. -/
theorem ringRowsComplete : Obligations.RingRowsComplete := by
  refine ⟨?doorbell, ?fetch, ?phase1, ?phase0, ?enable, ?disable, ?holdoff, ?timeout, ?txPass, ?txFails, ?reset⟩
  case doorbell => exact fun q r i s hup => congrArg _ (iff_of _ _ hup)
  case fetch => exact fun q r n es s => execDescriptorFetchDone_fetches es n
  case phase1 =>
    exact fun q r e s hfetch recheck valid => (execPhaseRecheck_reads e hfetch recheck).trans (congrArg _ (if_pos valid))
  case phase0 =>
    exact fun q r e s hfetch recheck invalid =>
      (execPhaseRecheck_reads e hfetch recheck).trans (congrArg _ (if_neg (Bool.eq_false_iff.mp invalid)))
  case enable =>
    exact fun q r s hup may off notAdmin => congrArg _ ((iff_of _ _ hup).trans (enableRing_enables may off notAdmin))
  case disable => exact fun q r s hup hring on => congrArg _ ((iff_of _ _ hup).trans (disableRing_enabled hring on))
  case holdoff => exact fun q r s => execMsixHoldoffEnd_due
  case timeout => exact fun q r s => execHostReadTimeout_ringMem
  case txPass =>
    intro c s hring kind live hup calendar sag awake passes claimed
    refine (execPacketTxTake_takes ⟨hring, kind, live, hup, calendar, sag, awake⟩).trans ?_
    rw [passes, claimed]
  case txFails =>
    intro st c s hring kind live hup calendar sag awake fails
    refine (execPacketTxTake_takes ⟨hring, kind, live, hup, calendar, sag, awake⟩).trans ?_
    rw [fails]
  case reset =>
    exact fun sl s resetting => congrArg _ (iff_of _ _ (by rw [List.contains_eq_mem, decide_eq_true resetting]))

end Sys2Proof.Machine
end

section
namespace Sys2Proof.Machine

/-! ## Requests with a slice's PASID (R365, R438, R442) -/

section
variable {a : Access} {p sl t i : Nat} {r : Reg} {s : State}

theorem hostRead_rejected (rejected : pasidRejected s a = true) :
    hostRead a s = emit (.readData 0xFFFFFFFF) (pasidReject s) := if_pos rejected

theorem hostWrites_rejected (rejected : pasidRejected s a = true) : hostWrites a s = pasidReject s := if_pos rejected

/-- A request that is not rejected reaches BAR0. -/
theorem hostRead_accepted (accepted : pasidRejected s a = false) (hbar : a.bar = 0) : hostRead a s = bar0Read a s := by
  rw [hostRead, if_neg (Bool.eq_false_iff.mp accepted), if_pos hbar]

theorem hostWrites_accepted (accepted : pasidRejected s a = false) (hbar : a.bar = 0) : hostWrites a s = bar0Write a s := by
  rw [hostWrites, if_neg (Bool.eq_false_iff.mp accepted), if_pos hbar]

/-- The host's write of an offset in its BAR. -/
theorem execRegisterWrite_up (hup : hifUp s = true) (hin : inBar a = true) : execRegisterWrite a s = .next (hostWrites a s) :=
  congrArg _ (iff_of _ _ (by rw [hup, hin]; rfl))

/-- The PASID of a slice reaches BAR0 and the slice's own window of BAR2 (R365). -/
theorem pasidRejected_bound (hp : a.pasid = some p)
    (bound : (List.range 16).find? (fun x => boundPasid s x = some p) = some sl) :
    pasidRejected s a = true ↔ a.bar ≠ 0 ∧ ¬(a.bar = 2 ∧ a.off / 65536 = sl) := by
  simp only [pasidRejected, hp, bound, Bool.not_eq_true', Bool.or_eq_false_iff, decide_eq_false_iff_not, Bool.and_eq_false_iff,
    ne_eq, Decidable.not_and_iff_or_not]

theorem pasidRejected_unbound (hp : a.pasid = some p) (unbound : ∀ x < 16, boundPasid s x ≠ some p) : pasidRejected s a = true := by
  have none_ : (List.range 16).find? (fun x => boundPasid s x = some p) = none :=
    List.find?_eq_none.mpr fun x hx => by rw [decide_eq_true_eq]; exact unbound x (List.mem_range.mp hx)
  rw [pasidRejected, hp]
  dsimp only
  rw [none_]

/-- A slice reads 0 where a register is the manager's alone. -/
theorem bar0Read_hidden (hdec : decodeBar0 a.off = some (r, t, i)) (slice : a.pasid.isSome = true)
    (hidden : (regRow r).sliceVisible = false) : bar0Read a s = emit (.readData 0) s := by
  unfold bar0Read
  rw [hdec]
  exact if_pos (by rw [slice, hidden, Bool.not_false, Bool.and_self, Bool.or_true])

/-- A slice writes no register. -/
theorem bar0Write_slice (hdec : decodeBar0 a.off = some (r, t, i)) (slice : a.pasid.isSome = true) (whole : a.be = 15) :
    bar0Write a s = s := by
  have notManager : a.pasid.isNone = false := by rw [← Option.not_isSome, slice]; rfl
  unfold bar0Write
  rw [hdec, whole]
  exact iff_off _ _ (by rw [notManager, Bool.and_false, Bool.false_and])

end

/-- Settles O46: what is rejected, and a slice's accesses of BAR0. -/
theorem sliceAccessRules : Obligations.SliceAccessRules := by
  refine ⟨?rejected, fun a p sl s => pasidRejected_bound, fun a p s => pasidRejected_unbound, ?hiddenRead, ?write⟩
  case rejected =>
    intro a s hup hin rejected
    refine ⟨?_, ?_⟩
    · exact congrArg _ ((hostRead_reaches hup hin).trans (hostRead_rejected rejected))
    · exact (execRegisterWrite_up hup hin).trans (congrArg _ (hostWrites_rejected rejected))
  case hiddenRead =>
    exact fun a t i r s hup hbar hoff accepted slice hdec hidden =>
      congrArg _ ((hostRead_reaches hup (inBar_zero hbar hoff)).trans
        ((hostRead_accepted accepted hbar).trans (bar0Read_hidden hdec slice hidden)))
  case write =>
    exact fun a t i r s hup hbar hoff accepted slice hdec whole =>
      (execRegisterWrite_up hup (inBar_zero hbar hoff)).trans
        (congrArg _ ((hostWrites_accepted accepted hbar).trans (bar0Write_slice hdec slice whole)))

end Sys2Proof.Machine
end

section
namespace Sys2Proof.Machine

/-! ## What notices and completions change (R331, R368, R371, R374, R380) -/

/-! ### Beside the rings -/

/-- Rings, interrupts and counters alone have changed, and what was sent before stands behind what was sent since. -/
def Notifies (s t : State) : Prop := ∃ h n l, t = { s with hif := h, tel := n, out := l ++ s.out }

section
variable {s t u : State}

theorem Notifies.same : Notifies s s := ⟨_, _, [], rfl⟩

theorem Notifies.after (b : Notifies t u) (a : Notifies s t) : Notifies s u := by
  obtain ⟨h, n, l, rfl⟩ := a
  obtain ⟨h', n', l', rfl⟩ := b
  exact ⟨h', n', l' ++ l, by simp only [List.append_assoc]⟩

theorem notifies_ite {c : Prop} [Decidable c] (ht : Notifies s t) (hu : Notifies s u) : Notifies s (if c then t else u) := by
  split
  · exact ht
  · exact hu

theorem notifies_setRing (q r : Nat) (f : Ring → Ring) (s : State) : Notifies s (setRing q r f s) := ⟨_, _, [], rfl⟩

theorem notifies_count (k i n : Nat) (s : State) : Notifies s (count k i n s) := ⟨_, _, [], rfl⟩

theorem notifies_emitHost (o : Out) (s : State) : Notifies s (emitHost o s) := notifies_ite ⟨_, _, [o], rfl⟩ .same

theorem notifies_sendVector (v : Nat) (s : State) : Notifies s (sendVector v s) :=
  notifies_ite ⟨_, _, [], rfl⟩ (notifies_emitHost ..)

theorem notifies_ringIrq (q r : Nat) (s : State) : Notifies s (ringIrq q r s) := by
  have sent (v : Nat) (f : Ring → Ring) : Notifies s (sendVector v (setRing q r f s)) :=
    (notifies_sendVector ..).after (notifies_setRing ..)
  unfold ringIrq
  refine notifies_ite ?_ .same
  split
  · exact notifies_ite (notifies_setRing ..) (sent ..)
  · exact sent ..

theorem notifies_pushEntry (q r : Nat) (ws : List Word) (s : State) : Notifies s (pushEntry q r ws s) :=
  (notifies_ringIrq ..).after <| (notifies_count ..).after <| (notifies_setRing ..).after <| notifies_emitHost ..

theorem notifies_postTo (q r typ src : Nat) (tag : Word) (t : Time80) (body : List Word) (s : State) :
    Notifies s (postTo q r typ src tag t body s) :=
  notifies_ite ((notifies_count ..).after <| notifies_setRing ..) (notifies_pushEntry ..)

end

/-! ### In the rings -/

/-- Of the rings a change touches one at most, and of that one not the reading π. -/
structure RingKeeps (π : Ring → Ring) (q r : Nat) (s t : State) : Prop where
  wf : Tab.wf s.hif.rings = true → Tab.wf t.hif.rings = true
  kept : Tab.wf s.hif.rings = true → π (ringSt t q r) = π (ringSt s q r)
  others : Tab.wf s.hif.rings = true → ∀ k, k ≠ ringKey q r → tget t.hif.rings k = tget s.hif.rings k

/-- A ring apart from its interrupt. -/
def besideIrq (g : Ring) : Ring := { g with irqDue := false, lastIrq := none }

/-- A ring apart from what a notice written to it changes. -/
def besideNotice (g : Ring) : Ring :=
  { g with prod := 0, evtOverflow := false, lost := 0, firstLoss := {}, irqDue := false, lastIrq := none }

section
variable {π : Ring → Ring} {q r e : Nat} {s t u : State}

theorem ringKeeps_of_rings (h : t.hif.rings = s.hif.rings) : RingKeeps π q r s t := by
  have same : ringSt t q r = ringSt s q r := by rw [ringSt, ringSt, h]
  exact ⟨fun wf => h ▸ wf, fun _ => congrArg π same, fun _ _ _ => by rw [h]⟩

theorem RingKeeps.after (b : RingKeeps π q r t u) (a : RingKeeps π q r s t) : RingKeeps π q r s u where
  wf hs := b.wf (a.wf hs)
  kept hs := (b.kept (a.wf hs)).trans (a.kept hs)
  others hs k hk := (b.others (a.wf hs) k hk).trans (a.others hs k hk)

theorem ringKeeps_ite {c : Prop} [Decidable c] (ht : RingKeeps π q r s t) (hu : RingKeeps π q r s u) :
    RingKeeps π q r s (if c then t else u) := by
  split
  · exact ht
  · exact hu

/-- A ring after its own update. -/
theorem ringSt_setRing (wf : Tab.wf s.hif.rings = true) (f : Ring → Ring) : ringSt (setRing q r f s) q r = f (ringSt s q r) :=
  tget_tupd_same _ f wf

theorem setRing_wf (wf : Tab.wf s.hif.rings = true) (f : Ring → Ring) : Tab.wf (setRing q r f s).hif.rings = true :=
  tupd_wf _ f wf

theorem ringKeeps_setRing (f : Ring → Ring) (s : State) (h : ∀ g, π (f g) = π g := by exact fun _ => rfl) : RingKeeps π q r s (setRing q r f s) where
  wf hs := tupd_wf _ f hs
  kept hs := by rw [ringSt_setRing hs, h]
  others hs k hk := tget_tupd_ne f hk hs

theorem ringKeeps_count (k i n : Nat) (s : State) : RingKeeps π q r s (count k i n s) := ringKeeps_of_rings rfl

theorem emitHost_rings (o : Out) (s : State) : (emitHost o s).hif.rings = s.hif.rings := by
  unfold emitHost iff_
  split <;> rfl

theorem sendVector_rings (v : Nat) (s : State) : (sendVector v s).hif.rings = s.hif.rings := by
  unfold sendVector
  extract_lets ctl
  split
  · rfl
  · exact emitHost_rings ..

theorem ringKeeps_ringIrq (q r : Nat) (s : State) : RingKeeps besideIrq q r s (ringIrq q r s) := by
  have sent (v : Nat) : RingKeeps besideIrq q r s (sendVector v (setRing q r (fun g => { g with lastIrq := some s.tim.frc }) s)) :=
    RingKeeps.after (ringKeeps_of_rings (sendVector_rings ..)) (ringKeeps_setRing (fun g => { g with lastIrq := some s.tim.frc }) s)
  unfold ringIrq
  refine ringKeeps_ite ?_ (ringKeeps_of_rings rfl)
  split
  · exact ringKeeps_ite (ringKeeps_setRing _ s) (sent _)
  · exact sent _

/-- Whatever leaves a ring apart from its interrupt leaves it apart from a notice's changes. -/
theorem RingKeeps.besideNotice (h : RingKeeps besideIrq q r s t) : RingKeeps besideNotice q r s t :=
  { h with kept := fun hs => (congrArg Machine.besideNotice (h.kept hs) :) }

theorem ringKeeps_pushEntry (q r : Nat) (ws : List Word) (s : State) : RingKeeps besideNotice q r s (pushEntry q r ws s) :=
  (ringKeeps_ringIrq ..).besideNotice.after <| (ringKeeps_count ..).after <|
    (ringKeeps_setRing ..).after <| ringKeeps_of_rings (emitHost_rings ..)

theorem ringKeeps_postTo (q r typ src : Nat) (tag : Word) (t : Time80) (body : List Word) (s : State) :
    RingKeeps besideNotice q r s (postTo q r typ src tag t body s) :=
  ringKeeps_ite ((ringKeeps_count ..).after <| ringKeeps_setRing ..) (ringKeeps_pushEntry ..)

/-- A requester's other ring. -/
theorem RingKeeps.other (h : RingKeeps π q e s t) (wf : Tab.wf s.hif.rings = true) (hne : r ≠ e) : ringSt t q r = ringSt s q r :=
  h.others wf _ (by rw [ringKey, ringKey]; omega)

end

/-! ### Notices to a ring's event ring (R376) -/

/-- A notice of a ring, to its event ring; with none it is lost and counted. -/
def postEvt (q r typ : Nat) (tag : Word) (body : List Word) (s : State) : State :=
  match evtRingOf s q r with
  | some e => postTo q e typ r tag s.tim.now body s
  | none => ringCnt q 0 6 1 s

theorem ringError_eq (q r : Nat) (s : State) : ringError q r s =
    postEvt q r 0x04 0 [pack [(6, 6, (ringSt s q r).phaseErr.toNat), (5, 5, (ringSt s q r).dbErr.toNat)]] s := rfl

section
variable {q r e : Nat} {s : State}

/-- The event ring of a ring is of kind EVENT. -/
theorem kind_evtRingOf (h : evtRingOf s q r = some e) : (ringSt s q e).kind = 7 := by
  unfold evtRingOf at h
  dsimp only at h
  split at h
  · rename_i named
    obtain rfl := Option.some.inj h
    rw [Bool.and_eq_true, decide_eq_true_eq] at named
    exact named.2
  · have picked := List.find?_some h
    simp only [Bool.and_eq_true, decide_eq_true_eq] at picked
    exact picked.2.1

theorem notifies_postEvt (q r typ : Nat) (tag : Word) (body : List Word) (s : State) : Notifies s (postEvt q r typ tag body s) := by
  unfold postEvt
  split
  · exact notifies_postTo ..
  · exact notifies_count ..

/-- A notice of a ring of another kind leaves that ring. -/
theorem ringSt_postEvt_other {typ : Nat} {tag : Word} {body : List Word} (wf : Tab.wf s.hif.rings = true)
    (other : (ringSt s q r).kind ≠ 7) : ringSt (postEvt q r typ tag body s) q r = ringSt s q r := by
  unfold postEvt
  split
  · rename_i e evt
    refine (ringKeeps_postTo ..).other wf fun same => other ?_
    rw [same, kind_evtRingOf evt]
  · rfl

/-- An event ring whose notice goes to itself changes as by any notice. -/
theorem ringSt_postEvt {typ : Nat} {tag : Word} {body : List Word} (wf : Tab.wf s.hif.rings = true) :
    besideNotice (ringSt (postEvt q r typ tag body s) q r) = besideNotice (ringSt s q r) := by
  by_cases event : (ringSt s q r).kind = 7
  · unfold postEvt
    split
    · rename_i e evt
      by_cases same : r = e
      · subst same
        exact (ringKeeps_postTo ..).kept wf
      · rw [(ringKeeps_postTo ..).other wf same]
    · rfl
  · rw [ringSt_postEvt_other wf event]

end

end Sys2Proof.Machine
end

section
namespace Sys2Proof.Machine

/-! ## Doorbells (R371, R374) -/

section
variable {q r idx : Nat} {g : Ring} {s : State}

/-- A doorbell of a ring that exists and is not resetting. -/
theorem doorbell_served (hring : ringExists s q r = true) (live : (ringSt s q r).resetting = false) :
    doorbell q r idx s = if bellBad (ringSt s q r) idx then bellRefused q r s
      else if (ringSt s q r).kind ≤ 2 then bellSubmit q r idx s else bellConsume q r idx s :=
  if_neg (by rw [hring, live]; exact Bool.false_ne_true)

/-- An index of the doorbell's field acts on a ring that is served. -/
theorem execRingDoorbell_served (hup : hifUp s = true) (hring : ringExists s q r = true)
    (live : (ringSt s q r).resetting = false) (hidx : idx < 131072) :
    execRingDoorbell q r idx s = .next (if bellBad (ringSt s q r) idx then bellRefused q r s
      else if (ringSt s q r).kind ≤ 2 then bellSubmit q r idx s else bellConsume q r idx s) := by
  refine congrArg _ ((iff_of _ _ hup).trans ?_)
  rw [Nat.mod_eq_of_lt hidx, doorbell_served hring live]

/-- What a submission ring accepts: an index in the ring that neither overfills it nor moves back. -/
theorem bellBad_submission (kind : g.kind ≤ 2) : bellBad g idx = false ↔ idx % 65536 < 2 ^ g.log2 ∧
    occupancy g.log2 idx g.cons ≤ 2 ^ g.log2 ∧ occupancy g.log2 g.prod g.cons ≤ occupancy g.log2 idx g.cons := by
  rw [bellBad, if_pos kind]
  simp only [Bool.or_eq_false_iff, decide_eq_false_iff_not, Nat.not_le, Nat.not_lt]
  rfl

/-- What a notice ring refuses: an index outside the ring, one that passes the producer or one that moves back. -/
theorem bellBad_notice (kind : 3 ≤ g.kind) : bellBad g idx = true ↔ 2 ^ g.log2 ≤ idx % 65536 ∨
    occupancy g.log2 g.prod g.cons < occupancy g.log2 g.prod idx := by
  rw [bellBad, if_neg (Nat.not_le.mpr kind)]
  simp only [Bool.or_eq_true, decide_eq_true_eq]
  rfl

/-- A ring marked with DB_ERR, and the doorbell counted. -/
def bellMarked (q r : Nat) (s : State) : State := ringCnt q r 5 1 (setRing q r (fun g => { g with dbErr := true }) s)

theorem bellMarked_wf (wf : Tab.wf s.hif.rings = true) : Tab.wf (bellMarked q r s).hif.rings = true :=
  setRing_wf wf fun g => { g with dbErr := true }

theorem ringSt_bellMarked (wf : Tab.wf s.hif.rings = true) : ringSt (bellMarked q r s) q r = { ringSt s q r with dbErr := true } :=
  ringSt_setRing wf fun g => { g with dbErr := true }

theorem bellRefused_eq : bellRefused q r s = ringError q r (bellMarked q r s) := rfl

/-- A refused doorbell leaves its ring but for DB_ERR and, in an event ring that takes its own notice, that notice's changes. -/
theorem ringSt_bellRefused (wf : Tab.wf s.hif.rings = true) :
    besideNotice (ringSt (bellRefused q r s) q r) = besideNotice { ringSt s q r with dbErr := true } := by
  rw [bellRefused_eq, ringError_eq, ringSt_postEvt (bellMarked_wf wf), ringSt_bellMarked wf]

theorem ringSt_bellRefused_submission (wf : Tab.wf s.hif.rings = true) (kind : (ringSt s q r).kind ≤ 2) :
    ringSt (bellRefused q r s) q r = { ringSt s q r with dbErr := true } := by
  have other : (ringSt (bellMarked q r s) q r).kind ≠ 7 := by
    rw [ringSt_bellMarked wf]
    exact fun event => absurd (event ▸ kind) (by decide)
  rw [bellRefused_eq, ringError_eq, ringSt_postEvt_other (bellMarked_wf wf) other, ringSt_bellMarked wf]

/-- An accepted doorbell of a submission ring moves the producer index, and sends nothing. -/
theorem ringSt_bellSubmit (wf : Tab.wf s.hif.rings = true) : ∃ bells,
    ringSt (bellSubmit q r idx s) q r = { ringSt s q r with prod := idx, bells := bells } ∧ (bellSubmit q r idx s).out = s.out := by
  unfold bellSubmit
  split
  · rename_i same
    exact ⟨(ringSt s q r).bells, by rw [← same], rfl⟩
  · exact ⟨_, ringSt_setRing (s := { s with hif := { s.hif with bellCount := s.hif.bellCount + 1 } }) wf _, rfl⟩

/-- An accepted doorbell of a notice ring that moves its index frees entries. -/
theorem bellConsume_moves (moves : idx ≠ (ringSt s q r).cons) : bellConsume q r idx s = (
    let t := pumpRing q r (writeSummary q r (setRing q r (fun g => { g with cons := idx }) s))
    if q = mgr then postTod 8 t else t) := by
  unfold bellConsume
  dsimp only
  rw [if_neg moves.symm, iff_decide]

end

/-- Settles O48: a doorbell by its ring's kind and by whether its index is refused. -/
theorem doorbellRule : Obligations.DoorbellRule := by
  refine ⟨?submission, ?notice, ?noticeRefused⟩
  case submission =>
    intro q r idx s ⟨_, _, wf, _⟩ hup hring live kind hidx
    have acts := execRingDoorbell_served hup hring live hidx
    by_cases bad : bellBad (ringSt s q r) idx = true
    · rw [if_pos bad] at acts
      have refused := ringSt_bellRefused_submission wf kind
      refine ⟨_, acts, by rw [refused], by rw [refused], ?_⟩
      dsimp only
      rw [if_neg fun good => absurd ((bellBad_submission kind).mpr good) (Bool.not_eq_false _ ▸ bad), refused]
      exact ⟨rfl, rfl⟩
    · rw [if_neg bad, if_pos kind] at acts
      obtain ⟨bells, moved, quiet⟩ := ringSt_bellSubmit (q := q) (r := r) (idx := idx) wf
      refine ⟨_, acts, by rw [moved], by rw [moved], ?_⟩
      dsimp only
      rw [if_pos ((bellBad_submission kind).mp (Bool.not_eq_true _ ▸ bad)), moved]
      exact ⟨rfl, rfl, quiet⟩
  case notice =>
    intro q r idx s hup hring live kind hidx inside moves back
    refine (execRingDoorbell_served hup hring live hidx).trans (congrArg _ ?_)
    have good : ¬bellBad (ringSt s q r) idx = true := by
      rw [bellBad_notice kind]
      omega
    rw [if_neg good, if_neg (Nat.not_le.mpr kind), bellConsume_moves moves]
  case noticeRefused =>
    intro q r idx s ⟨_, _, wf, _⟩ hup hring live kind hidx bad
    have refused := ringSt_bellRefused (q := q) (r := r) wf
    refine ⟨_, (execRingDoorbell_served hup hring live hidx).trans (congrArg _ (if_pos ((bellBad_notice kind).mpr bad))), ?_, ?_⟩
    · exact (congrArg Ring.cons refused :)
    · exact (congrArg Ring.dbErr refused :)

end Sys2Proof.Machine
end

section
namespace Sys2Proof.Machine

/-! ## A command's completion (R331, R338, R370) -/

/-! ### Its words -/

/-- A field just written. -/
theorem fld_setFld_same (w : Word) {hi lo : Nat} (hlo : lo ≤ hi) (hhi : hi < 32) (v : Nat) :
    fld (setFld w hi lo v) hi lo = v % 2 ^ (hi + 1 - lo) := by
  have split : 2 ^ 32 = 2 ^ lo * (2 ^ (hi + 1 - lo) * 2 ^ (31 - hi)) := by
    rw [← Nat.pow_add, ← Nat.pow_add]
    congr 1
    omega
  rw [fld, setFld_toNat, Nat.shiftRight_eq_div_pow, split, Nat.mod_mul_right_div_self, Nat.mod_mul_right_mod,
    Nat.mul_add_div (Nat.two_pow_pos lo), Nat.div_eq_of_lt (Nat.mod_lt _ (Nat.two_pow_pos lo)), Nat.add_zero, Nat.mul_add_mod,
    Nat.mod_mod]

/-- A bit above the field that a write replaces. -/
theorem bit_setFld_above (w : Word) {hi lo b : Nat} (hlo : lo ≤ hi) (hb : hi < b) (hw : b < 32) (v : Nat) :
    bit (setFld w hi lo v) b = bit w b := by
  have digit : lo + (hi + 1 - lo + (b - lo - (hi + 1 - lo))) = b := by omega
  rw [bit, setFld_toNat, Nat.testBit_mod_two_pow, Nat.testBit_two_pow_mul_add _ (Nat.mod_lt _ (Nat.two_pow_pos lo)),
    if_neg (by omega), Nat.testBit_two_pow_mul_add _ (Nat.mod_lt _ (Nat.two_pow_pos _)), if_neg (by omega),
    Nat.testBit_div_two_pow, Nat.testBit_div_two_pow, decide_eq_true hw, Bool.true_and]
  rw [bit]
  congr 1
  omega

/-- The completed descriptor: the words returned, and w0 with PHASE 0 and the status. -/
def doneWords (desc : List Word) (st : Nat) (ret : List (Nat × Word)) : List Word :=
  (withWords desc ret).set 0 (setFld (setBit ((withWords desc ret).getD 0 0) 31 false) 15 8 st)

theorem length_foldl_set (ret : List (Nat × Word)) : ∀ d : List Word, (ret.foldl (fun d x => d.set x.1 x.2) d).length = d.length := by
  induction ret with
  | nil => exact fun _ => rfl
  | cons x ret ih => exact fun d => (ih _).trans List.length_set

theorem length_withWords (desc : List Word) (ret : List (Nat × Word)) : (withWords desc ret).length = 16 := by
  rw [withWords, length_foldl_set, List.length_take, List.length_append, List.length_replicate]
  omega

section
variable (desc : List Word) (st : Nat) (ret : List (Nat × Word))

theorem length_doneWords : (doneWords desc st ret).length = 16 := List.length_set.trans (length_withWords desc ret)

theorem doneWords_head :
    (doneWords desc st ret).getD 0 0 = setFld (setBit ((withWords desc ret).getD 0 0) 31 false) 15 8 st := by
  have long : 0 < (withWords desc ret).length := by
    rw [length_withWords]
    decide
  simp only [doneWords, List.getD_eq_getElem?_getD, List.getElem?_set_self long, Option.getD_some]

theorem doneWords_phase : bit ((doneWords desc st ret).getD 0 0) 31 = false := by
  rw [doneWords_head, bit_setFld_above _ (by decide) (by decide) (by decide)]
  exact bit_setFld_same _ (by decide) false

theorem doneWords_status : fld ((doneWords desc st ret).getD 0 0) 15 8 = st % 256 := by
  rw [doneWords_head]
  exact fld_setFld_same _ (by decide) (by decide) st

theorem doneWords_other {k : Nat} (hk : 0 < k) : (doneWords desc st ret).getD k 0 = (withWords desc ret).getD k 0 := by
  simp only [doneWords, List.getD_eq_getElem?_getD, List.getElem?_set_ne (Nat.ne_of_lt hk)]

/-! ### Its ring -/

variable (q r : Nat) (s : State)

/-- The completed descriptor is written, the index moves on and the ring's interrupt follows. -/
def doneAt : State :=
  ringIrq q r (ringCnt q r 0 1 (setRing q r ringAdvance (emitHost (.completion q r (ringSt s q r).cons (doneWords desc st ret)) s)))

/-- Under NTF a CMD_DONE notice follows. -/
theorem completeWith_command (kind : (ringSt s q r).kind = 0) : completeWith q r desc st ret s =
    if bit (setFld (setBit ((withWords desc ret).getD 0 0) 31 false) 15 8 st) 18
      then postEvt q r 0x01 ((withWords desc ret).getD 1 0) [word st] (doneAt desc st ret q r s) else doneAt desc st ret q r s := by
  unfold completeWith
  dsimp only
  rw [kind, decide_eq_true rfl, Bool.true_and]
  rfl

theorem notifies_doneAt : Notifies (emitHost (.completion q r (ringSt s q r).cons (doneWords desc st ret)) s) (doneAt desc st ret q r s) :=
  (notifies_ringIrq ..).after <| (notifies_count ..).after <| notifies_setRing ..

end

section
variable {desc : List Word} {st : Nat} {ret : List (Nat × Word)} {q r : Nat} {s : State}

theorem notifies_completeWith (kind : (ringSt s q r).kind = 0) :
    Notifies (emitHost (.completion q r (ringSt s q r).cons (doneWords desc st ret)) s) (completeWith q r desc st ret s) := by
  rw [completeWith_command desc st ret q r s kind]
  exact notifies_ite ((notifies_postEvt ..).after (notifies_doneAt ..)) (notifies_doneAt ..)

theorem ringSt_doneAt (wf : Tab.wf s.hif.rings = true) : Tab.wf (doneAt desc st ret q r s).hif.rings = true ∧
    besideIrq (ringSt (doneAt desc st ret q r s) q r) = besideIrq (ringAdvance (ringSt s q r)) := by
  have sent : Tab.wf (emitHost (.completion q r (ringSt s q r).cons (doneWords desc st ret)) s).hif.rings = true := by
    rwa [emitHost_rings]
  have kept : ringSt (emitHost (.completion q r (ringSt s q r).cons (doneWords desc st ret)) s) q r = ringSt s q r := by
    rw [ringSt, emitHost_rings, ringSt]
  have irq := ringKeeps_ringIrq q r (ringCnt q r 0 1 (setRing q r ringAdvance
    (emitHost (.completion q r (ringSt s q r).cons (doneWords desc st ret)) s)))
  refine ⟨irq.wf (tupd_wf _ ringAdvance sent), (irq.kept (tupd_wf _ ringAdvance sent)).trans (congrArg besideIrq ?_)⟩
  exact (ringSt_setRing sent ringAdvance).trans (congrArg ringAdvance kept)

/-- The ring of a completed command has advanced; its notice goes to another ring. -/
theorem ringSt_completeWith (wf : Tab.wf s.hif.rings = true) (kind : (ringSt s q r).kind = 0) :
    besideIrq (ringSt (completeWith q r desc st ret s) q r) = besideIrq (ringAdvance (ringSt s q r)) := by
  obtain ⟨wfDone, advanced⟩ := ringSt_doneAt (desc := desc) (st := st) (ret := ret) (q := q) (r := r) wf
  have command : (ringSt (doneAt desc st ret q r s) q r).kind ≠ 7 := by
    have same : (ringSt (doneAt desc st ret q r s) q r).kind = (ringSt s q r).kind := (congrArg Ring.kind advanced :)
    rw [same, kind]
    decide
  rw [completeWith_command desc st ret q r s kind]
  split
  · rw [ringSt_postEvt_other wfDone command, advanced]
  · exact advanced

end

/-- Settles O49: the completion is sent first, then only rings, interrupts and counters change, the command's ring as `ringAdvance` says. -/
theorem completionInPlace : Obligations.CompletionInPlace := by
  intro q r st desc ret s t ⟨_, _, wf, _⟩ kind ht
  have ring : besideIrq (ringSt t q r) = besideIrq (ringAdvance (ringSt s q r)) := ht ▸ ringSt_completeWith wf kind
  have sent : Notifies _ t := ht ▸ notifies_completeWith kind
  have written : linkUp s = true → .completion q r (ringSt s q r).cons (doneWords desc st ret) ∈ t.out := by
    intro up
    obtain ⟨h, n, l, same⟩ := sent
    rw [emitHost, iff_of _ _ up] at same
    rw [same]
    exact List.mem_append_right l List.mem_cons_self
  obtain ⟨h, n, l, same⟩ := sent.after (notifies_emitHost ..)
  refine ⟨(congrArg Ring.cons ring :), (congrArg Ring.iter ring :), (congrArg Ring.busy ring :), (congrArg Ring.prod ring :), ?_⟩
  subst same
  exact ⟨rfl, rfl, rfl, rfl, rfl, rfl, rfl, rfl, rfl, rfl, rfl, rfl, rfl, rfl, fun up => ⟨doneWords desc st ret, written up,
    length_doneWords .., doneWords_phase .., doneWords_status .., fun _ hk => doneWords_other _ _ _ hk⟩⟩

end Sys2Proof.Machine
end
